-- ==== Sys2Proof/Word.lean ====
section
/-! DEFINITION. The word types of the machine (00_scope R2, 02_stream R25, R32). -/

namespace Sys2Proof

/-- A scalar register, an address, a vector word or a register chunk: 64 bits. -/
abbrev Word := BitVec 64

/-- One byte of memory. -/
abbrev Byte := BitVec 8

end Sys2Proof
end

