-- ==== Sys2Proof/Syntax.lean ====
section
/-! DEFINITION. The instructions and events of the machine, one constructor per row of the opcode table
(02_stream R26-R36 and the class chapters; 95_what_each_step_holds for the events). -/

namespace Sys2Proof

/-- A scope (02_stream R29): hart, core, die, device, pod. -/
inductive Scope where
  | H | C | D | M | P
  deriving DecidableEq, Repr

/-- The C bit and the predicate of a vector word (02_stream R32): `c` joins the next word to the convoy,
`pm` is the predicate mask, absent where PM enable is 0. -/
structure VHdr where
  c  : Bool
  pm : Option (BitVec 3)
  deriving DecidableEq, Repr

/-- Operand b of an arithmetic word (02_stream R33): a vector register group, or scalar S when SB is 1. -/
inductive VSrc where
  | vec (b : BitVec 5)
  | scal (s : BitVec 5)
  deriving DecidableEq, Repr

/-- The bounds of VCLAMP (06_varith R141): two vector groups, or the two halves of scalar S. -/
inductive ClampSrc where
  | vec (b x : BitVec 5)
  | scal (s : BitVec 5)
  deriving DecidableEq, Repr

/-- The conditions of VCMP (06_varith R147). -/
inductive VCond where
  | eq | ne | lt | le | gt | ge | un | ord
  deriving DecidableEq, Repr

/-- The address form of a .K load (12_engines R285): VLD, VLDS or VLDX. -/
inductive KForm where
  | unit
  | strided (b : BitVec 5)
  | indexed (b : BitVec 5)
  deriving DecidableEq, Repr

/-- The unit that raises a machine check (14_system R334). -/
inductive MCUnit where
  | tile (t : BitVec 3)
  | queues
  | core
  deriving DecidableEq, Repr

/-- The resources a core's harts share (01_machine R23, 05_harts R126, 11_route R262), and the block reader. -/
inductive Resource where
  | issue | comb | banks | slice | engine | route | reader
  deriving DecidableEq, Repr

/-- A register block of the hub (15_device R337): one of the tenancies' blocks, or the manager's. -/
inductive Block where
  | ten (t : BitVec 6)
  | mgr
  deriving DecidableEq, Repr

/-- One instruction or one event. The instructions carry their operand fields; an event carries what the
outside world decides about it. Rule numbers stand beside each constructor; those without fields stand last. -/
inductive Instr where
  /-- ADD. R90, R91. -/
  | add (d a b : BitVec 5)
  /-- SUB. R90, R91. -/
  | sub (d a b : BitVec 5)
  /-- AND. R90, R91. -/
  | and (d a b : BitVec 5)
  /-- OR. R90, R91. -/
  | or (d a b : BitVec 5)
  /-- XOR. R90, R91. -/
  | xor (d a b : BitVec 5)
  /-- SHL. R90, R91. -/
  | shl (d a b : BitVec 5)
  /-- SHR. R90, R91. -/
  | shr (d a b : BitVec 5)
  /-- SAR. R90, R91. -/
  | sar (d a b : BitVec 5)
  /-- SLT. R90, R91. -/
  | slt (d a b : BitVec 5)
  /-- SLTU. R90, R91. -/
  | sltu (d a b : BitVec 5)
  /-- MUL. R90, R91. -/
  | mul (d a b : BitVec 5)
  /-- MULH. R90, R91. -/
  | mulh (d a b : BitVec 5)
  /-- DIV. R90, R91. -/
  | div (d a b : BitVec 5)
  /-- DIVU. R90, R91. -/
  | divu (d a b : BitVec 5)
  /-- REM. R90, R91. -/
  | rem (d a b : BitVec 5)
  /-- MIN. R90, R91. -/
  | min (d a b : BitVec 5)
  /-- MAX. R90, R91. -/
  | max (d a b : BitVec 5)
  /-- ADDI. R92. -/
  | addi (d a : BitVec 5) (imm : BitVec 16)
  /-- ANDI. R92. -/
  | andi (d a : BitVec 5) (imm : BitVec 16)
  /-- ORI. R92. -/
  | ori (d a : BitVec 5) (imm : BitVec 16)
  /-- XORI. R92. -/
  | xori (d a : BitVec 5) (imm : BitVec 16)
  /-- SLTI. R92. -/
  | slti (d a : BitVec 5) (imm : BitVec 16)
  /-- SHLI. R93. -/
  | shli (d a : BitVec 5) (n : BitVec 6)
  /-- SHRI. R93. -/
  | shri (d a : BitVec 5) (n : BitVec 6)
  /-- SARI. R93. -/
  | sari (d a : BitVec 5) (n : BitVec 6)
  /-- LHI. R94. -/
  | lhi (d : BitVec 5) (imm : BitVec 16)
  /-- ADDPC. R94. -/
  | addpc (d : BitVec 5) (imm : BitVec 16)
  /-- LD. R96. -/
  | ld (d a : BitVec 5) (imm : BitVec 16)
  /-- LW. R96. -/
  | lw (d a : BitVec 5) (imm : BitVec 16)
  /-- LWU. R96. -/
  | lwu (d a : BitVec 5) (imm : BitVec 16)
  /-- LH. R96. -/
  | lh (d a : BitVec 5) (imm : BitVec 16)
  /-- LHU. R96. -/
  | lhu (d a : BitVec 5) (imm : BitVec 16)
  /-- LB. R96. -/
  | lb (d a : BitVec 5) (imm : BitVec 16)
  /-- LBU. R96. -/
  | lbu (d a : BitVec 5) (imm : BitVec 16)
  /-- SD. R96. -/
  | sd (d a : BitVec 5) (imm : BitVec 16)
  /-- SW. R96. -/
  | sw (d a : BitVec 5) (imm : BitVec 16)
  /-- SH. R96. -/
  | sh (d a : BitVec 5) (imm : BitVec 16)
  /-- SB. R96. -/
  | sb (d a : BitVec 5) (imm : BitVec 16)
  /-- BEQ. R99. -/
  | beq (a b : BitVec 5) (off : BitVec 16)
  /-- BNE. R99. -/
  | bne (a b : BitVec 5) (off : BitVec 16)
  /-- BLT. R99. -/
  | blt (a b : BitVec 5) (off : BitVec 16)
  /-- BGE. R99. -/
  | bge (a b : BitVec 5) (off : BitVec 16)
  /-- BLTU. R99. -/
  | bltu (a b : BitVec 5) (off : BitVec 16)
  /-- BGEU. R99. -/
  | bgeu (a b : BitVec 5) (off : BitVec 16)
  /-- JAL. R100. -/
  | jal (d : BitVec 5) (off : BitVec 21)
  /-- JALR. R101. -/
  | jalr (d a : BitVec 5) (imm : BitVec 16)
  /-- AMO_ADD. R212, R213. -/
  | amoAdd (d a b : BitVec 5) (l acq rel : Bool) (sc : Scope)
  /-- AMO_SWAP. R212, R213. -/
  | amoSwap (d a b : BitVec 5) (l acq rel : Bool) (sc : Scope)
  /-- AMO_CAS. R212, R213. -/
  | amoCas (d a b : BitVec 5) (l acq rel : Bool) (sc : Scope)
  /-- AMO_AND. R212, R213. -/
  | amoAnd (d a b : BitVec 5) (l acq rel : Bool) (sc : Scope)
  /-- AMO_OR. R212, R213. -/
  | amoOr (d a b : BitVec 5) (l acq rel : Bool) (sc : Scope)
  /-- AMO_MAX. R212, R213. -/
  | amoMax (d a b : BitVec 5) (l acq rel : Bool) (sc : Scope)
  /-- AMO_MIN. R212, R213. -/
  | amoMin (d a b : BitVec 5) (l acq rel : Bool) (sc : Scope)
  /-- FENCE_SV. R210. -/
  | fenceSv (sc : Scope)
  /-- FENCE_VS. R210. -/
  | fenceVs (sc : Scope)
  /-- FENCE_VV. R210. -/
  | fenceVv (sc : Scope)
  /-- FENCE_ALL. R210. -/
  | fenceAll (sc : Scope)
  /-- VBLK. R37. -/
  | vblk (off : BitVec 21)
  /-- VBLKR. R37. -/
  | vblkr (a : BitVec 5) (imm : BitVec 16)
  /-- SETLEN. R111. -/
  | setlen (d a b : BitVec 5)
  /-- SETLENI. R111. -/
  | setleni (d a : BitVec 5) (imm : BitVec 16)
  /-- CSRR. R102. -/
  | csrr (d a : BitVec 5) (csr : BitVec 12)
  /-- CSRW. R102. -/
  | csrw (d a : BitVec 5) (csr : BitVec 12)
  /-- CSRS. R102. -/
  | csrs (d a : BitVec 5) (csr : BitVec 12)
  /-- CSRC. R102. -/
  | csrc (d a : BitVec 5) (csr : BitVec 12)
  /-- TLBINV_PG. R323. -/
  | tlbinvPg (sc : Scope) (a : BitVec 5)
  /-- TLBINV_ALL. R323. -/
  | tlbinvAll (sc : Scope)
  /-- VQSAVE. R326. -/
  | vqsave (d a : BitVec 5)
  /-- VQLOAD. R327. -/
  | vqload (a b : BitVec 5)
  /-- CWB. R324. -/
  | cwb (a b : BitVec 5)
  /-- CINV. R324. -/
  | cinv (a b : BitVec 5)
  /-- VDECL. R117. -/
  | vdecl (a : BitVec 5)
  /-- FARM. R118. -/
  | farm (d a : BitVec 5)
  /-- FNEXT. R119. -/
  | fnext (d a : BitVec 5)
  /-- CSET. R292. -/
  | cset (d a b : BitVec 5)
  /-- HLAUNCH. R122. -/
  | hlaunch (d a : BitVec 5)
  /-- VNOP. R42. -/
  | vnop (c : Bool)
  /-- VADD. R139. -/
  | vadd (h : VHdr) (d a : BitVec 5) (b : VSrc) (f : BitVec 5)
  /-- VSUB. R139. -/
  | vsub (h : VHdr) (d a : BitVec 5) (b : VSrc) (f : BitVec 5)
  /-- VMUL. R139. -/
  | vmul (h : VHdr) (d a : BitVec 5) (b : VSrc) (f : BitVec 5)
  /-- VFMA. R139. -/
  | vfma (h : VHdr) (d a : BitVec 5) (b : VSrc) (x f : BitVec 5)
  /-- VFMS. R139. -/
  | vfms (h : VHdr) (d a : BitVec 5) (b : VSrc) (x f : BitVec 5)
  /-- VFNMA. R139. -/
  | vfnma (h : VHdr) (d a : BitVec 5) (b : VSrc) (x f : BitVec 5)
  /-- VDIV. R139. -/
  | vdiv (h : VHdr) (d a : BitVec 5) (b : VSrc) (f : BitVec 5)
  /-- VSQRT. R142. -/
  | vsqrt (h : VHdr) (d a f : BitVec 5)
  /-- VMIN. R139, R140. -/
  | vmin (h : VHdr) (d a : BitVec 5) (b : VSrc) (f : BitVec 5)
  /-- VMAX. R139, R140. -/
  | vmax (h : VHdr) (d a : BitVec 5) (b : VSrc) (f : BitVec 5)
  /-- VABS. R139. -/
  | vabs (h : VHdr) (d a f : BitVec 5)
  /-- VNEG. R139. -/
  | vneg (h : VHdr) (d a f : BitVec 5)
  /-- VCLAMP. R141. -/
  | vclamp (h : VHdr) (d a : BitVec 5) (b : ClampSrc) (f : BitVec 5)
  /-- VAND. R143. -/
  | vand (h : VHdr) (d a : BitVec 5) (b : VSrc) (f : BitVec 5)
  /-- VOR. R143. -/
  | vor (h : VHdr) (d a : BitVec 5) (b : VSrc) (f : BitVec 5)
  /-- VXOR. R143. -/
  | vxor (h : VHdr) (d a : BitVec 5) (b : VSrc) (f : BitVec 5)
  /-- VSHL. R144. -/
  | vshl (h : VHdr) (d a : BitVec 5) (b : VSrc) (f : BitVec 5)
  /-- VSHR. R144. -/
  | vshr (h : VHdr) (d a : BitVec 5) (b : VSrc) (f : BitVec 5)
  /-- VSHR_A. R144. -/
  | vshrA (h : VHdr) (d a : BitVec 5) (b : VSrc) (f : BitVec 5)
  /-- VCVT. R80. -/
  | vcvt (h : VHdr) (d a f : BitVec 5)
  /-- VRCP. R142. -/
  | vrcp (h : VHdr) (d a f : BitVec 5)
  /-- VRSQRT. R142. -/
  | vrsqrt (h : VHdr) (d a f : BitVec 5)
  /-- VEXP2. R142. -/
  | vexp2 (h : VHdr) (d a f : BitVec 5)
  /-- VLOG2. R142. -/
  | vlog2 (h : VHdr) (d a f : BitVec 5)
  /-- VSEL. R145. -/
  | vsel (h : VHdr) (d a : BitVec 5) (b : VSrc) (m : BitVec 3) (f : BitVec 5)
  /-- VMOV. R143. -/
  | vmov (h : VHdr) (d a f : BitVec 5)
  /-- VSPLAT. R143. -/
  | vsplat (h : VHdr) (d s f : BitVec 5)
  /-- VINDEX. R146. -/
  | vindex (h : VHdr) (d s f : BitVec 5)
  /-- VCMP. R147. -/
  | vcmp (h : VHdr) (cc : VCond) (d : BitVec 3) (a : BitVec 5) (b : VSrc) (f : BitVec 5)
  /-- VRED_SUMO. R150. -/
  | vredSumo (h : VHdr) (d a : BitVec 5) (init : Option (BitVec 5)) (f : BitVec 5)
  /-- VRED_SUMP. R150. -/
  | vredSump (h : VHdr) (d a : BitVec 5) (init : Option (BitVec 5)) (f : BitVec 5)
  /-- VRED_MAX. R150. -/
  | vredMax (h : VHdr) (d a : BitVec 5) (init : Option (BitVec 5)) (f : BitVec 5)
  /-- VRED_MIN. R150. -/
  | vredMin (h : VHdr) (d a : BitVec 5) (init : Option (BitVec 5)) (f : BitVec 5)
  /-- VRED_AND. R150. -/
  | vredAnd (h : VHdr) (d a : BitVec 5) (init : Option (BitVec 5)) (f : BitVec 5)
  /-- VRED_OR. R150. -/
  | vredOr (h : VHdr) (d a : BitVec 5) (init : Option (BitVec 5)) (f : BitVec 5)
  /-- VRED_XOR. R150. -/
  | vredXor (h : VHdr) (d a : BitVec 5) (init : Option (BitVec 5)) (f : BitVec 5)
  /-- MAND. R148. -/
  | mand (h : VHdr) (d a b : BitVec 3)
  /-- MOR. R148. -/
  | mor (h : VHdr) (d a b : BitVec 3)
  /-- MXOR. R148. -/
  | mxor (h : VHdr) (d a b : BitVec 3)
  /-- MANDN. R148. -/
  | mandn (h : VHdr) (d a b : BitVec 3)
  /-- MNOT. R148. -/
  | mnot (h : VHdr) (d a : BitVec 3)
  /-- MPOP. R149. -/
  | mpop (h : VHdr) (d : BitVec 5) (a : BitVec 3)
  /-- MFIRST. R149. -/
  | mfirst (h : VHdr) (d : BitVec 5) (a : BitVec 3)
  /-- MSET_LT. R148. -/
  | msetLt (h : VHdr) (d : BitVec 3) (s : BitVec 5)
  /-- MSET_GE. R148. -/
  | msetGe (h : VHdr) (d : BitVec 3) (s : BitVec 5)
  /-- VQNT. R81. -/
  | vqnt (h : VHdr) (d x a f : BitVec 5)
  /-- VDQNT. R82. -/
  | vdqnt (h : VHdr) (d a x f : BitVec 5)
  /-- VUP. R160. -/
  | vup (h : VHdr) (d a s f : BitVec 5)
  /-- VDN. R160. -/
  | vdn (h : VHdr) (d a s f : BitVec 5)
  /-- VGATHR. R161. -/
  | vgathr (h : VHdr) (d a b f : BitVec 5)
  /-- VPACK. R162. -/
  | vpack (c : Bool) (d a : BitVec 5) (m : BitVec 3) (f : BitVec 5)
  /-- VUNPK. R162. -/
  | vunpk (c : Bool) (d a : BitVec 5) (m : BitVec 3) (f : BitVec 5)
  /-- VRESH. R163. -/
  | vresh (c : Bool) (d a s f : BitVec 5)
  /-- VRESH_T. R163. -/
  | vreshT (c : Bool) (d a s f : BitVec 5)
  /-- VRESH_INV. R163. -/
  | vreshInv (c : Bool) (d a s f : BitVec 5)
  /-- VGTR. R164. -/
  | vgtr (c : Bool) (d a f : BitVec 5)
  /-- VLD. R181. -/
  | vld (h : VHdr) (d s f : BitVec 5) (off : BitVec 16)
  /-- VLDS. R181. -/
  | vlds (h : VHdr) (d s b f : BitVec 5) (off : BitVec 16)
  /-- VLDX. R181. -/
  | vldx (h : VHdr) (d s b f : BitVec 5) (off : BitVec 16)
  /-- VLD_K. R285. -/
  | vldK (c : Bool) (pm : BitVec 3) (form : KForm) (d s f : BitVec 5) (off : BitVec 16)
  /-- VLDFF. R184. -/
  | vldff (h : VHdr) (x : BitVec 5) (d : BitVec 3) (s f : BitVec 5) (off : BitVec 16)
  /-- VST. R181. -/
  | vst (h : VHdr) (a s f : BitVec 5) (off : BitVec 16)
  /-- VSTS. R181, R182. -/
  | vsts (h : VHdr) (a s b f : BitVec 5) (off : BitVec 16)
  /-- VSTX. R181, R182. -/
  | vstx (h : VHdr) (a s b f : BitVec 5) (off : BitVec 16)
  /-- VSTXO. R181, R182. -/
  | vstxo (h : VHdr) (a s b f : BitVec 5) (off : BitVec 16)
  /-- VST_C. R297. -/
  | vstC (c : Bool) (d a s f : BitVec 5) (off : BitVec 16)
  /-- VLD_C. R299. -/
  | vldC (c : Bool) (d s f : BitVec 5) (off : BitVec 16)
  /-- VAMO_ADD. R216. -/
  | vamoAdd (h : VHdr) (d a b s f : BitVec 5) (off : BitVec 16)
  /-- VAMO_SWAP. R216. -/
  | vamoSwap (h : VHdr) (d a b s f : BitVec 5) (off : BitVec 16)
  /-- VAMO_CAS. R216. -/
  | vamoCas (h : VHdr) (d a b x s f : BitVec 5) (off : BitVec 16)
  /-- VAMO_AND. R216. -/
  | vamoAnd (h : VHdr) (d a b s f : BitVec 5) (off : BitVec 16)
  /-- VAMO_OR. R216. -/
  | vamoOr (h : VHdr) (d a b s f : BitVec 5) (off : BitVec 16)
  /-- VAMO_MAX. R216. -/
  | vamoMax (h : VHdr) (d a b s f : BitVec 5) (off : BitVec 16)
  /-- VAMO_MIN. R216. -/
  | vamoMin (h : VHdr) (d a b s f : BitVec 5) (off : BitVec 16)
  /-- VLDP. R218. -/
  | vldp (h : VHdr) (d : BitVec 5) (x : BitVec 3) (s b f : BitVec 5) (off : BitVec 16)
  /-- VSTP. R218. -/
  | vstp (h : VHdr) (a : BitVec 5) (x : BitVec 3) (s b f : BitVec 5) (off : BitVec 16)
  /-- VSTR. R300. -/
  | vstr (h : VHdr) (a : BitVec 5) (x : BitVec 3) (s b f : BitVec 5) (off : BitVec 16)
  /-- VLDW. R185. -/
  | vldw (c : Bool) (d s : BitVec 5) (off : BitVec 16)
  /-- VSTW. R185. -/
  | vstw (c : Bool) (a s : BitVec 5) (off : BitVec 16)
  /-- VLDW_M. R187. -/
  | vldwM (c : Bool) (d : BitVec 3) (s : BitVec 5) (off : BitVec 16)
  /-- VSTW_M. R187. -/
  | vstwM (c : Bool) (a : BitVec 3) (s : BitVec 5) (off : BitVec 16)
  /-- PST. R195. -/
  | pst (c : Bool) (a b x f : BitVec 5) (run : Option (BitVec 5)) (w : Bool)
  /-- POP_ADD. R195. -/
  | popAdd (c : Bool) (a b x f : BitVec 5) (run : Option (BitVec 5)) (row w : Bool)
  /-- POP_SUB. R195. -/
  | popSub (c : Bool) (a b x f : BitVec 5) (run : Option (BitVec 5)) (row w : Bool)
  /-- POP_MIN. R195. -/
  | popMin (c : Bool) (a b x f : BitVec 5) (run : Option (BitVec 5)) (row w : Bool)
  /-- POP_MAX. R195. -/
  | popMax (c : Bool) (a b x f : BitVec 5) (run : Option (BitVec 5)) (row w : Bool)
  /-- POP_AND. R195. -/
  | popAnd (c : Bool) (a b x f : BitVec 5) (run : Option (BitVec 5)) (row w : Bool)
  /-- POP_OR. R195. -/
  | popOr (c : Bool) (a b x f : BitVec 5) (run : Option (BitVec 5)) (row w : Bool)
  /-- POP_XOR. R195. -/
  | popXor (c : Bool) (a b x f : BitVec 5) (run : Option (BitVec 5)) (row w : Bool)
  /-- POP_MOV. R195. -/
  | popMov (c : Bool) (a b x f : BitVec 5) (run : Option (BitVec 5)) (row w : Bool)
  /-- PLD_SUM. R196. -/
  | pldSum (c : Bool) (d a x f : BitVec 5) (run : Option (BitVec 5)) (w : Bool)
  /-- PLD_MAX. R196. -/
  | pldMax (c : Bool) (d a x f : BitVec 5) (run : Option (BitVec 5)) (w : Bool)
  /-- PLD_MIN. R196. -/
  | pldMin (c : Bool) (d a x f : BitVec 5) (run : Option (BitVec 5)) (w : Bool)
  /-- PLD_AND. R196. -/
  | pldAnd (c : Bool) (d a x f : BitVec 5) (run : Option (BitVec 5)) (w : Bool)
  /-- PLD_OR. R196. -/
  | pldOr (c : Bool) (d a x f : BitVec 5) (run : Option (BitVec 5)) (w : Bool)
  /-- PLD_XOR. R196. -/
  | pldXor (c : Bool) (d a x f : BitVec 5) (run : Option (BitVec 5)) (w : Bool)
  /-- PLD_CNT. R196. -/
  | pldCnt (c : Bool) (d a x f : BitVec 5) (run : Option (BitVec 5)) (w : Bool)
  /-- VWAIT. R124. -/
  | vwait (h : VHdr) (x : BitVec 3) (d a s : BitVec 5)
  /-- CTRI. R230. -/
  | ctri (d : BitVec 3) (a b x f sa sb : BitVec 5)
  /-- CZERO. R234. -/
  | czero (d : BitVec 3)
  /-- CGET. R233. -/
  | cget (d : BitVec 5) (a : BitVec 3) (s f i0 nr j0 nc : BitVec 5)
  /-- CGETC. R233. -/
  | cgetc (d : BitVec 5) (a : BitVec 3) (s f i0 nr j0 nc : BitVec 5)
  /-- CPUT. R233. -/
  | cput (d : BitVec 3) (a s f i0 nr j0 nc : BitVec 5)
  /-- CSHP. R227. -/
  | cshp (s : BitVec 5)
  /-- TSAVE. R235. -/
  | tsave (a : BitVec 3) (s : BitVec 5) (off : BitVec 16)
  /-- TLOAD. R235. -/
  | tload (d : BitVec 3) (s : BitVec 5) (off : BitVec 16)
  /-- ROUTE. R251. -/
  | route (h : VHdr) (fr : BitVec 2) (a b x s : BitVec 5)
  /-- RRECV. R254. -/
  | rrecv (c : Bool) (d x a s : BitVec 5)
  /-- RRET. R255. -/
  | rret (h : VHdr) (a x : BitVec 5)
  /-- FWAIT. R258. -/
  | fwait (c : Bool) (d : BitVec 5) (fr : BitVec 2)
  /-- FREAD. R259. -/
  | fread (c : Bool) (d x : BitVec 5) (fr : BitVec 2)
  /-- RTSET. R249. -/
  | rtset (c : Bool) (a s : BitVec 5)
  /-- ENQ_STK. R265, R267. -/
  | enqStk (h : VHdr) (d : BitVec 3) (x a : BitVec 5)
  /-- ENQ_CPY. R265, R267. -/
  | enqCpy (h : VHdr) (d : BitVec 3) (x a : BitVec 5)
  /-- CWPW. R286. -/
  | cwpw (c : Bool) (n : BitVec 2) (s : BitVec 5)
  /-- CONVOY_DISPATCH. R55; upTo: the element the sequencer stops at, a group boundary at or above it (R316). -/
  | convoyDispatch (upTo : BitVec 32)
  /-- MACHINE_CHECK. R334. -/
  | machineCheck (u : MCUnit)
  /-- ARBITRATION_PROMOTION. R126. -/
  | arbitrationPromotion (r : Resource)
  /-- ROW_ARRIVAL. R245; k: which message in flight. -/
  | rowArrival (k : BitVec 16)
  /-- RETURN_ARRIVAL. R256. -/
  | returnArrival (k : BitVec 16)
  /-- REFUSAL_ARRIVAL. R256. -/
  | refusalArrival (k : BitVec 16)
  /-- FRAME_TIMEOUT. R256. -/
  | frameTimeout (fr : BitVec 2)
  /-- LAUNCH_CHECK. R105. -/
  | launchCheck (t : BitVec 6)
  /-- LAUNCH_PLACE. R106. -/
  | launchPlace (t : BitVec 6)
  /-- LAUNCH_COMPLETE. R108; k: which running launch. -/
  | launchComplete (k : BitVec 16)
  /-- IRED. R274. -/
  | ired (st : BitVec 4)
  /-- RCOPY. R275. -/
  | rcopy (st : BitVec 4)
  /-- RFILL. R276. -/
  | rfill (st : BitVec 4)
  /-- CARD_BOUND. R278; n: sub-operations done at the stop. -/
  | cardBound (st : BitVec 4) (n : BitVec 7)
  /-- REDUCTION_PACKET. R279. -/
  | reductionPacket (st : BitVec 4)
  /-- COPY_COMMAND. R283. -/
  | copyCommand (ch : BitVec 2)
  /-- COPY_CHUNK. R283. -/
  | copyChunk (ch : BitVec 2)
  /-- CONTRIBUTION_ARRIVAL. R298. -/
  | contributionArrival (k : BitVec 16)
  /-- COLLECTIVE_COMBINE. R298; k: which staged contribution names the chunk. -/
  | collectiveCombine (k : BitVec 16)
  /-- CHUNK_FETCH. R299. -/
  | chunkFetch (k : BitVec 16)
  /-- TRAIN_ARRIVAL. R302. -/
  | trainArrival (k : BitVec 16)
  /-- TRAIN_ACK. R302. -/
  | trainAck (k : BitVec 16)
  /-- PROPOLIS_ARM. R304, R305; v: the value written to PARM. -/
  | propolisArm (t : BitVec 6) (v : BitVec 64)
  /-- PROPOLIS_UNIT_COPY. R307; u: which noted unit. -/
  | propolisUnitCopy (t : BitVec 6) (u : BitVec 32)
  /-- PROPOLIS_LAST_CUT. R307. -/
  | propolisLastCut (t : BitVec 6)
  /-- PROPOLIS_DRAIN_UNIT. R307. -/
  | propolisDrainUnit (t : BitVec 6)
  /-- PROPOLIS_DRAIN_REFUSED. R308. -/
  | propolisDrainRefused (t : BitVec 6)
  /-- LQPUSH. R340; n: the 8-byte word written. -/
  | lqpush (t : BitVec 6) (n : BitVec 4) (v : BitVec 64)
  /-- INTSTAT_CLEAR. R338, R341. -/
  | intstatClear (t : BitVec 6) (v : BitVec 64)
  /-- PREEMPT. R342. -/
  | preempt (t : BitVec 6) (v : BitVec 64)
  /-- ATTREQ. R352. -/
  | attreq (t : BitVec 6) (v : BitVec 64)
  /-- REGISTER_WRITE. R338, R355. -/
  | registerWrite (blk : Block) (off : BitVec 16) (v : BitVec 64)
  /-- DEVNUM_WRITE. R346. -/
  | devnumWrite (v : BitVec 64)
  /-- PLIMIT_WRITE. R347. -/
  | plimitWrite (v : BitVec 64)
  /-- PWRREQ_LEAVE_OFF. R348, R351; img: the boot image loaded. -/
  | pwrreqLeaveOff (img : BitVec 64)
  /-- GROUPOWN_WRITE. R343, R345. -/
  | groupownWrite (g : BitVec 4) (v : BitVec 64)
  /-- WINDOW_WRITE. R357. -/
  | windowWrite (t : BitVec 6) (n : BitVec 2) (lim : Bool) (v : BitVec 64)
  /-- POWER_ON. R351; img: the boot image loaded. -/
  | powerOn (img : BitVec 64)
  /-- VGRANT_WRITE. R114. -/
  | vgrantWrite (core : BitVec 7) (g : BitVec 4)
  /-- COMB_RATE_HALVE. R13, R114. -/
  | combRateHalve (core : BitVec 7) (half : Bool)
  /-- ILLEGAL_INSTRUCTION. R28. -/
  | illegalInstruction (w : BitVec 32)
  /-- CONTRIBUTION_ACK. R297. -/
  | contributionAck (k : BitVec 16)
  /-- TAMLINK_PORT_DOWN. R346. -/
  | tamlinkPortDown (k : BitVec 16)
  /-- TAMLINK_PORT_UP. R346. -/
  | tamlinkPortUp (k : BitVec 16)
  /-- HOST_WRITE. R306; n + 1 bytes of v at physical address pa. -/
  | hostWrite (pa : BitVec 64) (n : BitVec 3) (v : BitVec 64)
  /-- SVC. R319. -/
  | svc
  /-- TRET. R319. -/
  | tret
  /-- VRET. R319. -/
  | vret
  /-- BRK. R319. -/
  | brk
  /-- IFLUSH. R319. -/
  | iflush
  /-- HEXIT. R123. -/
  | hexit
  /-- HBAR. R121. -/
  | hbar
  /-- VSTOP. R41. -/
  | vstop
  /-- BLOCK_WORD_PLACE. R39. -/
  | blockWordPlace
  /-- COMB_WORD_ISSUE. R57. -/
  | combWordIssue
  /-- SCALAR_LOAD_DATA. R97. -/
  | scalarLoadData
  /-- STORE_BUFFER_WRITE. R97. -/
  | storeBufferWrite
  /-- TRAP_TAKE. R313, R314. -/
  | trapTake
  /-- FENCE_RELEASE. R210. -/
  | fenceRelease
  /-- HBAR_RELEASE. R121. -/
  | hbarRelease
  /-- HEXIT_FREE. R123. -/
  | hexitFree
  /-- VWAIT_WAKE. R124. -/
  | vwaitWake
  /-- VWAIT_POLL. R124. -/
  | vwaitPoll
  /-- VWAIT_TIMEOUT. R124. -/
  | vwaitTimeout
  /-- RRECV_TAKE. R254. -/
  | rrecvTake
  /-- RRECV_TIMEOUT. R254. -/
  | rrecvTimeout
  /-- FWAIT_RELEASE. R258. -/
  | fwaitRelease
  /-- CWPW_RELEASE. R286. -/
  | cwpwRelease
  /-- PWRREQ_ENTER_OFF. R348, R356. -/
  | pwrreqEnterOff
  /-- NONCE. R358. -/
  | nonce
  /-- TOKEN. R350. -/
  | token
  /-- ATTACH. R358. -/
  | attach
  /-- DETACH. R358. -/
  | detach
  /-- HALT. R333. -/
  | halt
  /-- RESUME. R333. -/
  | resume
  /-- STEP. R333. -/
  | step
  /-- READ. R358. -/
  | read
  /-- WRITE. R358. -/
  | write
  /-- TRACEON. R358. -/
  | traceon
  /-- TRACEOFF. R358. -/
  | traceoff
  deriving DecidableEq, Repr

end Sys2Proof
end

