-- ==== Sys2Proof/WellFormed.lean ====
section
/-! DEFINITION. What an instruction term must satisfy beyond its type to stand for an instruction or an event of
the spec. -/

namespace Sys2Proof

/-- The assigned CSR numbers (04_scalar R103). -/
def csrAssigned (n : BitVec 12) : Bool :=
  let k := n.toNat
  (0x010 ≤ k && k ≤ 0x015) || (0x018 ≤ k && k ≤ 0x01F) || (0x020 ≤ k && k ≤ 0x029) || (0x030 ≤ k && k ≤ 0x033)
    || (0x038 ≤ k && k ≤ 0x03B) || (0x040 ≤ k && k ≤ 0x044) || k == 0x048 || (0x050 ≤ k && k ≤ 0x054)
    || k == 0x058 || k == 0x05A || (0x100 ≤ k && k ≤ 0x108)

/-- A well-formed term: a CSR instruction names an assigned CSR (02_stream R26, R28), the power controller writes a
grant from 1 to 8 (05_harts R114), and a Tamlink port is one of 72 (01_machine R9, R20). Every other restriction of the spec is in the types. -/
def Instr.wellFormed : Instr → Bool
  | .csrr _ _ csr | .csrw _ _ csr | .csrs _ _ csr | .csrc _ _ csr => csrAssigned csr
  | .vgrantWrite _ g => 1 ≤ g.toNat && g.toNat ≤ 8
  | .tamlinkPortDown k | .tamlinkPortUp k => k.toNat < 72
  | _ => true

end Sys2Proof
end

