-- ==== Sys2Proof/Decode.lean ====
section
/-! DEFINITION. The decoder of scalar words (02_stream R25-R29) and of vector block words (R32-R36 and the
sub-formats of the class chapters), the encoder, and the words of the opcode table. -/

namespace Sys2Proof

/-! ### Rejections -/

/-- Why a word is no instruction. -/
inductive Reject where
  /-- The major opcode or vector opcode is not assigned (R26, R36). -/
  | opcode
  /-- The function, selector or variant is not listed (R27, R33). -/
  | function
  /-- The CSR number is not assigned (R28). -/
  | csr
  /-- The scope is reserved (R29). -/
  | scope
  /-- A field that must be zero is not (R27, R34). -/
  | nonZero
  deriving DecidableEq, Repr

/-! ### Scalar words -/

/-- Bits `lo` to `lo + len - 1` of a scalar word. -/
def sfield (w : BitVec 32) (lo len : Nat) : BitVec len := w.extractLsb' lo len

/-- OP of a scalar word (R26). -/
def opOf (w : BitVec 32) : BitVec 6 := sfield w 26 6
/-- Bits [25:21]: d of formats A, I, J and C, a of format B (R26). -/
def f1Of (w : BitVec 32) : BitVec 5 := sfield w 21 5
/-- Bits [20:16]: a of formats A, I and C, b of format B (R26). -/
def f2Of (w : BitVec 32) : BitVec 5 := sfield w 16 5
/-- Bits [15:11]: b of format A (R26). -/
def f3Of (w : BitVec 32) : BitVec 5 := sfield w 11 5
/-- Bits [10:0]: fn of format A (R26). -/
def fnOf (w : BitVec 32) : BitVec 11 := sfield w 0 11
/-- Bits [15:0]: imm16 or off16 (R26). -/
def immOf (w : BitVec 32) : BitVec 16 := sfield w 0 16
/-- Bits [20:0]: off21 (R26). -/
def offOf (w : BitVec 32) : BitVec 21 := sfield w 0 21

/-- The scope a code names (R29). -/
def scopeOf (c : BitVec 3) : Option Scope :=
  match c.toNat with
  | 0 => some .H
  | 1 => some .C
  | 2 => some .D
  | 3 => some .M
  | 4 => some .P
  | _ => none

/-- The code of a scope (R29). -/
def Scope.code : Scope → BitVec 3
  | .H => 0
  | .C => 1
  | .D => 2
  | .M => 3
  | .P => 4

/-- An instruction whose must-be-zero fields are zero, or a rejection (R28, R34). -/
def need (ok : Bool) (i : Instr) : Except Reject Instr := if ok then .ok i else .error .nonZero

/-- An instruction with a scope field (R28, R29). -/
def needScope (c : BitVec 3) (k : Scope → Except Reject Instr) : Except Reject Instr :=
  match scopeOf c with
  | some sc => k sc
  | none => .error .scope

/-- OP 0x00 (R27). -/
def decodeAlu (w : BitVec 32) : Except Reject Instr :=
  let d := f1Of w
  let a := f2Of w
  let b := f3Of w
  match (fnOf w).toNat with
  | 0 => .ok (.add d a b)
  | 1 => .ok (.sub d a b)
  | 2 => .ok (.and d a b)
  | 3 => .ok (.or d a b)
  | 4 => .ok (.xor d a b)
  | 5 => .ok (.shl d a b)
  | 6 => .ok (.shr d a b)
  | 7 => .ok (.sar d a b)
  | 8 => .ok (.slt d a b)
  | 9 => .ok (.sltu d a b)
  | 10 => .ok (.mul d a b)
  | 11 => .ok (.mulh d a b)
  | 12 => .ok (.div d a b)
  | 13 => .ok (.divu d a b)
  | 14 => .ok (.rem d a b)
  | 15 => .ok (.min d a b)
  | 16 => .ok (.max d a b)
  | _ => .error .function

/-- OP 0x06 (R27, 04_scalar R93). -/
def decodeShi (w : BitVec 32) : Except Reject Instr :=
  let d := f1Of w
  let a := f2Of w
  let n := sfield w 0 6
  let z := sfield w 8 8 == 0
  match (sfield w 6 2).toNat with
  | 0 => need z (.shli d a n)
  | 1 => need z (.shri d a n)
  | 2 => need z (.sari d a n)
  | _ => .error .function

/-- OP 0x1C (R27, 09_order R212). -/
def decodeAmo (w : BitVec 32) : Except Reject Instr :=
  let d := f1Of w
  let a := f2Of w
  let b := f3Of w
  let l := w.getLsbD 3
  let acq := w.getLsbD 4
  let rel := w.getLsbD 5
  let z := sfield w 9 2 == 0
  needScope (sfield w 6 3) fun sc =>
  match (sfield w 0 3).toNat with
  | 0 => need z (.amoAdd d a b l acq rel sc)
  | 1 => need z (.amoSwap d a b l acq rel sc)
  | 2 => need z (.amoCas d a b l acq rel sc)
  | 3 => need z (.amoAnd d a b l acq rel sc)
  | 4 => need z (.amoOr d a b l acq rel sc)
  | 5 => need z (.amoMax d a b l acq rel sc)
  | 6 => need z (.amoMin d a b l acq rel sc)
  | _ => .error .function

/-- OP 0x1D (R27, 09_order R210). -/
def decodeFence (w : BitVec 32) : Except Reject Instr :=
  let z := f1Of w == 0 && f2Of w == 0 && f3Of w == 0 && sfield w 5 6 == 0
  needScope (sfield w 2 3) fun sc =>
  match (sfield w 0 2).toNat with
  | 0 => need z (.fenceSv sc)
  | 1 => need z (.fenceVs sc)
  | 2 => need z (.fenceVv sc)
  | _ => need z (.fenceAll sc)

/-- OP 0x22 (R26, 04_scalar R102). -/
def decodeCsr (w : BitVec 32) : Except Reject Instr :=
  let d := f1Of w
  let a := f2Of w
  let csr := sfield w 4 12
  let chk (i : Instr) : Except Reject Instr := if csrAssigned csr then .ok i else .error .csr
  match (sfield w 0 4).toNat with
  | 0 => chk (.csrr d a csr)
  | 1 => chk (.csrw d a csr)
  | 2 => chk (.csrs d a csr)
  | 3 => chk (.csrc d a csr)
  | _ => .error .function

/-- OP 0x23 (R27, 14_system R319). -/
def decodeSys (w : BitVec 32) : Except Reject Instr :=
  let d := f1Of w
  let a := f2Of w
  let b := f3Of w
  match (fnOf w).toNat with
  | 0 => need (d == 0 && a == 0 && b == 0) .svc
  | 1 => need (d == 0 && a == 0 && b == 0) .tret
  | 2 => need (d == 0 && a == 0 && b == 0) .vret
  | 3 => need (d == 0 && a == 0 && b == 0) .brk
  | 4 => need (d == 0 && a == 0 && b == 0) .iflush
  | 5 => needScope (sfield w 21 3) fun sc =>
    match (sfield w 24 2).toNat with
    | 0 => need (b == 0) (.tlbinvPg sc a)
    | 1 => need (a == 0 && b == 0) (.tlbinvAll sc)
    | _ => .error .function
  | 6 => need (b == 0) (.vqsave d a)
  | 7 => need (d == 0) (.vqload a b)
  | 8 => need (d == 0) (.cwb a b)
  | 9 => need (d == 0) (.cinv a b)
  | _ => .error .function

/-- OP 0x24 (R27, 05_harts R116). -/
def decodeHart (w : BitVec 32) : Except Reject Instr :=
  let d := f1Of w
  let a := f2Of w
  let b := f3Of w
  match (fnOf w).toNat with
  | 0 => need (d == 0 && a == 0 && b == 0) .hexit
  | 1 => need (d == 0 && b == 0) (.vdecl a)
  | 2 => need (b == 0) (.farm d a)
  | 3 => need (b == 0) (.fnext d a)
  | 4 => need (d == 0 && a == 0 && b == 0) .hbar
  | 5 => .ok (.cset d a b)
  | 6 => need (b == 0) (.hlaunch d a)
  | _ => .error .function

/-- The instruction of a scalar word (R26-R28), or why it is none. -/
def decode32 (w : BitVec 32) : Except Reject Instr :=
  let d := f1Of w
  let a := f2Of w
  let imm := immOf w
  match (opOf w).toNat with
  | 0x00 => decodeAlu w
  | 0x01 => .ok (.addi d a imm)
  | 0x02 => .ok (.andi d a imm)
  | 0x03 => .ok (.ori d a imm)
  | 0x04 => .ok (.xori d a imm)
  | 0x05 => .ok (.slti d a imm)
  | 0x06 => decodeShi w
  | 0x07 => need (a == 0) (.lhi d imm)
  | 0x08 => need (a == 0) (.addpc d imm)
  | 0x09 => .ok (.ld d a imm)
  | 0x0A => .ok (.lw d a imm)
  | 0x0B => .ok (.lwu d a imm)
  | 0x0C => .ok (.lh d a imm)
  | 0x0D => .ok (.lhu d a imm)
  | 0x0E => .ok (.lb d a imm)
  | 0x0F => .ok (.lbu d a imm)
  | 0x10 => .ok (.sd d a imm)
  | 0x11 => .ok (.sw d a imm)
  | 0x12 => .ok (.sh d a imm)
  | 0x13 => .ok (.sb d a imm)
  | 0x14 => .ok (.beq d a imm)
  | 0x15 => .ok (.bne d a imm)
  | 0x16 => .ok (.blt d a imm)
  | 0x17 => .ok (.bge d a imm)
  | 0x18 => .ok (.bltu d a imm)
  | 0x19 => .ok (.bgeu d a imm)
  | 0x1A => .ok (.jal d (offOf w))
  | 0x1B => .ok (.jalr d a imm)
  | 0x1C => decodeAmo w
  | 0x1D => decodeFence w
  | 0x1E => need (d == 0) (.vblk (offOf w))
  | 0x1F => need (d == 0) (.vblkr a imm)
  | 0x20 => need (fnOf w == 0) (.setlen d a (f3Of w))
  | 0x21 => .ok (.setleni d a imm)
  | 0x22 => decodeCsr w
  | 0x23 => decodeSys w
  | 0x24 => decodeHart w
  | _ => .error .opcode

/-! ### Vector words -/

/-- Bits `lo` to `lo + len - 1` of a vector word. -/
def vfield (w : Word) (lo len : Nat) : BitVec len := w.extractLsb' lo len

/-- VOP (R32). -/
def vopOf (w : Word) : BitVec 8 := vfield w 56 8
/-- The C bit (R32). -/
def cOf (w : Word) : Bool := w.getLsbD 55
/-- PM enable (R32). -/
def peOf (w : Word) : Bool := w.getLsbD 54
/-- The PM mask (R32). -/
def pmOf (w : Word) : BitVec 3 := vfield w 51 3
/-- D (R32). -/
def dOf (w : Word) : BitVec 5 := vfield w 46 5
/-- A (R32). -/
def aOf (w : Word) : BitVec 5 := vfield w 41 5
/-- B (R32). -/
def bOf (w : Word) : BitVec 5 := vfield w 36 5
/-- X (R32). -/
def xOf (w : Word) : BitVec 5 := vfield w 31 5
/-- F (R32). -/
def fOf (w : Word) : BitVec 5 := vfield w 26 5
/-- S (R32). -/
def sOf (w : Word) : BitVec 5 := vfield w 21 5
/-- FN (R32). -/
def vfnOf (w : Word) : BitVec 21 := vfield w 0 21
/-- FN[15:0], the byte offset of the memory sub-format (R33). -/
def voffOf (w : Word) : BitVec 16 := vfield w 0 16

/-- The predicate fields are legal for an instruction that may be predicated (R32). -/
def hdrOk (w : Word) : Bool := peOf w || pmOf w == 0
/-- C and the predicate (R32). -/
def hdrOf (w : Word) : VHdr := { c := cOf w, pm := if peOf w then some (pmOf w) else none }
/-- The predicate fields are zero, as an instruction without a predicate needs (R32). -/
def noPm (w : Word) : Bool := !peOf w && pmOf w == 0
/-- A register field that names a mask, a tile or a frame has its upper bits zero (06_varith R138). -/
def lowOk (n : Nat) (r : BitVec 5) : Bool := r.toNat < n
/-- The mask or tile a field names. -/
def low3 (r : BitVec 5) : BitVec 3 := r.extractLsb' 0 3

/-- Operand b of the arithmetic sub-format is legal: B is 0 in a scalar form, S is 0 in a vector form (R33). -/
def srcOk (w : Word) : Bool := if w.getLsbD 0 then bOf w == 0 else sOf w == 0
/-- Operand b of the arithmetic sub-format (R33). -/
def srcOf (w : Word) : VSrc := if w.getLsbD 0 then .scal (sOf w) else .vec (bOf w)
/-- FN[4:1] of the arithmetic sub-format (R33). -/
def varOf (w : Word) : Nat := (vfield w 1 4).toNat
/-- FN[20:5] of the arithmetic sub-format is 0 (06_varith R138). -/
def fnHiOk (w : Word) : Bool := vfield w 5 16 == 0
/-- FN is 0. -/
def fnZero (w : Word) : Bool := vfnOf w == 0
/-- FN[20:16] of the memory sub-format is 0 (08_memory R178). -/
def memFnOk (w : Word) : Bool := vfield w 16 5 == 0

/-- Two-operand arithmetic (06_varith R138). -/
def decBin (w : Word) (k : VHdr → BitVec 5 → BitVec 5 → VSrc → BitVec 5 → Instr) : Except Reject Instr :=
  need (hdrOk w && srcOk w && fnHiOk w && xOf w == 0) (k (hdrOf w) (dOf w) (aOf w) (srcOf w) (fOf w))
/-- Two-operand arithmetic without a variant (06_varith R138). -/
def decBin0 (w : Word) (k : VHdr → BitVec 5 → BitVec 5 → VSrc → BitVec 5 → Instr) : Except Reject Instr :=
  if varOf w = 0 then decBin w k else .error .function
/-- Fused arithmetic (06_varith R138). -/
def decFma (w : Word) (k : VHdr → BitVec 5 → BitVec 5 → VSrc → BitVec 5 → BitVec 5 → Instr) : Except Reject Instr :=
  if varOf w = 0 then
    need (hdrOk w && srcOk w && fnHiOk w) (k (hdrOf w) (dOf w) (aOf w) (srcOf w) (xOf w) (fOf w))
  else .error .function
/-- One-operand arithmetic (06_varith R138). -/
def decUn (w : Word) (k : VHdr → BitVec 5 → BitVec 5 → BitVec 5 → Instr) : Except Reject Instr :=
  need (hdrOk w && bOf w == 0 && xOf w == 0 && sOf w == 0 && fnZero w) (k (hdrOf w) (dOf w) (aOf w) (fOf w))
/-- VSPLAT and VINDEX (06_varith R138). -/
def decSplat (w : Word) (k : VHdr → BitVec 5 → BitVec 5 → BitVec 5 → Instr) : Except Reject Instr :=
  need (hdrOk w && aOf w == 0 && bOf w == 0 && xOf w == 0 && fnZero w) (k (hdrOf w) (dOf w) (sOf w) (fOf w))
/-- The mask instructions of two sources (06_varith R138); F must be 0 (R131). -/
def decMask (w : Word) (k : VHdr → BitVec 3 → BitVec 3 → BitVec 3 → Instr) : Except Reject Instr :=
  need (hdrOk w && lowOk 8 (dOf w) && lowOk 8 (aOf w) && lowOk 8 (bOf w) && xOf w == 0 && fOf w == 0 && sOf w == 0
    && fnZero w) (k (hdrOf w) (low3 (dOf w)) (low3 (aOf w)) (low3 (bOf w)))
/-- MPOP and MFIRST (06_varith R138). -/
def decMpop (w : Word) (k : VHdr → BitVec 5 → BitVec 3 → Instr) : Except Reject Instr :=
  need (hdrOk w && lowOk 8 (aOf w) && bOf w == 0 && xOf w == 0 && fOf w == 0 && sOf w == 0 && fnZero w)
    (k (hdrOf w) (dOf w) (low3 (aOf w)))
/-- MSET (06_varith R138). -/
def decMset (w : Word) (k : VHdr → BitVec 3 → BitVec 5 → Instr) : Except Reject Instr :=
  need (hdrOk w && lowOk 8 (dOf w) && aOf w == 0 && bOf w == 0 && xOf w == 0 && fOf w == 0 && fnHiOk w
    && !w.getLsbD 0) (k (hdrOf w) (low3 (dOf w)) (sOf w))
/-- VCMP conditions (06_varith R147). -/
def condOf (n : Nat) : Option VCond :=
  match n with
  | 0 => some .eq
  | 1 => some .ne
  | 2 => some .lt
  | 3 => some .le
  | 4 => some .gt
  | 5 => some .ge
  | 6 => some .un
  | 7 => some .ord
  | _ => none
/-- The code of a condition (06_varith R147). -/
def VCond.code : VCond → BitVec 4
  | .eq => 0
  | .ne => 1
  | .lt => 2
  | .le => 3
  | .gt => 4
  | .ge => 5
  | .un => 6
  | .ord => 7
/-- VCMP (06_varith R138, R147). -/
def decVcmp (w : Word) : Except Reject Instr :=
  match condOf (varOf w) with
  | some cc => need (hdrOk w && srcOk w && fnHiOk w && xOf w == 0 && lowOk 8 (dOf w))
      (.vcmp (hdrOf w) cc (low3 (dOf w)) (aOf w) (srcOf w) (fOf w))
  | none => .error .function
/-- VRED (06_varith R138, R150). -/
def decVred (w : Word) : Except Reject Instr :=
  let h := hdrOf w
  let d := dOf w
  let a := aOf w
  let f := fOf w
  let init := if w.getLsbD 0 then some (sOf w) else none
  let z := hdrOk w && fnHiOk w && bOf w == 0 && xOf w == 0 && (w.getLsbD 0 || sOf w == 0)
  match varOf w with
  | 0 => need z (.vredSumo h d a init f)
  | 1 => need z (.vredSump h d a init f)
  | 2 => need z (.vredMax h d a init f)
  | 3 => need z (.vredMin h d a init f)
  | 4 => need z (.vredAnd h d a init f)
  | 5 => need z (.vredOr h d a init f)
  | 6 => need z (.vredXor h d a init f)
  | _ => .error .function
/-- VPACK and VUNPK (07_rearrange R153). -/
def decPack (w : Word) (k : Bool → BitVec 5 → BitVec 5 → BitVec 3 → BitVec 5 → Instr) : Except Reject Instr :=
  need (noPm w && bOf w == 0 && lowOk 8 (xOf w) && sOf w == 0 && fnZero w)
    (k (cOf w) (dOf w) (aOf w) (low3 (xOf w)) (fOf w))
/-- VUP and VDN (07_rearrange R153). -/
def decSlide (w : Word) (k : VHdr → BitVec 5 → BitVec 5 → BitVec 5 → BitVec 5 → Instr) : Except Reject Instr :=
  need (hdrOk w && bOf w == 0 && xOf w == 0 && fnZero w) (k (hdrOf w) (dOf w) (aOf w) (sOf w) (fOf w))
/-- VRESH (07_rearrange R153). -/
def decVresh (w : Word) : Except Reject Instr :=
  let z := noPm w && bOf w == 0 && xOf w == 0 && fnHiOk w && !w.getLsbD 0
  match varOf w with
  | 0 => need z (.vresh (cOf w) (dOf w) (aOf w) (sOf w) (fOf w))
  | 1 => need z (.vreshT (cOf w) (dOf w) (aOf w) (sOf w) (fOf w))
  | 2 => need z (.vreshInv (cOf w) (dOf w) (aOf w) (sOf w) (fOf w))
  | _ => .error .function
/-- VLD, VLDS and VLDX (08_memory R178): the plain form, or with FN[19] the .K form (12_engines R285), which
must be predicated. `kf` is the address form, `z` the fields that must be 0. -/
def decLoad (w : Word) (z : Bool) (kf : KForm) (i : Instr) : Except Reject Instr :=
  if w.getLsbD 19 then
    need (z && !w.getLsbD 20 && vfield w 16 3 == 0 && peOf w)
      (.vldK (cOf w) (pmOf w) kf (dOf w) (sOf w) (fOf w) (voffOf w))
  else need (z && !w.getLsbD 20 && vfield w 16 3 == 0 && hdrOk w) i
/-- VLD and VLD.C (08_memory R178, 13_collective R295). -/
def decVld (w : Word) : Except Reject Instr :=
  let z := aOf w == 0 && bOf w == 0 && xOf w == 0
  if w.getLsbD 20 then
    need (z && !w.getLsbD 19 && vfield w 16 3 == 0 && noPm w) (.vldC (cOf w) (dOf w) (sOf w) (fOf w) (voffOf w))
  else decLoad w z .unit (.vld (hdrOf w) (dOf w) (sOf w) (fOf w) (voffOf w))
/-- VST and VST.C (08_memory R178, 13_collective R295). -/
def decVst (w : Word) : Except Reject Instr :=
  let z := bOf w == 0 && xOf w == 0 && vfield w 16 4 == 0
  if w.getLsbD 20 then need (z && noPm w) (.vstC (cOf w) (dOf w) (aOf w) (sOf w) (fOf w) (voffOf w))
  else need (z && hdrOk w && dOf w == 0) (.vst (hdrOf w) (aOf w) (sOf w) (fOf w) (voffOf w))
/-- VSTS, VSTX and VSTXO (08_memory R178). -/
def decVsts (w : Word) (k : VHdr → BitVec 5 → BitVec 5 → BitVec 5 → BitVec 5 → BitVec 16 → Instr) :
    Except Reject Instr :=
  need (hdrOk w && dOf w == 0 && xOf w == 0 && memFnOk w)
    (k (hdrOf w) (aOf w) (sOf w) (bOf w) (fOf w) (voffOf w))
/-- VAMO (09_order R215). -/
def decVamo (w : Word) : Except Reject Instr :=
  let h := hdrOf w
  let d := dOf w
  let a := aOf w
  let b := bOf w
  let s := sOf w
  let f := fOf w
  let o := voffOf w
  let z := hdrOk w && vfield w 19 2 == 0
  let zx := z && xOf w == 0
  match (vfield w 16 3).toNat with
  | 0 => need zx (.vamoAdd h d a b s f o)
  | 1 => need zx (.vamoSwap h d a b s f o)
  | 2 => need z (.vamoCas h d a b (xOf w) s f o)
  | 3 => need zx (.vamoAnd h d a b s f o)
  | 4 => need zx (.vamoOr h d a b s f o)
  | 5 => need zx (.vamoMax h d a b s f o)
  | 6 => need zx (.vamoMin h d a b s f o)
  | _ => .error .function
/-- VSTP and VSTR (09_order R218, 13_collective R300). -/
def decVstp (w : Word) (k : VHdr → BitVec 5 → BitVec 3 → BitVec 5 → BitVec 5 → BitVec 5 → BitVec 16 → Instr) :
    Except Reject Instr :=
  need (hdrOk w && dOf w == 0 && lowOk 8 (xOf w) && memFnOk w)
    (k (hdrOf w) (aOf w) (low3 (xOf w)) (sOf w) (bOf w) (fOf w) (voffOf w))
/-- VLDW and VLDW.M (08_memory R178, R187). -/
def decVldw (w : Word) : Except Reject Instr :=
  let z := noPm w && aOf w == 0 && bOf w == 0 && xOf w == 0 && fOf w == 0 && vfield w 17 4 == 0
  if w.getLsbD 16 then need (z && lowOk 8 (dOf w)) (.vldwM (cOf w) (low3 (dOf w)) (sOf w) (voffOf w))
  else need z (.vldw (cOf w) (dOf w) (sOf w) (voffOf w))
/-- VSTW and VSTW.M (08_memory R178, R187). -/
def decVstw (w : Word) : Except Reject Instr :=
  let z := noPm w && dOf w == 0 && bOf w == 0 && xOf w == 0 && fOf w == 0 && vfield w 17 4 == 0
  if w.getLsbD 16 then need (z && lowOk 8 (aOf w)) (.vstwM (cOf w) (low3 (aOf w)) (sOf w) (voffOf w))
  else need z (.vstw (cOf w) (aOf w) (sOf w) (voffOf w))
/-- The run count of a plural instruction (08_memory R193). -/
def runOf (w : Word) : Option (BitVec 5) := if w.getLsbD 4 then some (sOf w) else none
/-- The fields of a plural instruction that must be 0 whatever its operation: PM, FN[20:7], and S without the
run form (08_memory R193). -/
def pluralOk (w : Word) : Bool := noPm w && vfield w 7 14 == 0 && (w.getLsbD 4 || sOf w == 0)
/-- PST (08_memory R193). -/
def decPst (w : Word) : Except Reject Instr :=
  need (pluralOk w && dOf w == 0 && vfield w 0 4 == 0 && !w.getLsbD 5)
    (.pst (cOf w) (aOf w) (bOf w) (xOf w) (fOf w) (runOf w) (w.getLsbD 6))
/-- POP (08_memory R193). -/
def decPop (w : Word) : Except Reject Instr :=
  let c := cOf w
  let a := aOf w
  let b := bOf w
  let x := xOf w
  let f := fOf w
  let r := runOf w
  let row := w.getLsbD 5
  let ww := w.getLsbD 6
  let z := pluralOk w && dOf w == 0
  match (vfield w 0 4).toNat with
  | 0 => need z (.popAdd c a b x f r row ww)
  | 1 => need z (.popSub c a b x f r row ww)
  | 2 => need z (.popMin c a b x f r row ww)
  | 3 => need z (.popMax c a b x f r row ww)
  | 4 => need z (.popAnd c a b x f r row ww)
  | 5 => need z (.popOr c a b x f r row ww)
  | 6 => need z (.popXor c a b x f r row ww)
  | 7 => need z (.popMov c a b x f r row ww)
  | _ => .error .function
/-- PLD (08_memory R193). -/
def decPld (w : Word) : Except Reject Instr :=
  let c := cOf w
  let d := dOf w
  let a := aOf w
  let x := xOf w
  let f := fOf w
  let r := runOf w
  let ww := w.getLsbD 6
  let z := pluralOk w && bOf w == 0 && !w.getLsbD 5
  match (vfield w 0 4).toNat with
  | 0 => need z (.pldSum c d a x f r ww)
  | 1 => need z (.pldMax c d a x f r ww)
  | 2 => need z (.pldMin c d a x f r ww)
  | 3 => need z (.pldAnd c d a x f r ww)
  | 4 => need z (.pldOr c d a x f r ww)
  | 5 => need z (.pldXor c d a x f r ww)
  | 6 => need z (.pldCnt c d a x f r ww)
  | _ => .error .function
/-- C and PM are 0, as a comb word needs (10_comb R225). -/
def combOk (w : Word) : Bool := !cOf w && noPm w
/-- CGET and CGETC (10_comb R226, R233). -/
def decCget (w : Word)
    (k : BitVec 5 → BitVec 3 → BitVec 5 → BitVec 5 → BitVec 5 → BitVec 5 → BitVec 5 → BitVec 5 → Instr) :
    Except Reject Instr :=
  need (combOk w && lowOk 8 (aOf w) && bOf w == 0 && xOf w == 0 && !w.getLsbD 20)
    (k (dOf w) (low3 (aOf w)) (sOf w) (fOf w) (vfield w 10 5) (vfield w 15 5) (vfield w 0 5) (vfield w 5 5))
/-- ROUTE, RRET, FWAIT and the others: F and FN are 0 (11_route R248). -/
def routeOk (w : Word) : Bool := fOf w == 0 && fnZero w
/-- The frame number in FN[1:0] (11_route R248). -/
def frameOk (w : Word) : Bool := fOf w == 0 && vfield w 2 19 == 0
/-- ENQ (12_engines R265). -/
def decEnq (w : Word) : Except Reject Instr :=
  let z := hdrOk w && lowOk 8 (dOf w) && bOf w == 0 && fOf w == 0 && sOf w == 0 && vfield w 2 19 == 0
  match (vfield w 0 2).toNat with
  | 0 => need z (.enqStk (hdrOf w) (low3 (dOf w)) (xOf w) (aOf w))
  | 1 => need z (.enqCpy (hdrOf w) (low3 (dOf w)) (xOf w) (aOf w))
  | _ => .error .function

/-- The instruction of a vector block word (R32-R36), or why it is none. -/
def decode64 (w : Word) : Except Reject Instr :=
  match (vopOf w).toNat with
  | 0x00 => need (vfield w 0 56 == 0) .vstop
  | 0x01 => need (vfield w 0 55 == 0) (.vnop (cOf w))
  | 0x10 => decBin0 w .vadd
  | 0x11 => decBin0 w .vsub
  | 0x12 => decBin0 w .vmul
  | 0x13 => decFma w .vfma
  | 0x14 => decFma w .vfms
  | 0x15 => decFma w .vfnma
  | 0x16 => decBin0 w .vdiv
  | 0x17 => decUn w .vsqrt
  | 0x18 => decBin0 w .vmin
  | 0x19 => decBin0 w .vmax
  | 0x1A => decUn w .vabs
  | 0x1B => decUn w .vneg
  | 0x1C =>
    if varOf w ≠ 0 then .error .function
    else if w.getLsbD 0 then
      need (hdrOk w && bOf w == 0 && xOf w == 0 && fnHiOk w)
        (.vclamp (hdrOf w) (dOf w) (aOf w) (.scal (sOf w)) (fOf w))
    else need (hdrOk w && sOf w == 0 && fnHiOk w)
        (.vclamp (hdrOf w) (dOf w) (aOf w) (.vec (bOf w) (xOf w)) (fOf w))
  | 0x1D => decBin0 w .vand
  | 0x1E => decBin0 w .vor
  | 0x1F => decBin0 w .vxor
  | 0x20 => decBin0 w .vshl
  | 0x21 =>
    match varOf w with
    | 0 => decBin w .vshr
    | 1 => decBin w .vshrA
    | _ => .error .function
  | 0x22 => decUn w .vcvt
  | 0x23 => decUn w .vrcp
  | 0x24 => decUn w .vrsqrt
  | 0x25 => decUn w .vexp2
  | 0x26 => decUn w .vlog2
  | 0x27 =>
    if varOf w = 0 then
      need (hdrOk w && srcOk w && fnHiOk w && lowOk 8 (xOf w))
        (.vsel (hdrOf w) (dOf w) (aOf w) (srcOf w) (low3 (xOf w)) (fOf w))
    else .error .function
  | 0x28 => decUn w .vmov
  | 0x29 => decSplat w .vsplat
  | 0x2A => decSplat w .vindex
  | 0x2B => decVcmp w
  | 0x2C => decVred w
  | 0x30 => decMask w .mand
  | 0x31 => decMask w .mor
  | 0x32 => decMask w .mxor
  | 0x33 => decMask w .mandn
  | 0x34 =>
    need (hdrOk w && lowOk 8 (dOf w) && lowOk 8 (aOf w) && bOf w == 0 && xOf w == 0 && fOf w == 0 && sOf w == 0
      && fnZero w) (.mnot (hdrOf w) (low3 (dOf w)) (low3 (aOf w)))
  | 0x35 => decMpop w .mpop
  | 0x36 => decMpop w .mfirst
  | 0x37 =>
    match varOf w with
    | 0 => decMset w .msetLt
    | 1 => decMset w .msetGe
    | _ => .error .function
  | 0x38 =>
    need (hdrOk w && bOf w == 0 && sOf w == 0 && fnZero w) (.vqnt (hdrOf w) (dOf w) (xOf w) (aOf w) (fOf w))
  | 0x39 =>
    need (hdrOk w && bOf w == 0 && sOf w == 0 && fnZero w) (.vdqnt (hdrOf w) (dOf w) (aOf w) (xOf w) (fOf w))
  | 0x40 => decSlide w .vup
  | 0x41 => decSlide w .vdn
  | 0x42 =>
    need (hdrOk w && xOf w == 0 && sOf w == 0 && fnZero w) (.vgathr (hdrOf w) (dOf w) (aOf w) (bOf w) (fOf w))
  | 0x43 => decPack w .vpack
  | 0x44 => decPack w .vunpk
  | 0x45 => decVresh w
  | 0x46 =>
    need (noPm w && bOf w == 0 && xOf w == 0 && sOf w == 0 && fnZero w) (.vgtr (cOf w) (dOf w) (aOf w) (fOf w))
  | 0x50 => decVld w
  | 0x51 =>
    decLoad w (aOf w == 0 && xOf w == 0) (.strided (bOf w))
      (.vlds (hdrOf w) (dOf w) (sOf w) (bOf w) (fOf w) (voffOf w))
  | 0x52 =>
    decLoad w (aOf w == 0 && xOf w == 0) (.indexed (bOf w))
      (.vldx (hdrOf w) (dOf w) (sOf w) (bOf w) (fOf w) (voffOf w))
  | 0x53 =>
    need (hdrOk w && lowOk 8 (dOf w) && aOf w == 0 && bOf w == 0 && memFnOk w)
      (.vldff (hdrOf w) (xOf w) (low3 (dOf w)) (sOf w) (fOf w) (voffOf w))
  | 0x54 => decVst w
  | 0x55 => decVsts w .vsts
  | 0x56 => decVsts w .vstx
  | 0x57 => decVsts w .vstxo
  | 0x58 => decVamo w
  | 0x59 =>
    need (hdrOk w && aOf w == 0 && lowOk 8 (xOf w) && memFnOk w)
      (.vldp (hdrOf w) (dOf w) (low3 (xOf w)) (sOf w) (bOf w) (fOf w) (voffOf w))
  | 0x5A => decVstp w .vstp
  | 0x5B => decVstp w .vstr
  | 0x5C => decVldw w
  | 0x5D => decVstw w
  | 0x60 => decPst w
  | 0x61 => decPop w
  | 0x62 => decPld w
  | 0x68 =>
    need (hdrOk w && bOf w == 0 && lowOk 8 (xOf w) && fOf w == 0 && fnZero w)
      (.vwait (hdrOf w) (low3 (xOf w)) (dOf w) (aOf w) (sOf w))
  | 0x70 =>
    need (combOk w && lowOk 8 (dOf w) && sOf w == 0 && vfield w 10 11 == 0)
      (.ctri (low3 (dOf w)) (aOf w) (bOf w) (xOf w) (fOf w) (vfield w 0 5) (vfield w 5 5))
  | 0x71 => need (lowOk 8 (dOf w) && vfield w 0 46 == 0 && combOk w) (.czero (low3 (dOf w)))
  | 0x72 => decCget w .cget
  | 0x73 => decCget w .cgetc
  | 0x74 =>
    need (combOk w && lowOk 8 (dOf w) && bOf w == 0 && xOf w == 0 && !w.getLsbD 20)
      (.cput (low3 (dOf w)) (aOf w) (sOf w) (fOf w) (vfield w 10 5) (vfield w 15 5) (vfield w 0 5) (vfield w 5 5))
  | 0x75 =>
    need (combOk w && dOf w == 0 && aOf w == 0 && bOf w == 0 && xOf w == 0 && fOf w == 0 && fnZero w) (.cshp (sOf w))
  | 0x76 =>
    need (combOk w && dOf w == 0 && lowOk 8 (aOf w) && bOf w == 0 && xOf w == 0 && fOf w == 0 && memFnOk w)
      (.tsave (low3 (aOf w)) (sOf w) (voffOf w))
  | 0x77 =>
    need (combOk w && lowOk 8 (dOf w) && aOf w == 0 && bOf w == 0 && xOf w == 0 && fOf w == 0 && memFnOk w)
      (.tload (low3 (dOf w)) (sOf w) (voffOf w))
  | 0x78 =>
    need (hdrOk w && lowOk 4 (dOf w) && routeOk w)
      (.route (hdrOf w) ((dOf w).extractLsb' 0 2) (aOf w) (bOf w) (xOf w) (sOf w))
  | 0x79 => need (noPm w && bOf w == 0 && routeOk w) (.rrecv (cOf w) (dOf w) (xOf w) (aOf w) (sOf w))
  | 0x7A => need (hdrOk w && dOf w == 0 && bOf w == 0 && sOf w == 0 && routeOk w) (.rret (hdrOf w) (aOf w) (xOf w))
  | 0x7B =>
    need (noPm w && aOf w == 0 && bOf w == 0 && xOf w == 0 && sOf w == 0 && frameOk w)
      (.fwait (cOf w) (dOf w) (vfield w 0 2))
  | 0x7C =>
    need (noPm w && aOf w == 0 && bOf w == 0 && sOf w == 0 && frameOk w)
      (.fread (cOf w) (dOf w) (xOf w) (vfield w 0 2))
  | 0x7D =>
    need (noPm w && dOf w == 0 && bOf w == 0 && xOf w == 0 && routeOk w) (.rtset (cOf w) (aOf w) (sOf w))
  | 0x80 => decEnq w
  | 0x81 =>
    need (noPm w && dOf w == 0 && aOf w == 0 && bOf w == 0 && xOf w == 0 && frameOk w)
      (.cwpw (cOf w) (vfield w 0 2) (sOf w))
  | _ => .error .opcode

/-! ### The encoder -/

/-- A word of format A (R26). -/
def fmtA (op : BitVec 6) (d a b : BitVec 5) (fn : BitVec 11) : BitVec 32 := op ++ d ++ a ++ b ++ fn
/-- A word of format I or B (R26). -/
def fmtI (op : BitVec 6) (d a : BitVec 5) (imm : BitVec 16) : BitVec 32 := op ++ d ++ a ++ imm
/-- A word of format J (R26). -/
def fmtJ (op : BitVec 6) (d : BitVec 5) (off : BitVec 21) : BitVec 32 := op ++ d ++ off
/-- A word of format C (R26). -/
def fmtC (d a : BitVec 5) (csr : BitVec 12) (fn : BitVec 4) : BitVec 32 := (0x22 : BitVec 6) ++ d ++ a ++ csr ++ fn
/-- fn of an AMO (R27). -/
def amoFn (op : BitVec 3) (l acq rel : Bool) (sc : Scope) : BitVec 11 :=
  (0 : BitVec 2) ++ sc.code ++ BitVec.ofBool rel ++ BitVec.ofBool acq ++ BitVec.ofBool l ++ op
/-- fn of a FENCE (R27). -/
def fenceFn (dir : BitVec 2) (sc : Scope) : BitVec 11 := (0 : BitVec 6) ++ sc.code ++ dir
/-- d of a TLBINV (14_system R319). -/
def tlbD (kind : BitVec 2) (sc : Scope) : BitVec 5 := kind ++ sc.code

/-- A vector word (R32). -/
def fmtV (vop : BitVec 8) (c : Bool) (pm : Option (BitVec 3)) (d a b x f s : BitVec 5) (fn : BitVec 21) : Word :=
  vop ++ BitVec.ofBool c ++ BitVec.ofBool pm.isSome ++ pm.getD 0 ++ d ++ a ++ b ++ x ++ f ++ s ++ fn
/-- A field that names a mask or a tile. -/
def wide3 (m : BitVec 3) : BitVec 5 := m.setWidth 5
/-- FN of the arithmetic sub-format (R33). -/
def arithFn (v : BitVec 4) (sb : Bool) : BitVec 21 := (0 : BitVec 16) ++ v ++ BitVec.ofBool sb
/-- FN of the memory sub-format (R33). -/
def memFn (hi : BitVec 5) (off : BitVec 16) : BitVec 21 := hi ++ off
/-- FN of a plural instruction (08_memory R193). -/
def pluralFn (op : BitVec 4) (run : Option (BitVec 5)) (row w : Bool) : BitVec 21 :=
  (0 : BitVec 14) ++ BitVec.ofBool w ++ BitVec.ofBool row ++ BitVec.ofBool run.isSome ++ op
/-- FN of a tile window (10_comb R233). -/
def winFn (i0 nr j0 nc : BitVec 5) : BitVec 21 := (0 : BitVec 1) ++ nr ++ i0 ++ nc ++ j0

/-- Two-operand arithmetic. -/
def encBin (vop : BitVec 8) (v : BitVec 4) (h : VHdr) (d a : BitVec 5) (b : VSrc) (x f : BitVec 5) : Word :=
  match b with
  | .vec r => fmtV vop h.c h.pm d a r x f 0 (arithFn v false)
  | .scal s => fmtV vop h.c h.pm d a 0 x f s (arithFn v true)
/-- One-operand arithmetic. -/
def encUn (vop : BitVec 8) (h : VHdr) (d a f : BitVec 5) : Word := fmtV vop h.c h.pm d a 0 0 f 0 0
/-- A reduction. -/
def encRed (v : BitVec 4) (h : VHdr) (d a : BitVec 5) (init : Option (BitVec 5)) (f : BitVec 5) : Word :=
  fmtV 0x2C h.c h.pm d a 0 0 f (init.getD 0) (arithFn v init.isSome)
/-- A plural word. -/
def encPlural (vop : BitVec 8) (op : BitVec 4) (c : Bool) (d a b x f : BitVec 5) (run : Option (BitVec 5))
    (row w : Bool) : Word :=
  fmtV vop c none d a b x f (run.getD 0) (pluralFn op run row w)
/-- A .K load. -/
def encK (c : Bool) (pm : BitVec 3) (k : KForm) (d s f : BitVec 5) (off : BitVec 16) : Word :=
  match k with
  | .unit => fmtV 0x50 c (some pm) d 0 0 0 f s (memFn 8 off)
  | .strided b => fmtV 0x51 c (some pm) d 0 b 0 f s (memFn 8 off)
  | .indexed b => fmtV 0x52 c (some pm) d 0 b 0 f s (memFn 8 off)

/-- The word of a scalar instruction; none for the others. -/
def encode32 : Instr → Option (BitVec 32)
  | .add d a b => some (fmtA 0x00 d a b 0)
  | .sub d a b => some (fmtA 0x00 d a b 1)
  | .and d a b => some (fmtA 0x00 d a b 2)
  | .or d a b => some (fmtA 0x00 d a b 3)
  | .xor d a b => some (fmtA 0x00 d a b 4)
  | .shl d a b => some (fmtA 0x00 d a b 5)
  | .shr d a b => some (fmtA 0x00 d a b 6)
  | .sar d a b => some (fmtA 0x00 d a b 7)
  | .slt d a b => some (fmtA 0x00 d a b 8)
  | .sltu d a b => some (fmtA 0x00 d a b 9)
  | .mul d a b => some (fmtA 0x00 d a b 10)
  | .mulh d a b => some (fmtA 0x00 d a b 11)
  | .div d a b => some (fmtA 0x00 d a b 12)
  | .divu d a b => some (fmtA 0x00 d a b 13)
  | .rem d a b => some (fmtA 0x00 d a b 14)
  | .min d a b => some (fmtA 0x00 d a b 15)
  | .max d a b => some (fmtA 0x00 d a b 16)
  | .addi d a imm => some (fmtI 0x01 d a imm)
  | .andi d a imm => some (fmtI 0x02 d a imm)
  | .ori d a imm => some (fmtI 0x03 d a imm)
  | .xori d a imm => some (fmtI 0x04 d a imm)
  | .slti d a imm => some (fmtI 0x05 d a imm)
  | .shli d a n => some (fmtI 0x06 d a ((0 : BitVec 8) ++ (0 : BitVec 2) ++ n))
  | .shri d a n => some (fmtI 0x06 d a ((0 : BitVec 8) ++ (1 : BitVec 2) ++ n))
  | .sari d a n => some (fmtI 0x06 d a ((0 : BitVec 8) ++ (2 : BitVec 2) ++ n))
  | .lhi d imm => some (fmtI 0x07 d 0 imm)
  | .addpc d imm => some (fmtI 0x08 d 0 imm)
  | .ld d a imm => some (fmtI 0x09 d a imm)
  | .lw d a imm => some (fmtI 0x0A d a imm)
  | .lwu d a imm => some (fmtI 0x0B d a imm)
  | .lh d a imm => some (fmtI 0x0C d a imm)
  | .lhu d a imm => some (fmtI 0x0D d a imm)
  | .lb d a imm => some (fmtI 0x0E d a imm)
  | .lbu d a imm => some (fmtI 0x0F d a imm)
  | .sd d a imm => some (fmtI 0x10 d a imm)
  | .sw d a imm => some (fmtI 0x11 d a imm)
  | .sh d a imm => some (fmtI 0x12 d a imm)
  | .sb d a imm => some (fmtI 0x13 d a imm)
  | .beq a b off => some (fmtI 0x14 a b off)
  | .bne a b off => some (fmtI 0x15 a b off)
  | .blt a b off => some (fmtI 0x16 a b off)
  | .bge a b off => some (fmtI 0x17 a b off)
  | .bltu a b off => some (fmtI 0x18 a b off)
  | .bgeu a b off => some (fmtI 0x19 a b off)
  | .jal d off => some (fmtJ 0x1A d off)
  | .jalr d a imm => some (fmtI 0x1B d a imm)
  | .amoAdd d a b l acq rel sc => some (fmtA 0x1C d a b (amoFn 0 l acq rel sc))
  | .amoSwap d a b l acq rel sc => some (fmtA 0x1C d a b (amoFn 1 l acq rel sc))
  | .amoCas d a b l acq rel sc => some (fmtA 0x1C d a b (amoFn 2 l acq rel sc))
  | .amoAnd d a b l acq rel sc => some (fmtA 0x1C d a b (amoFn 3 l acq rel sc))
  | .amoOr d a b l acq rel sc => some (fmtA 0x1C d a b (amoFn 4 l acq rel sc))
  | .amoMax d a b l acq rel sc => some (fmtA 0x1C d a b (amoFn 5 l acq rel sc))
  | .amoMin d a b l acq rel sc => some (fmtA 0x1C d a b (amoFn 6 l acq rel sc))
  | .fenceSv sc => some (fmtA 0x1D 0 0 0 (fenceFn 0 sc))
  | .fenceVs sc => some (fmtA 0x1D 0 0 0 (fenceFn 1 sc))
  | .fenceVv sc => some (fmtA 0x1D 0 0 0 (fenceFn 2 sc))
  | .fenceAll sc => some (fmtA 0x1D 0 0 0 (fenceFn 3 sc))
  | .vblk off => some (fmtJ 0x1E 0 off)
  | .vblkr a imm => some (fmtI 0x1F 0 a imm)
  | .setlen d a b => some (fmtA 0x20 d a b 0)
  | .setleni d a imm => some (fmtI 0x21 d a imm)
  | .csrr d a csr => some (fmtC d a csr 0)
  | .csrw d a csr => some (fmtC d a csr 1)
  | .csrs d a csr => some (fmtC d a csr 2)
  | .csrc d a csr => some (fmtC d a csr 3)
  | .svc => some (fmtA 0x23 0 0 0 0)
  | .tret => some (fmtA 0x23 0 0 0 1)
  | .vret => some (fmtA 0x23 0 0 0 2)
  | .brk => some (fmtA 0x23 0 0 0 3)
  | .iflush => some (fmtA 0x23 0 0 0 4)
  | .tlbinvPg sc a => some (fmtA 0x23 (tlbD 0 sc) a 0 5)
  | .tlbinvAll sc => some (fmtA 0x23 (tlbD 1 sc) 0 0 5)
  | .vqsave d a => some (fmtA 0x23 d a 0 6)
  | .vqload a b => some (fmtA 0x23 0 a b 7)
  | .cwb a b => some (fmtA 0x23 0 a b 8)
  | .cinv a b => some (fmtA 0x23 0 a b 9)
  | .hexit => some (fmtA 0x24 0 0 0 0)
  | .vdecl a => some (fmtA 0x24 0 a 0 1)
  | .farm d a => some (fmtA 0x24 d a 0 2)
  | .fnext d a => some (fmtA 0x24 d a 0 3)
  | .hbar => some (fmtA 0x24 0 0 0 4)
  | .cset d a b => some (fmtA 0x24 d a b 5)
  | .hlaunch d a => some (fmtA 0x24 d a 0 6)
  | _ => none

/-- The word of a vector, comb, route or engine instruction; none for the others. -/
def encode64 : Instr → Option Word
  | .vstop => some 0
  | .vnop c => some (fmtV 0x01 c none 0 0 0 0 0 0 0)
  | .vadd h d a b f => some (encBin 0x10 0 h d a b 0 f)
  | .vsub h d a b f => some (encBin 0x11 0 h d a b 0 f)
  | .vmul h d a b f => some (encBin 0x12 0 h d a b 0 f)
  | .vdiv h d a b f => some (encBin 0x16 0 h d a b 0 f)
  | .vmin h d a b f => some (encBin 0x18 0 h d a b 0 f)
  | .vmax h d a b f => some (encBin 0x19 0 h d a b 0 f)
  | .vand h d a b f => some (encBin 0x1D 0 h d a b 0 f)
  | .vor h d a b f => some (encBin 0x1E 0 h d a b 0 f)
  | .vxor h d a b f => some (encBin 0x1F 0 h d a b 0 f)
  | .vshl h d a b f => some (encBin 0x20 0 h d a b 0 f)
  | .vshr h d a b f => some (encBin 0x21 0 h d a b 0 f)
  | .vshrA h d a b f => some (encBin 0x21 1 h d a b 0 f)
  | .vfma h d a b x f => some (encBin 0x13 0 h d a b x f)
  | .vfms h d a b x f => some (encBin 0x14 0 h d a b x f)
  | .vfnma h d a b x f => some (encBin 0x15 0 h d a b x f)
  | .vsqrt h d a f => some (encUn 0x17 h d a f)
  | .vabs h d a f => some (encUn 0x1A h d a f)
  | .vneg h d a f => some (encUn 0x1B h d a f)
  | .vcvt h d a f => some (encUn 0x22 h d a f)
  | .vrcp h d a f => some (encUn 0x23 h d a f)
  | .vrsqrt h d a f => some (encUn 0x24 h d a f)
  | .vexp2 h d a f => some (encUn 0x25 h d a f)
  | .vlog2 h d a f => some (encUn 0x26 h d a f)
  | .vmov h d a f => some (encUn 0x28 h d a f)
  | .vclamp h d a (.vec b x) f => some (fmtV 0x1C h.c h.pm d a b x f 0 (arithFn 0 false))
  | .vclamp h d a (.scal s) f => some (fmtV 0x1C h.c h.pm d a 0 0 f s (arithFn 0 true))
  | .vsel h d a b m f => some (encBin 0x27 0 h d a b (wide3 m) f)
  | .vsplat h d s f => some (fmtV 0x29 h.c h.pm d 0 0 0 f s 0)
  | .vindex h d s f => some (fmtV 0x2A h.c h.pm d 0 0 0 f s 0)
  | .vcmp h cc d a b f => some (encBin 0x2B cc.code h (wide3 d) a b 0 f)
  | .vredSumo h d a init f => some (encRed 0 h d a init f)
  | .vredSump h d a init f => some (encRed 1 h d a init f)
  | .vredMax h d a init f => some (encRed 2 h d a init f)
  | .vredMin h d a init f => some (encRed 3 h d a init f)
  | .vredAnd h d a init f => some (encRed 4 h d a init f)
  | .vredOr h d a init f => some (encRed 5 h d a init f)
  | .vredXor h d a init f => some (encRed 6 h d a init f)
  | .mand h d a b => some (fmtV 0x30 h.c h.pm (wide3 d) (wide3 a) (wide3 b) 0 0 0 0)
  | .mor h d a b => some (fmtV 0x31 h.c h.pm (wide3 d) (wide3 a) (wide3 b) 0 0 0 0)
  | .mxor h d a b => some (fmtV 0x32 h.c h.pm (wide3 d) (wide3 a) (wide3 b) 0 0 0 0)
  | .mandn h d a b => some (fmtV 0x33 h.c h.pm (wide3 d) (wide3 a) (wide3 b) 0 0 0 0)
  | .mnot h d a => some (fmtV 0x34 h.c h.pm (wide3 d) (wide3 a) 0 0 0 0 0)
  | .mpop h d a => some (fmtV 0x35 h.c h.pm d (wide3 a) 0 0 0 0 0)
  | .mfirst h d a => some (fmtV 0x36 h.c h.pm d (wide3 a) 0 0 0 0 0)
  | .msetLt h d s => some (fmtV 0x37 h.c h.pm (wide3 d) 0 0 0 0 s (arithFn 0 false))
  | .msetGe h d s => some (fmtV 0x37 h.c h.pm (wide3 d) 0 0 0 0 s (arithFn 1 false))
  | .vqnt h d x a f => some (fmtV 0x38 h.c h.pm d a 0 x f 0 0)
  | .vdqnt h d a x f => some (fmtV 0x39 h.c h.pm d a 0 x f 0 0)
  | .vup h d a s f => some (fmtV 0x40 h.c h.pm d a 0 0 f s 0)
  | .vdn h d a s f => some (fmtV 0x41 h.c h.pm d a 0 0 f s 0)
  | .vgathr h d a b f => some (fmtV 0x42 h.c h.pm d a b 0 f 0 0)
  | .vpack c d a m f => some (fmtV 0x43 c none d a 0 (wide3 m) f 0 0)
  | .vunpk c d a m f => some (fmtV 0x44 c none d a 0 (wide3 m) f 0 0)
  | .vresh c d a s f => some (fmtV 0x45 c none d a 0 0 f s (arithFn 0 false))
  | .vreshT c d a s f => some (fmtV 0x45 c none d a 0 0 f s (arithFn 1 false))
  | .vreshInv c d a s f => some (fmtV 0x45 c none d a 0 0 f s (arithFn 2 false))
  | .vgtr c d a f => some (fmtV 0x46 c none d a 0 0 f 0 0)
  | .vld h d s f off => some (fmtV 0x50 h.c h.pm d 0 0 0 f s (memFn 0 off))
  | .vlds h d s b f off => some (fmtV 0x51 h.c h.pm d 0 b 0 f s (memFn 0 off))
  | .vldx h d s b f off => some (fmtV 0x52 h.c h.pm d 0 b 0 f s (memFn 0 off))
  | .vldK c pm k d s f off => some (encK c pm k d s f off)
  | .vldff h x d s f off => some (fmtV 0x53 h.c h.pm (wide3 d) 0 0 x f s (memFn 0 off))
  | .vst h a s f off => some (fmtV 0x54 h.c h.pm 0 a 0 0 f s (memFn 0 off))
  | .vsts h a s b f off => some (fmtV 0x55 h.c h.pm 0 a b 0 f s (memFn 0 off))
  | .vstx h a s b f off => some (fmtV 0x56 h.c h.pm 0 a b 0 f s (memFn 0 off))
  | .vstxo h a s b f off => some (fmtV 0x57 h.c h.pm 0 a b 0 f s (memFn 0 off))
  | .vstC c d a s f off => some (fmtV 0x54 c none d a 0 0 f s (memFn 16 off))
  | .vldC c d s f off => some (fmtV 0x50 c none d 0 0 0 f s (memFn 16 off))
  | .vamoAdd h d a b s f off => some (fmtV 0x58 h.c h.pm d a b 0 f s (memFn 0 off))
  | .vamoSwap h d a b s f off => some (fmtV 0x58 h.c h.pm d a b 0 f s (memFn 1 off))
  | .vamoCas h d a b x s f off => some (fmtV 0x58 h.c h.pm d a b x f s (memFn 2 off))
  | .vamoAnd h d a b s f off => some (fmtV 0x58 h.c h.pm d a b 0 f s (memFn 3 off))
  | .vamoOr h d a b s f off => some (fmtV 0x58 h.c h.pm d a b 0 f s (memFn 4 off))
  | .vamoMax h d a b s f off => some (fmtV 0x58 h.c h.pm d a b 0 f s (memFn 5 off))
  | .vamoMin h d a b s f off => some (fmtV 0x58 h.c h.pm d a b 0 f s (memFn 6 off))
  | .vldp h d x s b f off => some (fmtV 0x59 h.c h.pm d 0 b (wide3 x) f s (memFn 0 off))
  | .vstp h a x s b f off => some (fmtV 0x5A h.c h.pm 0 a b (wide3 x) f s (memFn 0 off))
  | .vstr h a x s b f off => some (fmtV 0x5B h.c h.pm 0 a b (wide3 x) f s (memFn 0 off))
  | .vldw c d s off => some (fmtV 0x5C c none d 0 0 0 0 s (memFn 0 off))
  | .vstw c a s off => some (fmtV 0x5D c none 0 a 0 0 0 s (memFn 0 off))
  | .vldwM c d s off => some (fmtV 0x5C c none (wide3 d) 0 0 0 0 s (memFn 1 off))
  | .vstwM c a s off => some (fmtV 0x5D c none 0 (wide3 a) 0 0 0 s (memFn 1 off))
  | .pst c a b x f run w => some (encPlural 0x60 0 c 0 a b x f run false w)
  | .popAdd c a b x f run row w => some (encPlural 0x61 0 c 0 a b x f run row w)
  | .popSub c a b x f run row w => some (encPlural 0x61 1 c 0 a b x f run row w)
  | .popMin c a b x f run row w => some (encPlural 0x61 2 c 0 a b x f run row w)
  | .popMax c a b x f run row w => some (encPlural 0x61 3 c 0 a b x f run row w)
  | .popAnd c a b x f run row w => some (encPlural 0x61 4 c 0 a b x f run row w)
  | .popOr c a b x f run row w => some (encPlural 0x61 5 c 0 a b x f run row w)
  | .popXor c a b x f run row w => some (encPlural 0x61 6 c 0 a b x f run row w)
  | .popMov c a b x f run row w => some (encPlural 0x61 7 c 0 a b x f run row w)
  | .pldSum c d a x f run w => some (encPlural 0x62 0 c d a 0 x f run false w)
  | .pldMax c d a x f run w => some (encPlural 0x62 1 c d a 0 x f run false w)
  | .pldMin c d a x f run w => some (encPlural 0x62 2 c d a 0 x f run false w)
  | .pldAnd c d a x f run w => some (encPlural 0x62 3 c d a 0 x f run false w)
  | .pldOr c d a x f run w => some (encPlural 0x62 4 c d a 0 x f run false w)
  | .pldXor c d a x f run w => some (encPlural 0x62 5 c d a 0 x f run false w)
  | .pldCnt c d a x f run w => some (encPlural 0x62 6 c d a 0 x f run false w)
  | .vwait h x d a s => some (fmtV 0x68 h.c h.pm d a 0 (wide3 x) 0 s 0)
  | .ctri d a b x f sa sb => some (fmtV 0x70 false none (wide3 d) a b x f 0 ((0 : BitVec 11) ++ sb ++ sa))
  | .czero d => some (fmtV 0x71 false none (wide3 d) 0 0 0 0 0 0)
  | .cget d a s f i0 nr j0 nc => some (fmtV 0x72 false none d (wide3 a) 0 0 f s (winFn i0 nr j0 nc))
  | .cgetc d a s f i0 nr j0 nc => some (fmtV 0x73 false none d (wide3 a) 0 0 f s (winFn i0 nr j0 nc))
  | .cput d a s f i0 nr j0 nc => some (fmtV 0x74 false none (wide3 d) a 0 0 f s (winFn i0 nr j0 nc))
  | .cshp s => some (fmtV 0x75 false none 0 0 0 0 0 s 0)
  | .tsave a s off => some (fmtV 0x76 false none 0 (wide3 a) 0 0 0 s (memFn 0 off))
  | .tload d s off => some (fmtV 0x77 false none (wide3 d) 0 0 0 0 s (memFn 0 off))
  | .route h fr a b x s => some (fmtV 0x78 h.c h.pm (fr.setWidth 5) a b x 0 s 0)
  | .rrecv c d x a s => some (fmtV 0x79 c none d a 0 x 0 s 0)
  | .rret h a x => some (fmtV 0x7A h.c h.pm 0 a 0 x 0 0 0)
  | .fwait c d fr => some (fmtV 0x7B c none d 0 0 0 0 0 (fr.setWidth 21))
  | .fread c d x fr => some (fmtV 0x7C c none d 0 0 x 0 0 (fr.setWidth 21))
  | .rtset c a s => some (fmtV 0x7D c none 0 a 0 0 0 s 0)
  | .enqStk h d x a => some (fmtV 0x80 h.c h.pm (wide3 d) a 0 x 0 0 0)
  | .enqCpy h d x a => some (fmtV 0x80 h.c h.pm (wide3 d) a 0 x 0 0 1)
  | .cwpw c n s => some (fmtV 0x81 c none 0 0 0 0 0 s (n.setWidth 21))
  | _ => none

/-! ### Bytes, and the words of the opcode table -/

/-- The bytes of a word in memory, the least significant at the lowest address (00_scope R2). -/
def bytesOf (n w : Nat) : List Byte := (List.range n).map fun i => BitVec.ofNat 8 (w >>> (8 * i))

/-- The number that bytes hold, the first least significant (00_scope R2). -/
def natOf : List Byte → Nat
  | [] => 0
  | b :: r => b.toNat + 256 * natOf r

/-- A scalar word from its four bytes. -/
def decodeScalarBytes (bs : List Byte) : Except Reject Instr := decode32 (BitVec.ofNat 32 (natOf bs))
/-- A vector word from its eight bytes. -/
def decodeVectorBytes (bs : List Byte) : Except Reject Instr := decode64 (BitVec.ofNat 64 (natOf bs))

/-- The instruction that the decoder reads from a row's word of 32 or 64 bits (the opcode table's numbering is
that of R26 and R32). -/
def decodeTableWord (nbits w : Nat) : Option Instr :=
  if nbits ≤ 32 then
    match decodeScalarBytes (bytesOf 4 w) with
    | .ok i => some i
    | .error _ => none
  else
    match decodeVectorBytes (bytesOf 8 w) with
    | .ok i => some i
    | .error _ => none

end Sys2Proof
end

