-- ==== Sys2Proof/Machine/Maps.lean ====
section
/-! DEFINITION. Sparse maps and sets over natural numbers as sorted lists, shared by every part of the state. -/

namespace Sys2Proof.Machine

/-- The value at a key; `d` where the key is not listed. -/
def mget {α : Type} (d : α) : List (Nat × α) → Nat → α
  | [], _ => d
  | (j, w) :: r, k => if k = j then w else mget d r k

/-- The listing with a key set, in rising order of keys. -/
def mset {α : Type} : List (Nat × α) → Nat → α → List (Nat × α)
  | [], k, v => [(k, v)]
  | (j, w) :: r, k, v =>
    if k < j then (k, v) :: (j, w) :: r else if k = j then (k, v) :: r else (j, w) :: mset r k v

/-- The listing without a key. -/
def mdel {α : Type} (m : List (Nat × α)) (k : Nat) : List (Nat × α) := m.filter fun p => p.1 != k

/-- The listing with a key set, where the value an unlisted key reads as is not listed. -/
def mput {α : Type} [DecidableEq α] (d : α) (m : List (Nat × α)) (k : Nat) (v : α) : List (Nat × α) :=
  if v = d then mdel m k else mset m k v

/-- A canonical listing: keys strictly rising, and no entry equal to what an unlisted key reads as. -/
def mwf {α : Type} [DecidableEq α] (d : α) : List (Nat × α) → Bool
  | [] => true
  | [(_, v)] => v != d
  | (j, v) :: (k, w) :: r => v != d && decide (j < k) && mwf d ((k, w) :: r)

/-- Membership in a set of numbers. -/
def smem (m : List Nat) (k : Nat) : Bool := m.contains k

/-- The set with a number added, in rising order. -/
def sadd : List Nat → Nat → List Nat
  | [], k => [k]
  | j :: r, k => if k < j then k :: j :: r else if k = j then j :: r else j :: sadd r k

/-- The set without a number. -/
def sdel (m : List Nat) (k : Nat) : List Nat := m.filter fun j => j != k

end Sys2Proof.Machine
end

