-- ==== Sys2Proof/Config.lean ====
section
/-! DEFINITION. What the spec leaves to the implementation or to chance, as constants without a body: no proof
can see a value of one. Most are applied to the model's step counter (`State.tick`), so that each step has
choices of its own. Log entries name each of them. -/

namespace Sys2Proof.Config

/-- Which of several enabled internal turns of the device goes next (00_scope R6; log 2). -/
opaque pick : Nat → Nat

/-- Whether the slice store has written a byte back to DRAM by now (08_memory R177, 12_engines R289; log 10). -/
opaque evict : Nat → Nat → Bool

/-- Whether a cached translation is used in place of the changed entry (08_memory R171; log 11). -/
opaque stale : Nat → Nat → Bool

/-- The place in the order of one VSTX or VSTP that the performance of an element takes, for each unit of memory that
it writes: of the elements that write a byte, the one with the highest place remains (08_memory R182; log 12). -/
opaque rank : Nat → Nat → Nat → Nat

/-- Which fetched word leaves a full instruction cache (02_stream R31, 01_machine R15; log 48). -/
opaque victim : Nat → Nat

/-- A value the spec does not state (log 13). -/
opaque freeWord : Nat → Word

/-- The contents of vector, mask and tile storage that a machine check lost (14_system R334; log 23). -/
opaque lost : Nat → Nat → Word

/-- SHAKE256 with an output of the given number of 64-bit words (15_device R350-R352; log 14). -/
opaque shake256 : List Word → Nat → List Word

/-- Falcon-1024 verification of a signature over a message under a public key (15_device R350; log 14). -/
opaque falconVerify : List Word → List Word → List Word → Bool

/-- The Falcon-1024 signature, padded to 1,280 bytes, under the device key of a boot (15_device R352; log 14). -/
opaque falconSign : Nat → List Word → List Word

/-- The device public key that the unclonable function derives at a boot (15_device R353; log 14). -/
opaque deviceKey : Nat → List Word

/-- The security controller's nonce words (15_device R350; log 14). -/
opaque nonce : Nat → Nat → Word

/-- The verdict of the mask ROM on a boot image: none when the signature fails, else whether the production
key verified it (15_device R351; log 14). -/
opaque imageVerdict : Word → Option Bool

/-- The digest of a boot image, eight words (15_device R351, R352; log 14). -/
opaque imageDigest : Word → List Word

/-- Whether a Tamlink port or switch stands on the way to a device (15_device R346; log 15). -/
opaque behindPort : Nat → Nat → Bool

/-- A device belongs to the pod (13_collective R302; log 15). -/
opaque inPod : Nat → Bool

/-- A tenancy holds a core of another device of the pod (11_route R255; log 36). -/
opaque holdsCore : Nat → Nat → Nat → Bool

/-- The check code in the tail of a train with these elements, as address and data (13_collective R301; log 65). -/
opaque checkCode : List (Nat × Nat) → Word

/-- The core clock count that a trace record holds (15_device R358; log 16). -/
opaque clock : Nat → Word

end Sys2Proof.Config
end

