-- ==== Sys2Proof/Machine/State.lean ====
section
/-! DEFINITION. The state of the module as plain data, and the state after reset. -/

namespace Sys2Proof.Machine

/-! ### Reasons to stop -/

/-- The faults of the model. -/
inductive Fault where
  /-- Raised by a host write whose physical address names no byte of HBM4 or LPDDR-6 (08_memory R167): the
  address does not exist. Safe: the model stops where the hardware does something the spec does not give. -/
  | noSuchAddress (pa : Nat)
  deriving DecidableEq, Repr

/-- The refusals of the model. -/
inductive Refusal where
  /-- Raised only by the arm of an instruction that has no meaning yet. Safe: the model stops. -/
  | notModelled (mnemonic : String)
  deriving DecidableEq, Repr

/-! ### Queues -/

/-- The configuration a VBLK captures (02_stream R43): VL, VTYPE, NREG, BS0-BS7, CGRP, COPR, CSTR, CSTEP. -/
structure Cfg where
  vl    : Word
  vtype : Word
  nreg  : Word
  bs    : Vector (BitVec 32) 8
  cgrp  : BitVec 16
  copr  : BitVec 13
  cstr  : BitVec 25
  cstep : Word
  deriving DecidableEq, Repr

/-- A placed word of a queue (02_stream R39, R43, R44): the word, its address, its captured S and F values and
configuration, its place in placement order, and whether it stood in the queue when a trap was taken
(14_system R318) or was placed by VQLOAD (R327); for a word of a convoy under way, the value that the register of its
stride had when it dispatched (R45); and whether it was placed at program level, at which it then acts (00_scope R5,
log 109). -/
structure Entry where
  word : Word
  addr : Word
  sval : Word
  fval : Word
  cfg  : Cfg
  seq  : Nat
  pre  : Bool
  bval : Option Word := none
  prog : Bool := false
  deriving DecidableEq, Repr

/-- Where an access goes: a byte of HBM4 or LPDDR-6 by physical address, a byte of a core's lane memory, or a
register of a tenancy's block. -/
inductive Loc where
  | mem (pa : Nat)
  | lm (core : Nat) (a : Nat)
  | reg (ten : BitVec 6) (off : Nat)
  deriving DecidableEq, Repr

/-- A buffered scalar store (04_scalar R97): the place, the class of its page, the bytes, and its step
(13_collective R306). -/
structure SBuf where
  loc  : Loc
  cls  : BitVec 3
  n    : Nat
  data : Word
  step : Word
  deriving DecidableEq, Repr

/-- An outstanding scalar load (04_scalar R97). -/
structure LoadReq where
  d      : BitVec 5
  n      : Nat
  signed : Bool
  ea     : Word
  loc    : Loc
  deriving DecidableEq, Repr

/-- What a hart's scalar stream waits for, past the issue of its instruction: words still to be placed by a
VBLK (02_stream R37), a fence's accesses (09_order R210), the other harts at HBAR (05_harts R121), or the end
of its work at HEXIT (R123). `begun` says that an instruction which completes before any asynchronous trap of its
hart has begun and is held back (05_harts R120, 09_order R214), `csr` that an access of VSTAT waits and has read this
BPC at once (02_stream R47); both are tried again. -/
inductive SWait where
  | none
  | begun
  | csr (bpc : BitVec 8)
  | placing (rest : List Entry)
  | load (r : LoadReq)
  | fence (sv vs pod : Bool)
  | hbar
  | hexit
  deriving DecidableEq, Repr

/-- What a started word at the head of the vector queue waits for: VWAIT with its met elements (05_harts R124),
RRECV (11_route R254), FWAIT (R258), CWPW (12_engines R286), the outstanding acknowledgements of VST.C with the
refusing ranks (13_collective R297), the fetch of VLD.C (R299), the outstanding trains of VSTR with their elements, and its element fault (R302, R183). -/
inductive VStall where
  | none
  | vwait (met : List Nat)
  | rrecv
  | fwait
  | cwpw
  | vstC (id : Nat) (left : Nat) (refused : List Nat)
  | vldC (id : Nat) (chunk : Nat)
  | vstr (id : Nat) (left : List (Nat × List Nat)) (fault : Option (Nat × BitVec 8 × Word))
  deriving DecidableEq, Repr

/-! ### A hart -/

/-- Privilege and the trap registers of a hart (14_system R309-R311, R331), with the traps that wait for a
boundary: a single step (R332) and machine checks (R334). `taken` counts the traps that the hart has taken: a trap whose
handler stands at the instruction itself is work too (04_scalar R87, log 67). -/
structure TrapRegs where
  system   : Bool
  sepc     : Word
  scause   : BitVec 10
  stval    : Word
  stvec    : Word
  sscratch : Word
  dbg      : Bool
  step     : Bool
  spie     : Bool
  sie      : Bool
  spp      : Bool
  pend     : Bool
  stepped  : Option Word
  checks   : List MCUnit
  taken    : Nat
  deriving DecidableEq, Repr

/-- The vector-side control registers of a hart (14_system R315, R328, R329; 03_formats R78; 08_memory R198;
10_comb R223). -/
structure VecRegs where
  bpc    : BitVec 8
  vp     : Bool
  pe     : Bool
  vs     : BitVec 2
  dirtyT : BitVec 8
  dirtyM : BitVec 8
  dirtyV : BitVec 32
  es     : Vector (BitVec 32) 6
  vtpc   : Word
  vtelem : BitVec 32
  seed   : Word
  pfV    : Bool
  pfRow  : BitVec 13
  pfBanks : BitVec 32
  cshape : Word
  deriving DecidableEq, Repr

/-- A hart's inbox register (11_route R243). -/
structure Inbox where
  head  : BitVec 8
  count : BitVec 9
  w     : BitVec 11
  cap   : BitVec 9
  base  : BitVec 13
  deriving DecidableEq, Repr

/-- A mask's binding record (12_engines R284). -/
structure BindRec where
  dest  : Word
  len   : Nat
  csz   : Nat
  nc    : Nat
  bound : Bool
  deriving DecidableEq, Repr

/-- The vector storage of a hart: register chunks by storage index (05_harts R369), marked chunks (08_memory
R181, those of masks from 2^32 on, R187), mask chunks (06_varith R129), mask binding records (12_engines R284), tile elements (10_comb R222). -/
structure VecStore where
  chunks : List (Nat × Word)
  poison : List Nat
  masks  : List (Nat × Word)
  binds  : List (Nat × BindRec)
  tiles  : List (Nat × BitVec 32)
  deriving DecidableEq, Repr

/-- What a word that acts grant by grant keeps from one grant to the next (05_harts R127): the commands of an ENQ that its
predicate made active when it dispatched (12_engines R267, R284), and for each stack queue the cards that the hart had
outstanding then and those that it has accepted since (R271); the rows and banks that failed in a plural run, whether one
failed on a fresh error, and the elements read so far (08_memory R196-R198); the rows that an RRECV takes, the row of it or of
an FREAD with the lane-memory word that cannot be read, and the lane-memory words read so far (11_route R254, R259). -/
structure Partway where
  active : Word
  fails  : List (Nat × Nat)
  fresh  : Bool
  vals   : List Nat
  outs   : List Nat := []
  seen   : List (Nat × Word) := []
  deriving DecidableEq, Repr

/-- A tile on its way to or from memory, line by line (10_comb R235, 01_machine R23): whether it is saved, which keeps the Comb
from the first line on (R239); the place of the tile and whether its class writes through; the first line still to move; and
the pairs that it has taken from the tile, or read so far. -/
structure TileMove where
  saves   : Bool
  loc     : Loc
  through : Bool
  line    : Nat
  vals    : List Nat
  deriving DecidableEq, Repr

/-- A trap of the vector queue that stays pending because a machine check was taken before it (14_system R314): what it records;
the address of the last word done, where it follows a completion (R316); and whether it waits for the return from a trap, as
the words of the queues do (02_stream R45). -/
structure Owed where
  es   : List Nat
  e    : Option Nat
  code : BitVec 8
  tval : Word
  last : Option Word
  pre  : Bool
  deriving DecidableEq, Repr

/-- A hart's queues and what waits at them. `vv` holds the placement numbers of FENCE.VV (09_order R210);
`flight` the progress of a convoy that has started and not ended (14_system R316, R321);
`landed` the bits of bound masks that landed since it sampled its masks (12_engines R284); `begun` what the head word has
found so far that acts grant by grant, with `flight` the first command or row still to come (05_harts R127); `comb` the tile
that the head comb word moves line by line; `owed` a trap of the vector queue still to be taken (14_system R314). -/
structure Queues where
  vq      : List Entry
  cq      : List Entry
  nextSeq : Nat
  vv      : List Nat
  flight  : Option (List Nat)
  stall   : VStall
  landed  : List (Nat × Nat)
  begun   : Option Partway
  comb    : Option TileMove
  owed    : Option Owed
  deriving DecidableEq, Repr

/-- A hart's place in its launch (05_harts R106, R107, R109): launch number, tenancy, harts per core, index of
the core in the launch, priority, and the levels it has reached at the shared resources (R126). -/
structure Place where
  placed : Bool
  launch : Nat
  ten    : BitVec 6
  h      : BitVec 8
  lcore  : BitVec 8
  prio   : BitVec 2
  levels : List (Resource × BitVec 2)
  deriving DecidableEq, Repr

/-- A hart context (05_harts R107). -/
structure Hart where
  pc     : Word
  sregs  : Vector Word 32
  trap   : TrapRegs
  vec    : VecRegs
  cfg    : Cfg
  store  : VecStore
  q      : Queues
  place  : Place
  lmbase : BitVec 13
  lmsize : BitVec 14
  ptroot : Word
  inbox  : Inbox
  ecap   : BitVec 7
  sbuf   : List SBuf
  wait   : SWait
  farms  : Nat
  halted : Bool
  dbgStep : Bool
  deriving DecidableEq, Repr

/-! ### A core -/

/-- One frame of the Frame table (11_route R246, R251, R252): its descriptor, and its rows' weights and
statuses, where no status stands for SENT. -/
structure Frame where
  gen     : BitVec 2
  st      : BitVec 2
  owner   : BitVec 3
  timeout : BitVec 24
  w       : BitVec 11
  maxr    : BitVec 9
  base    : BitVec 13
  nrow    : Nat
  wts     : List (BitVec 32)
  stat    : List (Option (BitVec 3))
  deriving DecidableEq, Repr

/-- A run of consecutive physical bytes: address, length, and the class of its page (08_memory R176). -/
structure Seg where
  pa  : Nat
  n   : Nat
  cls : BitVec 3
  deriving DecidableEq, Repr

/-- An end of a copy (12_engines R282): memory, in runs fixed at acceptance, or the core's lane memory. -/
inductive CopyEnd where
  | mem (segs : List Seg)
  | lm (a : Nat)
  deriving DecidableEq, Repr

/-- A copy command in a channel's queue (12_engines R281-R284). -/
structure CopyCmd where
  src    : CopyEnd
  dst    : CopyEnd
  len    : Nat
  csz    : Nat
  comp   : Option Seg
  bind   : Option (BitVec 3)
  hart   : Nat
  launch : Nat
  ten    : BitVec 6
  step   : Word
  poison : Bool
  deriving DecidableEq, Repr

/-- A copy channel (12_engines R283): its commands, its write pointer, whether the head command has started,
and its next chunk. -/
structure Chan where
  cmds    : List CopyCmd
  cwp     : Word
  started : Bool
  chunk   : Nat
  deriving DecidableEq, Repr

/-- A group-table entry that a core holds (13_collective R294). -/
structure GroupEnt where
  handle  : Nat
  gather  : Bool
  members : List Word
  deriving DecidableEq, Repr

/-- A collective contribution (13_collective R297, R298): its key, the level of the hart that sends it (log 108), its
elements with their marks, what combines them, and where its acknowledgement goes. -/
structure Contrib where
  ten    : BitVec 6
  system : Bool
  handle : Nat
  step   : Word
  chunk  : Nat
  rank   : Nat
  ranks  : Nat
  gather : Bool
  op     : BitVec 2
  fa     : BitVec 5
  rm     : BitVec 3
  sat    : Bool
  stride : Nat
  elems  : List (BitVec 32)
  marked : Bool
  odev   : Nat
  ocore  : Nat
  ohart  : Nat
  sdev   : Nat
  score  : Nat
  shart  : Nat
  id     : Nat
  deriving DecidableEq, Repr

/-- What a port records of a group's chunk (13_collective R298, R299): the last step written, the failed
steps, and the fetches of the last step served. -/
structure ChunkRec where
  handle : Nat
  chunk  : Nat
  ls     : Option Word
  failed : List Word
  served : Nat
  deriving DecidableEq, Repr

/-- A cached translation (08_memory R171): root, 64 KiB page number of the address, leaf, its level, and the
physical address of the entry. -/
structure TlbEnt where
  root  : Word
  page  : Nat
  pte   : Word
  level : Nat
  pteAt : Nat
  ten   : BitVec 6
  deriving DecidableEq, Repr

/-- A core: its harts, lane memory with marks and latent errors by word, route unit, copy channels, collective
port, cached translations and fetched words, and the hart last granted each shared resource (05_harts R126). -/
structure Core where
  harts    : List (Nat × Hart)
  launch   : Option Nat
  vgrant   : BitVec 4
  halfRate : Bool
  lm       : List (Nat × Word)
  lmMarks  : List Nat
  lmLatent : List Nat
  ltag     : BitVec 56
  routes   : Vector Word 64
  frames   : Vector Frame 4
  lost     : BitVec 16
  stale    : BitVec 16
  late     : BitVec 16
  chans    : Vector Chan 4
  groups   : List GroupEnt
  staged   : List Contrib
  recs     : List ChunkRec
  tlb      : List TlbEnt
  icache   : List (Nat × BitVec 32)
  lastGrant : List (Resource × Nat)
  deriving DecidableEq, Repr

/-! ### The fabric -/

/-- A routed row in flight (11_route R244, R245). The destination core is numbered as the tenancy sees it. -/
structure RowMsg where
  ten   : BitVec 6
  sdev  : Nat
  score : Nat
  ddev  : Nat
  dcore : Nat
  dhart : Nat
  h0    : Word
  h1    : Word
  data  : List (BitVec 32 × Bool)
  deriving DecidableEq, Repr

/-- A return or a refusal in flight (11_route R256). The header names the origin; `full` tells a refusal for a
full inbox from another one. -/
structure RetMsg where
  ten   : BitVec 6
  score : Nat
  ddev  : Nat
  dcore : Nat
  h0    : Word
  h1    : Word
  w     : Nat
  data  : List (BitVec 32 × Bool)
  full  : Bool
  deriving DecidableEq, Repr

/-- A fetch of a combined chunk (13_collective R299), with the level of the hart that sends it (log 108). -/
structure FetchMsg where
  ten    : BitVec 6
  system : Bool
  handle : Nat
  step   : Word
  chunk  : Nat
  stride : Nat
  odev   : Nat
  ocore  : Nat
  ohart  : Nat
  sdev   : Nat
  score  : Nat
  shart  : Nat
  id     : Nat
  deriving DecidableEq, Repr

/-- An element of a train (13_collective R301): physical address, width in bytes, class, data. -/
structure TrainElem where
  pa   : Nat
  n    : Nat
  cls  : BitVec 3
  data : BitVec 32
  deriving DecidableEq, Repr

/-- An element train (13_collective R301, R302): the header, with the source core as the tenancy numbers it (15_device
R343) and the launch tag; the elements; and the tail, their count and the check code. -/
structure TrainMsg where
  ten   : BitVec 6
  sdev  : Nat
  score : Nat
  shart : Nat
  tag   : BitVec 56
  id    : Nat
  ddev  : Nat
  width : Nat
  step  : Word
  elems : List TrainElem
  count : BitVec 32
  check : Word
  deriving DecidableEq, Repr

/-- A message in flight on the die-to-die fabric or Tamlink. An answer names the device, core and hart it goes to, a
train's by the tenancy and its number of the core; a fetched chunk's cause is 0 where it was served. -/
inductive Msg where
  | row (m : RowMsg)
  | ret (m : RetMsg)
  | refusal (m : RetMsg)
  | contrib (m : Contrib)
  | contribAck (dev core hart id rank : Nat) (ok : Bool)
  | fetch (m : FetchMsg)
  | fetched (dev core hart id chunk : Nat) (bytes : List Byte) (cause : BitVec 8)
  | train (m : TrainMsg)
  | trainAck (ten : BitVec 6) (dev core hart id from_ count : Nat)
  deriving DecidableEq, Repr

/-! ### Engines -/

/-- A stack job card in its queue (12_engines R270-R273): every range is physical. -/
structure Card where
  op     : BitVec 8
  count  : Nat
  fmt    : BitVec 8
  acc    : Bool
  pat    : Word
  dlen   : Nat
  rows   : List (List Seg)
  dst    : List Seg
  comp   : Nat
  ten    : BitVec 6
  core   : Nat
  hart   : Nat
  launch : Nat
  step   : Word
  deriving DecidableEq, Repr

/-- A reduction packet (12_engines R279): the bytes of a combined chunk bound for HBM4 and where they go, those with
a mark, and the record to bring up to date once they are written (13_collective R298), of the launch that its core ran. -/
structure Packet where
  segs   : List Seg
  bytes  : List Byte
  marks  : List Bool
  ten    : BitVec 6
  core   : Nat
  launch : Option Nat
  handle : Nat
  chunk  : Nat
  step   : Word
  deriving DecidableEq, Repr

/-- A stack engine (12_engines R272, R279): cards by tenancy, the tenancy served last, the reduction queue. -/
structure Stack where
  cards : List (Nat × List Card)
  last  : Nat
  rq    : List Packet
  deriving DecidableEq, Repr

/-! ### The hub -/

/-- A launch descriptor in a queue (05_harts R104): sixteen 64-bit words, and the address ERRADDR takes if it
is refused with an unusable DONE (15_device R338). -/
structure Desc where
  words : Vector Word 16
  src   : Word
  deriving DecidableEq, Repr

/-- A slice class (08_memory R176). -/
structure SliceClass where
  pol  : BitVec 2
  age  : BitVec 2
  ways : BitVec 16
  deriving DecidableEq, Repr

/-- A 64 KiB unit that Propolis noted (13_collective R305, R307): its physical unit number, its virtual page,
the root and the leaf that map it, the unit of the snapshot area that holds its copy, and whether it is drained. -/
structure PUnit where
  unit    : Nat
  page    : Nat
  root    : Word
  leafAt  : Nat
  image   : Option Nat
  drained : Bool
  deriving DecidableEq, Repr

/-- Propolis for one tenancy (13_collective R304, R305): its registers, the N and the snapshot area it is armed for, the
noted units, and the harts that take part and have not cut. `waits` says that a store of the work under way finds its unit
neither copied nor drained and the area full: that work waits (R307), so that no turn leaves it set (log 50). -/
structure Propolis where
  arm     : Bool
  step    : BitVec 48
  n       : BitVec 48
  area    : Word
  parea   : Word
  pdest   : Word
  st      : BitVec 3
  reason  : BitVec 5
  copied  : BitVec 24
  drained : BitVec 32
  units   : List PUnit
  uncut   : List (Nat × Nat)
  waits   : Bool := false
  deriving DecidableEq, Repr

/-- A tenancy's register block and hub state (15_device R338, R341, R344, R357); `checked` says that the launcher has
passed the descriptor at the head of the queue (05_harts R105), `winSet` that a written window has not taken effect. -/
structure Ten where
  lq       : List Desc
  checked  : Bool
  staging  : List Word
  trapvec  : Word
  intstat  : BitVec 3
  intmask  : Word
  erraddr  : Word
  classes  : Vector SliceClass 8
  prop     : Propolis
  attnonce : Vector Word 4
  attrep   : List Word
  session  : Bool
  token    : Bool
  winbase  : Vector Word 4
  winlim   : Vector Word 4
  winSet   : Bool
  wins     : List (Nat × Nat × Nat)
  deriving DecidableEq, Repr

/-- A launch that has been placed and not completed (05_harts R104-R108, R118). -/
structure Launch where
  id     : Nat
  ten    : BitVec 6
  h      : Nat
  cores  : List Nat
  tags   : List (Nat × BitVec 56)
  left   : Nat
  prio   : BitVec 2
  ptroot : Word
  groups : Word
  done   : Word
  farms  : List (Nat × Nat)
  deriving DecidableEq, Repr

/-- The manager block, the debug port and the boot state (15_device R355-R358): `tracebuf` is the buffer that DBGTBUF
named at TRACEON, `busy` the hart whose HALT or STEP has not completed. -/
structure Mgr where
  state    : BitVec 2
  sec      : Bool
  offref   : Bool
  image    : Word
  boots    : Nat
  devnum   : BitVec 17
  devlock  : Bool
  plimit   : BitVec 12
  groupown : Vector (BitVec 7) 16
  tkeys    : List (Nat × Word)
  dbgsel   : Word
  dbgres   : Word
  dbgaddr  : Word
  dbgdata  : Word
  dbgtbuf  : Word
  dbgtptr  : Word
  dbgnonce : Vector Word 4
  dbgbuf   : List (Nat × Word)
  traced   : Option (Nat × Nat)
  tracebuf : Word
  busy     : Option (Nat × Nat)
  deriving DecidableEq, Repr

/-! ### The whole machine -/

/-- What comes from outside besides the events of the table: a message from another module, or a memory word
that goes bad (a latent uncorrectable error, 08_memory R174). DESIGN CHOICE, log 8. -/
inductive Input where
  | msg (m : Msg)
  | memError (line : Nat)
  | lmError (core : Nat) (w : Nat)
  deriving DecidableEq, Repr

/-- One turn of the model's schedule: a hart, what arrives from outside first, and an event of the table; no
event stands for the hart's next scalar instruction. DESIGN CHOICE, log 8. -/
structure Turn where
  core  : Nat
  hart  : Nat
  input : Option Input
  ev    : Option Instr
  deriving DecidableEq, Repr

/-- A record that Propolis wrote to its storage device (13_collective R307): where it starts, the header's virtual
address, root and N, and the bytes of the 64 KiB image that are not 0, by their offset. -/
structure Drain where
  place : Word
  va    : Word
  root  : Word
  n     : Word
  image : List (Nat × Byte)
  deriving DecidableEq, Repr

/-- The state of the module. `tick` counts the steps and feeds the free values; `agenda` is the schedule and
what the outside world does; `cc` and `ch` name the hart whose turn it is: these are the model's own. -/
structure State where
  tick     : Nat
  agenda   : List Turn
  cc       : Nat
  ch       : Nat
  cores    : List (Nat × Core)
  mem      : List Host.Cell
  dram     : List Host.Cell
  marks    : List Nat
  latent   : List Nat
  tens     : List (Nat × Ten)
  launches : List Launch
  nextId   : Nat
  fabric   : List Msg
  engines  : List (Nat × Stack)
  mgr      : Mgr
  down     : List Nat
  msix     : List (Nat × Nat)
  out      : List Msg
  drains   : List Drain
  deriving DecidableEq, Repr

/-! ### Reset -/

/-- The configuration of a placed hart before its program sets one (05_harts R107): VTYPE has EW = 4. -/
def Cfg.init (nreg : Word) : Cfg where
  vl := 0
  vtype := 4
  nreg := nreg
  bs := Vector.replicate 8 0
  cgrp := 0
  copr := 0
  cstr := 0
  cstep := 0

/-- The trap registers of a hart at placement (05_harts R107, 14_system R310, R311). -/
def TrapRegs.init : TrapRegs where
  system := false
  sepc := 0
  scause := 0
  stval := 0
  stvec := 0
  sscratch := 0
  dbg := false
  step := false
  spie := false
  sie := false
  spp := false
  pend := false
  stepped := none
  checks := []
  taken := 0

/-- The vector-side registers of a hart at placement (05_harts R107): VS is INITIAL, SEED its constant. -/
def VecRegs.init : VecRegs where
  bpc := 0
  vp := false
  pe := false
  vs := 1
  dirtyT := 0
  dirtyM := 0
  dirtyV := 0
  es := Vector.replicate 6 0
  vtpc := 0
  vtelem := 0
  seed := 0x9E3779B97F4A7C15
  pfV := false
  pfRow := 0
  pfBanks := 0
  cshape := 0

/-- A hart context at placement with one hart on its core (05_harts R107). Before a placement every context
stands so (log 3). -/
def Hart.init : Hart where
  pc := 0
  sregs := Vector.replicate 32 0
  trap := TrapRegs.init
  vec := VecRegs.init
  cfg := Cfg.init 32
  store := { chunks := [], poison := [], masks := [], binds := [], tiles := [] }
  q := { vq := [], cq := [], nextSeq := 0, vv := [], flight := none, stall := .none, landed := [], begun := none, comb := none, owed := none }
  place := { placed := false, launch := 0, ten := 0, h := 1, lcore := 0, prio := 0, levels := [] }
  lmbase := 0
  lmsize := 0
  ptroot := 0
  inbox := { head := 0, count := 0, w := 0, cap := 0, base := 0 }
  ecap := 64
  sbuf := []
  wait := .none
  farms := 0
  halted := false
  dbgStep := false

/-- An idle frame with no rows (11_route R241). -/
def Frame.init : Frame where
  gen := 0
  st := 0
  owner := 0
  timeout := 0
  w := 0
  maxr := 0
  base := 0
  nrow := 0
  wts := []
  stat := []

/-- A core at boot (05_harts R114, 11_route R241). -/
def Core.init : Core where
  harts := []
  launch := none
  vgrant := 8
  halfRate := false
  lm := []
  lmMarks := []
  lmLatent := []
  ltag := 0
  routes := Vector.replicate 64 0
  frames := Vector.replicate 4 Frame.init
  lost := 0
  stale := 0
  late := 0
  chans := Vector.replicate 4 { cmds := [], cwp := 0, started := false, chunk := 0 }
  groups := []
  staged := []
  recs := []
  tlb := []
  icache := []
  lastGrant := []

/-- A tenancy's block at reset (15_device R338, 08_memory R176, 13_collective R304). DESIGN CHOICE, log 26. -/
def Ten.init : Ten where
  lq := []
  checked := false
  staging := []
  trapvec := 0
  intstat := 0
  intmask := 0
  erraddr := 0
  classes := Vector.replicate 8 { pol := 0, age := 2, ways := 0xFFFF }
  prop := { arm := false, step := 0, n := 0, area := 0, parea := 0, pdest := 0, st := 0, reason := 0, copied := 0, drained := 0,
            units := [], uncut := [], waits := false }
  attnonce := Vector.replicate 4 0
  attrep := []
  session := false
  token := false
  winbase := Vector.replicate 4 0
  winlim := Vector.replicate 4 0
  winSet := false
  wins := []

/-- A stack engine with nothing queued (12_engines R272). -/
def Stack.init : Stack where
  cards := []
  last := 0
  rq := []

/-- The manager block at power-on (15_device R355, R356). DESIGN CHOICE, log 26. -/
def Mgr.init : Mgr where
  state := 0
  sec := false
  offref := false
  image := 0
  boots := 0
  devnum := 0
  devlock := false
  plimit := 3400
  groupown := Vector.replicate 16 0x7F
  tkeys := []
  dbgsel := 0
  dbgres := 0
  dbgaddr := 0
  dbgdata := 0
  dbgtbuf := 0
  dbgtptr := 0
  dbgnonce := Vector.replicate 4 0
  dbgbuf := []
  traced := none
  tracebuf := 0
  busy := none

/-- The module right after power-on: booting, nothing placed, memory with nothing listed.
DESIGN CHOICE, logs 27 and 67. -/
def State.reset : State where
  tick := 0
  agenda := []
  cc := 0
  ch := 0
  cores := []
  mem := []
  dram := []
  marks := []
  latent := []
  tens := []
  launches := []
  nextId := 1
  fabric := []
  engines := []
  mgr := Mgr.init
  down := []
  msix := []
  out := []
  drains := []

end Sys2Proof.Machine
end

