-- ==== Sys2Proof/Machine/Ops.lean ====
section
/-! DEFINITION. The named operations over the state: harts and cores, registers, physical and lane memory with
marks and errors, the snapshot engine's hold on stores, translation and its checks, and taking a trap and
returning from one. -/

namespace Sys2Proof.Machine

open Host (Outcome)

/-- The outcome of a step of this machine. -/
abbrev Out := Host.Outcome State Fault Refusal

/-! ### Harts, cores, tenancies -/

/-- A core by physical number. -/
def State.coreAt (s : State) (c : Nat) : Core := mget Core.init s.cores c
/-- A core replaced. -/
def State.setCoreAt (s : State) (c : Nat) (x : Core) : State := { s with cores := mset s.cores c x }
/-- A core changed. -/
def State.modCoreAt (s : State) (c : Nat) (f : Core → Core) : State := s.setCoreAt c (f (s.coreAt c))
/-- A hart of a core. -/
def Core.hartAt (x : Core) (h : Nat) : Hart := mget Hart.init x.harts h
/-- A hart of a core. -/
def State.hartAt (s : State) (c h : Nat) : Hart := (s.coreAt c).hartAt h
/-- A hart changed. -/
def State.modHartAt (s : State) (c h : Nat) (f : Hart → Hart) : State :=
  s.modCoreAt c fun x => { x with harts := mset x.harts h (f (x.hartAt h)) }
/-- The core whose turn it is. -/
def State.core (s : State) : Core := s.coreAt s.cc
/-- The hart whose turn it is. -/
def State.hart (s : State) : Hart := s.hartAt s.cc s.ch
/-- The core whose turn it is, changed. -/
def State.modCore (s : State) (f : Core → Core) : State := s.modCoreAt s.cc f
/-- The hart whose turn it is, changed. -/
def State.modHart (s : State) (f : Hart → Hart) : State := s.modHartAt s.cc s.ch f
/-- The turn given to a hart. -/
def State.at (s : State) (c h : Nat) : State := { s with cc := c, ch := h }
/-- A tenancy. -/
def State.tenAt (s : State) (t : Nat) : Ten := mget Ten.init s.tens t
/-- A tenancy changed. -/
def State.modTenAt (s : State) (t : Nat) (f : Ten → Ten) : State := { s with tens := mset s.tens t (f (s.tenAt t)) }
/-- A stack engine. -/
def State.stackAt (s : State) (i : Nat) : Stack := mget Stack.init s.engines i
/-- A stack engine changed. -/
def State.modStackAt (s : State) (i : Nat) (f : Stack → Stack) : State :=
  { s with engines := mset s.engines i (f (s.stackAt i)) }
/-- The manager block changed. -/
def State.modMgr (s : State) (f : Mgr → Mgr) : State := { s with mgr := f s.mgr }

/-! ### Parts of a hart -/

/-- The trap registers changed. -/
def Hart.modTrap (h : Hart) (f : TrapRegs → TrapRegs) : Hart := { h with trap := f h.trap }
/-- The vector-side registers changed. -/
def Hart.modVec (h : Hart) (f : VecRegs → VecRegs) : Hart := { h with vec := f h.vec }
/-- The vector storage changed. -/
def Hart.modStore (h : Hart) (f : VecStore → VecStore) : Hart := { h with store := f h.store }
/-- The queues changed. -/
def Hart.modQ (h : Hart) (f : Queues → Queues) : Hart := { h with q := f h.q }
/-- A grant of resources returns the hart's level for them to PRIO (05_harts R126). -/
def Hart.granted (h : Hart) (rs : List Resource) : Hart :=
  { h with place := { h.place with levels := h.place.levels.filter fun p => !rs.contains p.1 } }
/-- The hart last granted each of some resources of the core is the one whose turn it is (05_harts R126). -/
def State.noteGrant (s : State) (rs : List Resource) : State :=
  s.modCore fun y => { y with lastGrant := rs.map (fun r => (r, s.ch)) ++ y.lastGrant.filter fun p => !rs.contains p.1 }
/-- Resources granted to the hart whose turn it is (05_harts R126). -/
def State.grant (s : State) (rs : List Resource) : State := (s.noteGrant rs).modHart fun h => h.granted rs
/-- The hart's lanes L_p = 32 / H (01_machine R22). -/
def Hart.lanes (h : Hart) : Nat := 32 / h.place.h.toNat

/-- A state in which the hart of the turn stands at a level, to check an access by it. -/
def State.asLevel (s : State) (system : Bool) : State := s.modHart fun k => k.modTrap fun t => { t with system := system }

/-- A scalar register read; s0 reads as zero (02_stream R30). -/
def Hart.rd (h : Hart) (r : BitVec 5) : Word := if r = 0 then 0 else h.sregs[r.toNat]
/-- A scalar register written; a write of s0 is discarded (02_stream R30). -/
def Hart.wr (h : Hart) (r : BitVec 5) (v : Word) : Hart :=
  if r = 0 then h else { h with sregs := h.sregs.set r.toNat v }
/-- A scalar register of the hart whose turn it is. -/
def State.rd (s : State) (r : BitVec 5) : Word := s.hart.rd r
/-- A scalar register of the hart whose turn it is, written. -/
def State.wr (s : State) (r : BitVec 5) (v : Word) : State := s.modHart fun h => h.wr r v

/-! ### Core numbers and windows of a tenancy (15_device R343, R344) -/

/-- The core groups a tenancy holds, in rising order. -/
def State.groupsOf (s : State) (t : Nat) : List Nat :=
  (List.range 16).filter fun g => decide ((s.mgr.groupown[g]?.getD 0x7F).toNat = t)
/-- The physical core of a tenancy's core number. -/
def State.physCore (s : State) (t i : Nat) : Option Nat := ((s.groupsOf t)[i / 8]?).map fun g => 8 * g + i % 8
/-- The tenancy's number of a physical core. -/
def State.tenCore (s : State) (t c : Nat) : Option Nat :=
  ((s.groupsOf t).idxOf? (c / 8)).map fun i => 8 * i + c % 8
/-- The tenancy that holds a physical core. -/
def State.ownerOf (s : State) (c : Nat) : Nat := (s.mgr.groupown[c / 8]?.getD 0x7F).toNat

/-- The region of a physical address without its device number (08_memory R167). -/
def regionOf (pa : Nat) : Nat := (pa >>> 44) % 8
/-- The offset in the region (08_memory R167). -/
def offsetOf (pa : Nat) : Nat := pa % 2 ^ 44
/-- The address exists as a byte of HBM4 or LPDDR-6 (08_memory R167). -/
def memExists (pa : Nat) : Bool :=
  (regionOf pa == 0 && decide (offsetOf pa < 2 ^ 40)) || (regionOf pa == 1 && decide (offsetOf pa < 2 ^ 42))
/-- The address lies in one of some windows: region, base and limit in 64 KiB units (15_device R357). -/
def inWindows (ws : List (Nat × Nat × Nat)) (pa : Nat) : Bool :=
  ws.any fun w => w.1 == regionOf pa && decide (w.2.1 * 65536 ≤ offsetOf pa) && decide (offsetOf pa < w.2.2 * 65536)
/-- The address lies in a window of the tenancy (15_device R344, R357). -/
def State.windowOpen (s : State) (t pa : Nat) : Bool := inWindows (s.tenAt t).wins pa
/-- The windows that the written registers open (15_device R357). -/
def Ten.openWins (t : Ten) : List (Nat × Nat × Nat) :=
  (List.range 4).filterMap fun n =>
    let b := t.winbase[n]?.getD 0
    let l := t.winlim[n]?.getD 0
    if b.getLsbD 63 then some ((b >>> 44).toNat % 8, (b >>> 16).toNat % 2 ^ 28, (l >>> 16).toNat % 2 ^ 28) else none

/-! ### The fabric (11_route R253, 15_device R346) -/

/-- A device can be reached (R346): the module itself always, another one once DEVNUM is written and while no port
or switch on the way is down (log 15). -/
def State.reachable (s : State) (dev : Nat) : Bool :=
  dev == s.mgr.devnum.toNat || (s.mgr.devlock && !(s.down.any fun p => Config.behindPort p dev))
/-- A message sent to a device: into the fabric of the module, or out of it, where the device can be reached
(15_device R346). DESIGN CHOICE, log 65. -/
def State.send (s : State) (dev : Nat) (m : Msg) : State :=
  if dev = s.mgr.devnum.toNat then { s with fabric := s.fabric ++ [m] }
  else if s.reachable dev then { s with out := s.out ++ [m] } else s
/-- A number for an outstanding request. DESIGN CHOICE, log 67. -/
def State.freshId (s : State) : Nat × State := (s.nextId, { s with nextId := s.nextId + 1 })

/-! ### Bytes of physical memory -/

/-- What a byte that nothing has written reads as (log 4). -/
def memDefault : Byte := 0

/-- The line of a byte (08_memory R174). -/
def lineOf (pa : Nat) : Nat := pa / 256
/-- The mark of a line set; an error it had is recorded by it (08_memory R174). -/
def State.markLine (s : State) (l : Nat) : State := { s with marks := sadd s.marks l, latent := sdel s.latent l }

/-- A byte of HBM4 or LPDDR-6. -/
def State.byte (s : State) (pa : Nat) : Byte := mget memDefault s.mem pa

/-- `n` bytes as a number, little-endian (00_scope R2). -/
def State.readMem (s : State) (pa : Nat) : Nat → Nat
  | 0 => 0
  | n + 1 => (s.byte pa).toNat + 256 * s.readMem (pa + 1) n

/-- A byte written to the coherent value, and to DRAM under write-through; otherwise DRAM keeps what it holds,
or what the slice store has written back by now; only a byte that differs is listed (08_memory R177, log 10). -/
def State.putByte (s : State) (through : Bool) (pa : Nat) (b : Byte) : State :=
  let old := if Config.evict s.tick pa then s.byte pa else mget (s.byte pa) s.dram pa
  { s with mem := mput memDefault s.mem pa b, dram := mput b s.dram pa (if through then b else old) }

/-- The byte a stack engine reads from DRAM (12_engines R289, log 10). -/
def State.dramByte (s : State) (pa : Nat) : Byte :=
  if Config.evict s.tick pa then s.byte pa else mget (s.byte pa) s.dram pa

/-- The class of a page says write-through (08_memory R176). -/
def State.writesThrough (s : State) (t : BitVec 6) (cls : BitVec 3) : Bool :=
  decide (((s.tenAt t.toNat).classes[cls.toNat]).pol = 1)

/-! ### Propolis and stores (13_collective R305-R307) -/

/-- A byte with some bits changed. -/
def mixByte (old v m : Byte) : Byte := (old &&& ~~~m) ||| (v &&& m)

/-- The bytes of a 64 KiB unit that are listed. -/
def State.unitImage (s : State) (u : Nat) : List (Nat × Byte) := s.mem.filter fun c => c.1 / 65536 == u

/-- The 64 KiB units the snapshot area has room for (13_collective R304). -/
def Propolis.room (p : Propolis) : Nat := (p.area.toNat % 65536) * 16
/-- The physical unit of the snapshot area that holds a copy (13_collective R304, R307), one after another.
DESIGN CHOICE, log 41. -/
def Propolis.slotUnit (p : Propolis) (slot : Nat) : Nat := ((p.area >>> 16).toNat + slot) % 2 ^ 31
/-- The listed bytes of a unit put in the place of another unit's. -/
def State.fillUnit (s : State) (u : Nat) (img : List (Nat × Byte)) : State :=
  { s with
    mem := img.foldl (fun m c => mput memDefault m (65536 * u + c.1 % 65536) c.2) (s.mem.filter fun c => c.1 / 65536 != u)
    dram := s.dram.filter fun c => c.1 / 65536 != u
    marks := s.marks.filter fun l => l / 256 != u
    latent := s.latent.filter fun l => l / 256 != u }

/-- A byte of memory that the machine itself changes in its place: a partial write of the line, which marks a line with an
error that no mark records, and writes nothing there (08_memory R174). -/
def State.patchByte (s : State) (pa : Nat) (b : Byte) : State :=
  if smem s.latent (lineOf pa) then s.markLine (lineOf pa) else { s with mem := mput memDefault s.mem pa b }
/-- CW set or cleared in a leaf (08_memory R169). -/
def State.setCw (s : State) (leafAt : Nat) (on : Bool) : State :=
  s.patchByte leafAt (if on then s.byte leafAt ||| 0x80 else s.byte leafAt &&& 0x7F)

/-- Cached translations through a leaf dropped on every core (13_collective R307). -/
def State.dropLeaf (s : State) (leafAt : Nat) : State :=
  { s with cores := s.cores.map fun p => (p.1, { p.2 with tlb := p.2.tlb.filter fun e => e.pteAt != leafAt }) }

/-- An interrupt bit sets: 0 LERR, 1 SNAP, 2 DBG; one that was clear sends its MSI-X vector where its mask bit is 1
(15_device R341). DESIGN CHOICE, log 65. -/
def State.raise (s : State) (t n : Nat) : State :=
  let x := s.tenAt t
  if x.intstat.getLsbD n then s
  else
    let s := s.modTenAt t fun y => { y with intstat := y.intstat ||| ((1 : BitVec 3) <<< n) }
    if x.intmask.getLsbD n then { s with msix := s.msix ++ [(t, n)] } else s

/-- The snapshot fails (13_collective R308): copies are discarded and every CW that was set is cleared. -/
def State.failSnapshot (s : State) (t : Nat) (reason : BitVec 5) : State :=
  let p := (s.tenAt t).prop
  let s := (p.units.foldl (fun s u => s.setCw u.leafAt false) s).raise t 1
  s.modTenAt t fun x => { x with prop := { x.prop with st := 5, reason := reason, units := [], uncut := [] } }

/-- The snapshot area has no room for another unit (13_collective R304). -/
def Propolis.full (p : Propolis) : Bool := decide (p.room ≤ p.copied.toNat)

/-- A unit copied to the snapshot area before a later store reaches it, with CW set in its leaves (13_collective R307); a
leaf through which it is drained already keeps CW as the end of its drain leaves it. A full area fails the snapshot while
some hart has not cut (R308); after that the store waits until the unit is drained, and what it is part of with it.
DEDUCED, log 50. -/
def State.copyUnit (s : State) (t u : Nat) : State :=
  let p := (s.tenAt t).prop
  if p.full && !p.uncut.isEmpty then s.failSnapshot t 2
  else if p.full then s.modTenAt t fun x => { x with prop := { x.prop with waits := true } }
  else
    let img := s.unitImage u
    let s := p.units.foldl (fun s x => if x.unit = u ∧ !x.drained then (s.setCw x.leafAt true).dropLeaf x.leafAt else s) s
    (s.fillUnit (p.slotUnit p.copied.toNat) img).modTenAt t fun x => { x with prop := { x.prop with
      copied := x.prop.copied + 1
      units := x.prop.units.map fun y =>
        if y.unit = u ∧ y.image = none ∧ !y.drained then { y with image := some p.copied.toNat } else y } }

/-- A store of the work that led to this state has to wait until its unit is drained (13_collective R307). -/
def State.storeWaits (s : State) : Bool := s.tens.any fun p => p.2.prop.waits

/-- The copied image of a unit, as listed bytes of the unit. -/
def State.imageOf (s : State) (p : Propolis) (slot : Nat) : List (Nat × Byte) := s.unitImage (p.slotUnit slot)

/-- Whether a store of a step comes after the cut at N; a host write is later than any (13_collective R306).
DEDUCED, log 58. -/
def afterCut (step : Option Word) (n : BitVec 48) : Bool :=
  match step with
  | none => true
  | some k => decide (n.toNat < k.toNat)

/-- A byte of a copied image with some bits changed (13_collective R307). -/
def State.mixImage (s : State) (p : Propolis) (pa : Nat) (v m : Byte) (slot : Nat) : State :=
  let at_ := 65536 * p.slotUnit slot + pa % 65536
  s.patchByte at_ (mixByte (s.byte at_) v m)

/-- What Propolis does before a store of the bits `m` of a byte `v` (13_collective R307): a unit not yet copied is
copied before the first store past the cut, and a store before the cut also changes those bits of a copied image. -/
def State.beforeStore (s : State) (step : Option Word) (pa : Nat) (v m : Byte) : State :=
  s.tens.foldl (fun s p =>
    let pr := (s.tenAt p.1).prop
    if pr.st = 1 ∨ pr.st = 2 ∨ pr.st = 3 then
      match pr.units.find? fun x => x.unit == pa / 65536 && !x.drained with
      | none => s
      | some x =>
        if afterCut step pr.n then (if x.image = none then s.copyUnit p.1 x.unit else s)
        else match x.image with
          | none => s
          | some i => s.mixImage pr pa v m i
    else s) s

/-! ### Accesses -/

/-- What every store carries: the class policy of its page and its step (08_memory R177, 13_collective R306). -/
structure StoreCtx where
  through : Bool
  step    : Option Word
  deriving DecidableEq, Repr

/-- One write access: where it starts, and its bytes, each with the bits it changes. -/
structure Acc where
  loc   : Loc
  bytes : List (Byte × Byte)
  deriving DecidableEq, Repr

/-- Whole bytes of a number as an access. -/
def Acc.ofNat (loc : Loc) (n v : Nat) : Acc := { loc := loc, bytes := (bytesOf n v).map fun b => (b, 0xFF) }

/-- The bytes of a memory access written one after another. -/
def State.putBytes (s : State) (ctx : StoreCtx) (pa : Nat) : List (Byte × Byte) → State
  | [] => s
  | (v, m) :: r =>
    let b := mixByte (s.byte pa) v m
    ((s.beforeStore ctx.step pa v m).putByte ctx.through pa b).putBytes ctx (pa + 1) r

/-- The mark of a line cleared, with any error in it (08_memory R174). -/
def State.cleanLine (s : State) (l : Nat) : State := { s with marks := sdel s.marks l, latent := sdel s.latent l }

/-- A memory access: in a line with an error that no mark records, a partial write marks the line and writes
nothing there (08_memory R174). -/
def State.writeMem (s : State) (ctx : StoreCtx) (pa : Nat) : List (Byte × Byte) → State
  | [] => s
  | bs =>
    let n := 256 - pa % 256
    let head := bs.take n
    let s := if smem s.latent (lineOf pa) then s.markLine (lineOf pa) else s.putBytes ctx pa head
    match bs.drop n with
    | [] => s
    | rest =>
      if smem s.latent (lineOf pa + 1) then s.markLine (lineOf pa + 1) else s.putBytes ctx (pa + n) rest

/-- The lane-memory word index of a byte address: row times 32 plus bank (08_memory R172). -/
def lmIndex (a : Nat) : Nat := a / 8
/-- A lane-memory word of a core. -/
def Core.lmWord (x : Core) (i : Nat) : Word := mget 0 x.lm i
/-- A lane-memory byte of a core (08_memory R172). -/
def Core.lmByte (x : Core) (a : Nat) : Byte := (x.lmWord (lmIndex a)).extractLsb' (8 * (a % 8)) 8
/-- A lane-memory word written. -/
def Core.setLm (x : Core) (i : Nat) (v : Word) : Core := { x with lm := mput 0 x.lm i v }
/-- A lane-memory byte written. -/
def Core.putLmByte (x : Core) (a : Nat) (v m : Byte) : Core :=
  let sh := 8 * (a % 8)
  let keep := x.lmWord (lmIndex a) &&& ~~~((0xFF : Word) <<< sh)
  x.setLm (lmIndex a) (keep ||| ((mixByte (x.lmByte a) v m).setWidth 64 <<< sh))
/-- The mark of a lane-memory word set (08_memory R174). -/
def Core.markLm (x : Core) (i : Nat) : Core := { x with lmMarks := sadd x.lmMarks i, lmLatent := sdel x.lmLatent i }
/-- The mark of a lane-memory word cleared (08_memory R174). -/
def Core.cleanLm (x : Core) (i : Nat) : Core := { x with lmMarks := sdel x.lmMarks i, lmLatent := sdel x.lmLatent i }

/-- The bytes of an access that lie in one lane-memory word. -/
def Core.putLmBytes (x : Core) (a : Nat) : List (Byte × Byte) → Core
  | [] => x
  | (v, m) :: r => (x.putLmByte a v m).putLmBytes (a + 1) r

/-- A lane-memory access within one word (08_memory R174): all eight bytes clear the mark; part of a word with an
error that no mark records marks it and writes nothing. -/
def Core.writeLmWord (x : Core) (a : Nat) (bs : List (Byte × Byte)) : Core :=
  if bs.length = 8 ∧ bs.all (fun b => b.2 == 0xFF) then (x.cleanLm (lmIndex a)).putLmBytes a bs
  else if smem x.lmLatent (lmIndex a) then x.markLm (lmIndex a)
  else x.putLmBytes a bs

/-- A lane-memory access of any length, word by word. -/
def Core.writeLm (x : Core) : Nat → Nat → List (Byte × Byte) → Core
  | 0, _, _ => x
  | fuel + 1, a, bs =>
    match bs with
    | [] => x
    | bs =>
      let n := 8 - a % 8
      (x.writeLmWord a (bs.take n)).writeLm fuel (a + n) (bs.drop n)

/-- A write access performed; register accesses are not performed here. -/
def State.write (s : State) (ctx : StoreCtx) (a : Acc) : State :=
  match a.loc with
  | .mem pa => s.writeMem ctx pa a.bytes
  | .lm c b => s.modCoreAt c fun x => x.writeLm a.bytes.length b a.bytes
  | .reg _ _ => s

/-- The physical bytes that a memory access changes. -/
def Acc.span (a : Acc) : List Nat :=
  match a.loc with
  | .mem pa => (List.range a.bytes.length).map (pa + ·)
  | _ => []

/-- The lines with a mark or an error that one instruction's accesses cover whole (08_memory R174). -/
def State.coveredLines (s : State) (as : List Acc) : List Nat :=
  let bs := as.flatMap Acc.span
  (s.marks ++ s.latent).filter fun l => (List.range 256).all fun i => bs.contains (256 * l + i)

/-- The write accesses of one instruction performed in order (08_memory R174, R182). -/
def State.writeAll (s : State) (ctx : StoreCtx) (as : List Acc) : State :=
  let s := (s.coveredLines as).foldl State.cleanLine s
  as.foldl (fun s a => s.write ctx a) s

/-- `n` bytes at a place, as a number. Registers are read elsewhere. -/
def State.readLoc (s : State) (loc : Loc) : Nat → Nat
  | 0 => 0
  | n + 1 =>
    match loc with
    | .mem pa => (s.byte pa).toNat + 256 * s.readLoc (.mem (pa + 1)) n
    | .lm c a => ((s.coreAt c).lmByte a).toNat + 256 * s.readLoc (.lm c (a + 1)) n
    | .reg _ _ => 0

/-- The granule of a place carries a mark (08_memory R174). -/
def State.marked (s : State) : Loc → Bool
  | .mem pa => smem s.marks (lineOf pa)
  | .lm c a => smem (s.coreAt c).lmMarks (lmIndex a)
  | .reg _ _ => false
/-- The granule of a place has an error that no mark records (08_memory R174). -/
def State.hasError (s : State) : Loc → Bool
  | .mem pa => smem s.latent (lineOf pa)
  | .lm c a => smem (s.coreAt c).lmLatent (lmIndex a)
  | .reg _ _ => false
/-- The granule of a place marked. -/
def State.mark (s : State) : Loc → State
  | .mem pa => s.markLine (lineOf pa)
  | .lm c a => s.modCoreAt c fun x => x.markLm (lmIndex a)
  | .reg _ _ => s

/-! ### Spaces and translation (08_memory R165-R171) -/

/-- What an access is allowed and how its walk faults are named. -/
structure AccessKind where
  r     : Bool
  w     : Bool
  x     : Bool
  store : Bool
  regs  : Bool
  lane  : Bool
  remote : Bool := false
  deriving DecidableEq, Repr

/-- A scalar load (08_memory R166). -/
def AccessKind.load : AccessKind := { r := true, w := false, x := false, store := false, regs := true, lane := true }
/-- A scalar store. -/
def AccessKind.put : AccessKind := { r := false, w := true, x := false, store := true, regs := true, lane := true }
/-- A scalar AMO. -/
def AccessKind.amo : AccessKind := { r := true, w := true, x := false, store := true, regs := true, lane := true }
/-- An instruction fetch. -/
def AccessKind.fetch : AccessKind := { r := false, w := false, x := true, store := false, regs := false, lane := false }
/-- A vector load. -/
def AccessKind.vload : AccessKind := { r := true, w := false, x := false, store := false, regs := false, lane := true }
/-- A vector store. -/
def AccessKind.vput : AccessKind := { r := false, w := true, x := false, store := true, regs := false, lane := true }
/-- A vector atomic. -/
def AccessKind.vamo : AccessKind := { r := true, w := true, x := false, store := true, regs := false, lane := true }
/-- A remote store (13_collective R300): memory of any device of the pod. -/
def AccessKind.vremote : AccessKind :=
  { r := false, w := true, x := false, store := true, regs := false, lane := false, remote := true }

/-- The space of a virtual address (08_memory R165). -/
inductive Space where
  | translated
  | peer (core a : Nat)
  | own (a : Nat)
  | plural (set row byte : Nat)
  deriving DecidableEq, Repr

/-- The space an address names; none where its selector or a bit that must be zero is wrong (08_memory R165). -/
def spaceOf (va : Word) : Option Space :=
  let v := va.toNat
  match v / 2 ^ 56 with
  | 0x00 => if (v / 2 ^ 48) % 256 = 0 then some .translated else none
  | 0xF0 => if (v / 2 ^ 32) % 2 ^ 24 = 0 ∧ (v / 2 ^ 21) % 8 = 0 then some (.peer (v / 2 ^ 24 % 256) (v % 2 ^ 21)) else none
  | 0xF1 => if (v / 2 ^ 21) % 2 ^ 35 = 0 then some (.own (v % 2 ^ 21)) else none
  | 0xF2 => if (v / 2 ^ 19) % 2 ^ 37 = 0 then some (.plural (v / 2 ^ 16 % 8) (v / 8 % 2 ^ 13) (v % 8)) else none
  | _ => none

/-- A leaf: its entry, its level and where the entry lies. -/
structure Leaf where
  pte   : Word
  level : Nat
  at_   : Nat
  deriving DecidableEq, Repr

/-- The shift and the width of the index of a level (08_memory R168). -/
def levelShift : Nat → Nat × Nat
  | 0 => (35, 13)
  | 1 => (30, 5)
  | 2 => (21, 9)
  | _ => (16, 5)

/-- The size of a level's node (08_memory R168). -/
def nodeSize : Nat → Nat
  | 0 => 65536
  | 2 => 4096
  | _ => 256

/-- How a walk ends without a leaf: a walk fault, an entry in a marked line, or an entry in a line with an error that
no mark records (08_memory R170, R174). -/
inductive WalkStop where
  | fault
  | poison
  | error (line : Nat)
  deriving DecidableEq, Repr

/-- The walk below a node (08_memory R170), `fuel` levels left. An entry is read from this device's memory: bits
[63:47] of its address are dropped. One outside the windows is a walk fault, so that no walk reads or dirties what
another tenancy holds (00_scope R5, 14_system R309). DESIGN CHOICE, log 68. -/
def State.walkFrom (s : State) (ws : List (Nat × Nat × Nat)) (va : Nat) : Nat → Nat → Nat → Except WalkStop Leaf
  | 0, _, _ => .error .fault
  | fuel + 1, level, node =>
    let sh := levelShift level
    let pa := (node + 8 * (va / 2 ^ sh.1 % 2 ^ sh.2)) % 2 ^ 47
    let pte : Word := BitVec.ofNat 64 (s.readMem pa 8)
    if !inWindows ws pa then .error .fault
    else if smem s.marks (lineOf pa) then .error .poison
    else if smem s.latent (lineOf pa) then .error (.error (lineOf pa))
    else if !pte.getLsbD 0 then .error .fault
    else if pte.extractLsb' 1 3 = 0 then
      if level = 3 ∨ pte.extractLsb' 4 4 ≠ 0 then .error .fault
      else
        let next := (pte >>> 8).toNat * 256
        if next % nodeSize (level + 1) ≠ 0 then .error .fault else s.walkFrom ws va fuel (level + 1) next
    else .ok { pte := pte, level := level, at_ := pa }

/-- The walk from a root among windows (08_memory R168, R170). -/
def State.walkIn (s : State) (ws : List (Nat × Nat × Nat)) (root : Word) (va : Nat) : Except WalkStop Leaf :=
  s.walkFrom ws va 4 0 ((root >>> 16).toNat * 65536)
/-- The walk of a tenancy. -/
def State.walk (s : State) (t : Nat) (root : Word) (va : Nat) : Except WalkStop Leaf := s.walkIn (s.tenAt t).wins root va

/-- The leaf an access uses: the one the walk finds, or, where a cached translation differs from it, either
(08_memory R171, log 11). One whose entry lies outside the windows of the tenancy serves no longer (00_scope R5).
DESIGN CHOICE, log 68. -/
def State.leafFor (s : State) (c t : Nat) (root : Word) (va : Nat) : Except WalkStop Leaf :=
  let fresh := s.walk t root va
  match (s.coreAt c).tlb.find? fun e =>
    e.ten.toNat == t && e.root == root && e.page == va / 65536 && s.windowOpen t e.pteAt with
  | none => fresh
  | some e =>
    let old : Leaf := { pte := e.pte, level := e.level, at_ := e.pteAt }
    match fresh with
    | .ok l => if l = old then fresh else if Config.stale s.tick (va / 65536) then .ok old else fresh
    | .error _ => if Config.stale s.tick (va / 65536) then .ok old else fresh

/-- The line whose error a walk of the hart whose turn it is met is marked (08_memory R174): an access that failed with
cause 0x1A at this address leaves that mark. -/
def State.markWalk (s : State) (c : Nat) (root : Word) (code : BitVec 8) (va : Word) : State :=
  if code ≠ 0x1A ∨ va.toNat / 2 ^ 48 ≠ 0 then s
  else match s.leafFor c s.hart.place.ten.toNat root va.toNat with
    | .error (.error l) => s.markLine l
    | _ => s

/-- A completed translation: physical address without its device, class, storage format, rounding, device, and
the leaf's address and D bit. -/
structure Tr where
  pa   : Nat
  dev  : Nat
  cls  : BitVec 3
  sf   : Nat
  srm  : Nat
  leaf : Nat
  d    : Bool
  deriving DecidableEq, Repr

/-- The page size of a leaf's level (08_memory R168). -/
def pageBits (level : Nat) : Nat := (levelShift level).1

/-- A leaf applied to an address; none for what the walk faults on (08_memory R170). -/
def leafApply (ten : Nat) (va : Nat) (l : Leaf) : Option Tr :=
  let p := l.pte
  let size := 2 ^ pageBits l.level
  let base := (p >>> 16).toNat * 65536
  let pa := base + va % size
  let off := offsetOf pa
  let ok := match regionOf pa with
    | 0 => decide (off < 2 ^ 40)
    | 1 => decide (off < 2 ^ 42)
    | 2 => decide (ten * 0x10000 ≤ off) && decide (off < ten * 0x10000 + 0x10000)
    | _ => false
  if (p.getLsbD 2 && !p.getLsbD 1) || base % size ≠ 0 || (p.extractLsb' 11 3).toNat > 4 || !ok then none
  else some { pa := pa % 2 ^ 47, dev := pa / 2 ^ 47, cls := p.extractLsb' 8 3, sf := (p.extractLsb' 11 3).toNat,
              srm := (p.extractLsb' 14 2).toNat, leaf := l.at_, d := p.getLsbD 5 }

/-- The walk stage of a check: cause 0x10 or 0x11 (08_memory R170), or that of an entry that cannot be read (R174). -/
def State.walkStage (s : State) (c : Nat) (h : Hart) (k : AccessKind) (va : Nat) : Except (BitVec 8) (Leaf × Tr) :=
  let bad : BitVec 8 := if k.store then 0x11 else 0x10
  match s.leafFor c h.place.ten.toNat h.ptroot va with
  | .error .fault => .error bad
  | .error .poison => .error 0x19
  | .error (.error _) => .error 0x1A
  | .ok l =>
    match leafApply h.place.ten.toNat va l with
    | none => .error bad
    | some t => .ok (l, t)

/-- The permission, device, region and window stage of a check: whether it fails with cause 0x12 (08_memory R170,
15_device R344). -/
def State.permFails (s : State) (h : Hart) (k : AccessKind) (n : Nat) (l : Leaf) (t : Tr) : Bool :=
  (k.r && !l.pte.getLsbD 1) || (k.w && !l.pte.getLsbD 2) || (k.x && !l.pte.getLsbD 3)
  || (!h.trap.system && !l.pte.getLsbD 4)
  || (!k.remote && t.dev != s.mgr.devnum.toNat)
  || (match regionOf t.pa with
      | 2 => !k.regs || (!h.trap.system && n != 4 && n != 8)
      | _ => t.dev == s.mgr.devnum.toNat && !s.windowOpen h.place.ten.toNat t.pa)

/-- A row of the hart's own lane memory lies in its grant (08_memory R172). -/
def Hart.inGrant (h : Hart) (row : Nat) : Bool :=
  decide (h.lmbase.toNat ≤ row) && decide (row < h.lmbase.toNat + h.lmsize.toNat)

/-- A checked part of an access: its address, its place and its translation. -/
structure Part where
  va  : Word
  loc : Loc
  tr  : Option Tr
  deriving DecidableEq, Repr

/-- Where a translated access goes (08_memory R167). -/
def Hart.placeOf (h : Hart) (pa : Nat) : Loc :=
  if regionOf pa = 2 then .reg h.place.ten (offsetOf pa % 0x10000) else .mem pa

/-- A failure of a check: cause and address. -/
abbrev Failure := BitVec 8 × Word

/-- An access cut at the 8-byte boundaries it crosses, first address and length of each part. -/
def partsOf (va : Word) (n : Nat) : List (Word × Nat) :=
  let m := 8 - va.toNat % 8
  if n ≤ m then [(va, n)] else [(va, m), (va + BitVec.ofNat 64 m, n - m)]

/-- Check 1 of a part: the space is one the access may use (08_memory R165, R166). -/
def spaceFails (k : AccessKind) (va : Word) : Bool :=
  match spaceOf va with
  | some .translated => false
  | some (.own _) => !k.lane
  | _ => true

/-- The parts' places after the space, walk, permission and grant checks, each made on every part in turn before
the next (08_memory R183, 04_scalar R97); `n` is the size of the access. -/
def State.checkParts (s : State) (c : Nat) (h : Hart) (k : AccessKind) (n : Nat) (ps : List (Word × Nat)) :
    Except Failure (List Part) :=
  match ps.find? fun p => spaceFails k p.1 with
  | some p => .error (0x12, p.1)
  | none =>
    let walked := ps.map fun p =>
      match spaceOf p.1 with
      | some (.own a) => (p.1, (.ok (.inl a) : Except (BitVec 8) (Nat ⊕ (Leaf × Tr))))
      | _ => (p.1, (s.walkStage c h k p.1.toNat).map .inr)
    match walked.findSome? fun p => match p.2 with
      | .error e => some (e, p.1)
      | .ok _ => none with
    | some f => .error f
    | none =>
      match walked.find? fun p => match p.2 with
        | .ok (.inr lt) => s.permFails h k n lt.1 lt.2
        | _ => false with
      | some p => .error (0x12, p.1)
      | none =>
        match walked.find? fun p => match p.2 with
          | .ok (.inl a) => !h.inGrant (a / 256)
          | _ => false with
        | some p => .error (0x13, p.1)
        | none => .ok (walked.filterMap fun p => match p.2 with
          | .ok (.inl a) => some { va := p.1, loc := .lm c a, tr := none }
          | .ok (.inr lt) => some { va := p.1, tr := some lt.2, loc := h.placeOf lt.2.pa }
          | .error _ => none)

/-- The poison and error checks of a load, in that order over all parts (04_scalar R97, 08_memory R183). The
granule of a fresh error is marked. -/
def State.checkRead (s : State) (ps : List Part) : Option (Failure × State) :=
  match ps.find? fun p => s.marked p.loc with
  | some p => some ((0x19, p.va), s)
  | none =>
    match ps.find? fun p => s.hasError p.loc with
    | some p => some ((0x1A, p.va), s.mark p.loc)
    | none => none

/-- The translation of a part kept in the core's MMU (08_memory R171). -/
def State.touch (s : State) (c : Nat) (h : Hart) (va : Word) : State :=
  if va.toNat / 2 ^ 48 ≠ 0 then s
  else match s.walk h.place.ten.toNat h.ptroot va.toNat with
    | .error _ => s
    | .ok l =>
      let e : TlbEnt := { root := h.ptroot, page := va.toNat / 65536, pte := l.pte, level := l.level,
                          pteAt := l.at_, ten := h.place.ten }
      if ((s.coreAt c).tlb.any fun x => x.ten == e.ten && x.root == e.root && x.page == e.page) then s
      else s.modCoreAt c fun x => { x with tlb := e :: x.tlb }

/-- D set in the leaf of a store (08_memory R171): an atomic OR at device scope, which the cached translations of that very
entry take over; one of other content stays as it is, never a mixture of the two. In a line with an error that no mark
records it is a partial write: the line is marked and nothing is written (R174). The walk that found the leaf has seen
it in a window of the tenancy (00_scope R5, log 68). -/
def State.setDirtyBit (s : State) (leaf : Nat) : State :=
  let b := s.byte leaf
  let pte : Word := BitVec.ofNat 64 (s.readMem leaf 8)
  if b.getLsbD 5 then s
  else if smem s.latent (lineOf leaf) then s.markLine (lineOf leaf)
  else { s with
    mem := mput memDefault s.mem leaf (b ||| 0x20)
    cores := s.cores.map fun p => (p.1, { p.2 with tlb := p.2.tlb.map fun e =>
      if e.pteAt = leaf ∧ e.pte = pte then { e with pte := e.pte ||| 0x20 } else e }) }

/-- D set for every part of a store whose translation has it clear: where the MMU still serves an entry with D set, the
entry in memory stays as it is (08_memory R171). -/
def State.setDirty (s : State) (ps : List Part) : State :=
  ps.foldl (fun s p => match p.tr with
    | some t => if t.d then s else s.setDirtyBit t.leaf
    | none => s) s

/-- The number read by an access of several parts, the lowest first. -/
def State.readParts (s : State) : List (Part × Nat) → Nat
  | [] => 0
  | (p, n) :: r => s.readLoc p.loc n + 256 ^ n * s.readParts r

/-- The write accesses of a store of several parts. -/
def accsOf : List (Part × Nat) → Nat → List Acc
  | [], _ => []
  | (p, n) :: r, v => Acc.ofNat p.loc n (v % 256 ^ n) :: accsOf r (v / 256 ^ n)

/-! ### Traps (14_system R309-R316) -/

/-- The bits that landed in bound masks since the running word sampled its masks show now (12_engines R284). -/
def Hart.showLanded (h : Hart) : Hart :=
  { h with
    store := { h.store with masks := h.q.landed.foldl (fun m p =>
      mput 0 m (p.1 * 16384 + p.2 / 64) (mget 0 m (p.1 * 16384 + p.2 / 64) ||| ((1 : Word) <<< (p.2 % 64)))) h.store.masks }
    q := { h.q with landed := [] } }

/-- A word that has stopped reads its registers again when it dispatches again (02_stream R45). -/
def Entry.undispatched (x : Entry) : Entry := { x with bval := none }

/-- The queues stop where they stand (14_system R316, 05_harts R125, 11_route R258, R263, 12_engines R286,
13_collective R299): a started convoy leaves its progress in ES0-ES5, a waiting word records element 0 (VLD.C the
first element of its chunk), VTPC takes its address and VP is set. VST.C and VSTR go on to their
acknowledgements (log 21). A convoy that stands from before a trap has stopped already. -/
def Hart.stopQueues (h : Hart) : Hart :=
  let addr := match h.q.vq with
    | e :: _ => e.addr
    | [] => 0
  let stop (es : List Nat) : Hart :=
    { h with
      vec := { h.vec with vp := true, vtpc := addr &&& ~~~7,
                          es := Vector.ofFn fun (i : Fin 6) => BitVec.ofNat 32 (es.getD i.val 0) }
      q := { h.q with flight := none, begun := none, stall := .none, vq := h.q.vq.map Entry.undispatched } }
  match h.q.stall with
  | .vwait _ | .rrecv | .fwait | .cwpw => stop []
  | .vldC _ _ => stop (h.q.flight.getD [])
  | .vstC .. | .vstr .. => h
  | .none =>
    match h.q.flight with
    | some es => if (h.q.vq.take 1).any Entry.pre then h else stop es
    | none => h

/-- A word of the vector queue runs: a convoy under way that no trap has stopped, or a word that waits. -/
def Hart.wordRuns (k : Hart) : Bool := k.q.stall != .none || (k.q.flight.isSome && !(k.q.vq.take 1).any Entry.pre)

/-- A word of several grants has begun and has not completed (05_harts R127): it is never interrupted (08_memory R199,
12_engines R269, 14_system R316). -/
def Hart.sequencing (k : Hart) : Bool :=
  k.q.begun.isSome && k.q.flight.isSome && k.q.stall == .none && !(k.q.vq.take 1).any Entry.pre

/-- A debug halt (14_system R333): the hart stops as for a pre-emption, and no trap register changes. -/
def Hart.halt (h : Hart) : Hart := { h.stopQueues.showLanded with wait := .none, halted := true, dbgStep := false }

/-- Taking a trap (14_system R313): SEPC, SCAUSE and STVAL written, SPP and SPIE saved, system level, the PC at
STVEC; VP set for a trap of the queues; the words in the queues start nothing more and their holds are released
(02_stream R45); a wait of the scalar stream is withdrawn (05_harts R121); a single step not taken is dropped
(R314). -/
def Hart.enterTrap (h : Hart) (src : BitVec 2) (code : BitVec 8) (tval : Word) : Hart :=
  let h := h.stopQueues.showLanded
  { h with
    pc := h.trap.stvec &&& ~~~3
    trap := { h.trap with
      system := true, sepc := h.pc, scause := src ++ code, stval := tval
      spp := h.trap.system, spie := h.trap.sie, sie := false, stepped := none, taken := h.trap.taken + 1 }
    vec := { h.vec with vp := h.vec.vp || src = 1 || src = 2 }
    q := { h.q with vq := h.q.vq.map fun e => { e.undispatched with pre := true }
                    cq := h.q.cq.map fun e => { e with pre := true }
                    owed := h.q.owed.map fun o => { o with pre := true } }
    wait := .none }

/-- A trap taken by the hart whose turn it is. -/
def State.enterTrap (s : State) (src : BitVec 2) (code : BitVec 8) (tval : Word) : State :=
  s.modHart fun h => h.enterTrap src code tval

/-- The convoy at the head of the vector queue goes on from ES0-ES5 (14_system R321, R317); with all of them 0 none has
started. A word that only waits for its acknowledgements has not stopped (log 21). -/
def Hart.restart (h : Hart) : Hart :=
  let es := h.vec.es.toList.map BitVec.toNat
  { h with
    vec := { h.vec with vp := false }
    q := { h.q with flight := if h.q.stall != .none then h.q.flight
                                else if h.q.vq.isEmpty || es.all (· == 0) then none else some es } }

/-- The shared steps of TRET and VRET after their checks (14_system R321): with VRET, VP set and VS not OFF, VP
is cleared and the stopped convoy goes on from ES0-ES5; the level, SIE and the PC come back; the words in the
queues start and hold again, all of them, also those that stood from before an outer trap (19_prog_switch R364). DESIGN CHOICE,
log 126. -/
def Hart.returnTrap (h : Hart) (vret : Bool) : Hart :=
  let h := if vret ∧ h.vec.vp ∧ h.vec.vs ≠ 0 then h.restart else h
  { h with
    pc := h.trap.sepc
    trap := { h.trap with system := h.trap.spp, sie := h.trap.spie }
    q := { h.q with vq := h.q.vq.map fun e => { e with pre := false }
                    cq := h.q.cq.map fun e => { e with pre := false }
                    owed := h.q.owed.map fun o => { o with pre := false } } }

/-- A trap of the vector queue that a machine check left pending is ready: the queues start again (14_system R314, R330). -/
def Hart.owing (h : Hart) : Bool := h.vec.vs != 0 && h.q.owed.any fun o => !o.pre

end Sys2Proof.Machine
end

