-- ==== Sys2Proof/Machine/Flags.lean ====
section
/-! DEFINITION. The status bits that instructions set as they go: VSTAT.VS and VDIRTY (14_system R329, R330), the
sticky VSTAT.PE and PFAULT (08_memory R197, R198), and the control registers as numbers. The machine has no
arithmetic flags (06_varith R134). -/

namespace Sys2Proof.Machine

/-- A committed write moves VS from INITIAL or CLEAN to DIRTY (14_system R330). -/
def vsDirty (vs : BitVec 2) : BitVec 2 := if vs = 1 ∨ vs = 2 then 3 else vs

/-- A vector register was written (14_system R329, R330). -/
def Hart.dirtyReg (h : Hart) (r : Nat) : Hart :=
  h.modVec fun v => { v with dirtyV := v.dirtyV ||| ((1 : BitVec 32) <<< r), vs := vsDirty v.vs }
/-- A mask register was written (14_system R329, R330). -/
def Hart.dirtyMask (h : Hart) (m : Nat) : Hart :=
  h.modVec fun v => { v with dirtyM := v.dirtyM ||| ((1 : BitVec 8) <<< m), vs := vsDirty v.vs }
/-- A tile register was written (14_system R329, R330). -/
def Hart.dirtyTile (h : Hart) (t : Nat) : Hart :=
  h.modVec fun v => { v with dirtyT := v.dirtyT ||| ((1 : BitVec 8) <<< t), vs := vsDirty v.vs }

/-- VSTAT (14_system R328). -/
def VecRegs.vstat (v : VecRegs) : Word :=
  (v.bpc.setWidth 64 <<< 12) ||| ((BitVec.ofBool v.vp).setWidth 64 <<< 4) ||| ((BitVec.ofBool v.pe).setWidth 64 <<< 3)
    ||| v.vs.setWidth 64
/-- VDIRTY (14_system R329). -/
def VecRegs.vdirty (v : VecRegs) : Word :=
  (v.dirtyT.setWidth 64 <<< 40) ||| (v.dirtyM.setWidth 64 <<< 32) ||| v.dirtyV.setWidth 64
/-- PFAULT (08_memory R198). -/
def VecRegs.pfault (v : VecRegs) : Word :=
  ((BitVec.ofBool v.pfV).setWidth 64 <<< 63) ||| (v.pfRow.setWidth 64 <<< 32) ||| v.pfBanks.setWidth 64
/-- SSTATUS (14_system R310). -/
def TrapRegs.sstatus (t : TrapRegs) : Word :=
  ((BitVec.ofBool t.dbg).setWidth 64 <<< 7) ||| ((BitVec.ofBool t.step).setWidth 64 <<< 4)
    ||| ((BitVec.ofBool t.spie).setWidth 64 <<< 3) ||| ((BitVec.ofBool t.sie).setWidth 64 <<< 2)
    ||| (BitVec.ofBool t.spp).setWidth 64
/-- INBOX (11_route R243). -/
def Inbox.word (i : Inbox) : Word :=
  (i.head.setWidth 64 <<< 56) ||| (i.count.setWidth 64 <<< 47) ||| (i.w.setWidth 64 <<< 33)
    ||| (i.cap.setWidth 64 <<< 24) ||| i.base.setWidth 64
/-- The fields of a value written to INBOX (11_route R243). -/
def Inbox.ofWord (w : Word) : Inbox :=
  { head := w.extractLsb' 56 8, count := w.extractLsb' 47 9, w := w.extractLsb' 33 11, cap := w.extractLsb' 24 9,
    base := w.extractLsb' 0 13 }
/-- The lane-memory rows of an inbox slot (11_route R243). -/
def slotRows (w : Nat) : Nat := (16 + 4 * w + 255) / 256
/-- The conditions a written INBOX must meet (11_route R243). -/
def Inbox.legal (i : Inbox) (h : Hart) : Bool :=
  let top := i.base.toNat + i.cap.toNat * slotRows i.w.toNat
  decide (1 ≤ i.w.toNat) && decide (i.w.toNat ≤ 1024) && decide (i.cap.toNat ≤ 256)
    && (decide (i.head.toNat < i.cap.toNat) || i.head == 0) && decide (i.count.toNat ≤ i.cap.toNat)
    && (i.cap == 0 || (decide (h.lmbase.toNat ≤ i.base.toNat) && decide (top ≤ h.lmbase.toNat + h.lmsize.toNat)))
/-- FDESC (11_route R246). -/
def Frame.word (f : Frame) : Word :=
  (f.gen.setWidth 64 <<< 62) ||| (f.st.setWidth 64 <<< 60) ||| (f.owner.setWidth 64 <<< 57)
    ||| (f.timeout.setWidth 64 <<< 33) ||| (f.w.setWidth 64 <<< 22) ||| (f.maxr.setWidth 64 <<< 13)
    ||| f.base.setWidth 64
/-- FSTAT (11_route R247). -/
def Core.fstat (x : Core) : Word :=
  (x.lost.setWidth 64 <<< 32) ||| (x.stale.setWidth 64 <<< 16) ||| x.late.setWidth 64
/-- A count that stops at 0xFFFF (11_route R247). -/
def satInc (c : BitVec 16) : BitVec 16 := if c = 0xFFFF then c else c + 1
/-- The bound masks of a hart, ECAP.BOUND (12_engines R271). -/
def Hart.boundMasks (h : Hart) : BitVec 8 :=
  h.store.binds.foldl (fun b p => if p.2.bound then b ||| ((1 : BitVec 8) <<< p.1) else b) 0
/-- ECAP (12_engines R271). -/
def Hart.ecapWord (h : Hart) : Word := (h.boundMasks.setWidth 64 <<< 56) ||| h.ecap.setWidth 64
/-- PART (05_harts R109). -/
def Hart.part (h : Hart) (hid : Nat) : Word :=
  (h.place.lcore.setWidth 64 <<< 32) ||| BitVec.ofNat 64 (hid * h.lanes * 65536) ||| BitVec.ofNat 64 (h.lanes * 256)
    ||| h.place.h.setWidth 64

end Sys2Proof.Machine
end

