-- ==== Sys2Proof/Machine/Value.lean ====
section
/-! DEFINITION. Values, formats and rounding (03_formats R65, R66, R74-R78), and exact arithmetic on values
(06_varith R132, R133, R140, R142). -/

namespace Sys2Proof.Machine

/-! ### Values -/

/-- A value: NaN, an infinity, or a real. `num neg n e st` stands for a real of sign `neg` and magnitude
n·2^e; with `st` the magnitude lies strictly between n·2^e and (n + 1)·2^e. A zero keeps its sign. -/
inductive Val where
  | nan
  | inf (neg : Bool)
  | num (neg : Bool) (n : Nat) (e : Int) (st : Bool)
  deriving DecidableEq, Repr

/-- The zero of a sign. -/
def Val.zero (neg : Bool) : Val := .num neg 0 0 false

/-- An integer; zero carries sign + (06_varith R132). DEDUCED, log 83. -/
def Val.ofInt (i : Int) : Val := .num (decide (i < 0)) i.natAbs 0 false

/-- Whether the value is a zero. -/
def Val.isZero : Val → Bool
  | .num _ 0 _ false => true
  | _ => false

/-- The sign; NaN has sign +. -/
def Val.neg : Val → Bool
  | .nan => false
  | .inf s => s
  | .num s _ _ _ => s

/-- The number of bits of a natural number. -/
def bitLen (n : Nat) : Nat := if n = 0 then 0 else n.log2 + 1

/-- n·2^k for an integer k that is not negative; 0 bits are shifted in. -/
def shl (n : Nat) (k : Int) : Nat := n <<< k.toNat

/-! ### Formats (R65) -/

/-- A floating format: exponent bits, mantissa bits, bias, whether it has infinities, whether it has a NaN, and
the zero bits kept below its pattern. -/
structure FloatFmt where
  eb   : Nat
  mb   : Nat
  bias : Nat
  infs : Bool
  nans : Bool
  low  : Nat
  deriving DecidableEq, Repr

/-- The floating formats by code. -/
def floatFmt : Nat → Option FloatFmt
  | 0 => some { eb := 8, mb := 23, bias := 127, infs := true, nans := true, low := 0 }
  | 1 => some { eb := 8, mb := 10, bias := 127, infs := true, nans := true, low := 13 }
  | 2 => some { eb := 5, mb := 10, bias := 15, infs := true, nans := true, low := 0 }
  | 3 => some { eb := 8, mb := 7, bias := 127, infs := true, nans := true, low := 0 }
  | 4 => some { eb := 5, mb := 2, bias := 15, infs := true, nans := true, low := 0 }
  | 5 => some { eb := 4, mb := 3, bias := 7, infs := false, nans := true, low := 0 }
  | 6 => some { eb := 3, mb := 2, bias := 3, infs := false, nans := false, low := 0 }
  | 7 => some { eb := 2, mb := 3, bias := 1, infs := false, nans := false, low := 0 }
  | 8 => some { eb := 2, mb := 1, bias := 1, infs := false, nans := false, low := 0 }
  | _ => none

/-- The integer formats by code: width and whether signed. -/
def intFmt : Nat → Option (Nat × Bool)
  | 0x09 => some (8, true)
  | 0x0A => some (8, false)
  | 0x0B => some (4, true)
  | 0x0C => some (4, false)
  | 0x0D => some (2, true)
  | 0x10 => some (16, true)
  | 0x11 => some (16, false)
  | 0x12 => some (32, true)
  | 0x13 => some (32, false)
  | _ => none

/-- The memory width of a format in bits, which is the value width of the formats (R65, 06_varith R143). -/
def memWidth : Nat → Nat
  | 0x00 | 0x01 | 0x12 | 0x13 => 32
  | 0x02 | 0x03 | 0x10 | 0x11 => 16
  | 0x04 | 0x05 | 0x09 | 0x0A | 0x14 => 8
  | 0x06 | 0x07 => 6
  | 0x08 | 0x0B | 0x0C => 4
  | 0x0D | 0x0E => 2
  | _ => 1

/-- The container width of a format in bits (R65). A reserved code, which R65 gives no container, counts as one of 4 bits in
the checks that come before its cause 0x05: the slots of 0x03 and the groups of 0x06 (02_stream R55, R71). DESIGN CHOICE,
log 111. -/
def contWidth : Nat → Nat
  | 0x00 | 0x01 | 0x12 | 0x13 => 32
  | 0x02 | 0x03 | 0x10 | 0x11 => 16
  | 0x04 | 0x05 | 0x09 | 0x0A | 0x14 => 8
  | 0x06 | 0x07 => 6
  | _ => 4

/-- A two's-complement reading of the low `w` bits. -/
def sintOf (w p : Nat) : Int :=
  let q := p % 2 ^ w
  if q < 2 ^ (w - 1) then q else (q : Int) - 2 ^ w

/-- What is read of the bits of a container (R67): of the formats held in a 4-bit container that are narrower, the unused bits
are ignored, and INT2 is sign-extended from its bit 1. DEDUCED, log 94. -/
def readPat (fmt p : Nat) : Nat :=
  match fmt with
  | 0x0D => if p / 2 % 2 = 1 then 12 + p % 4 else p % 4
  | 0x0E => p % 4
  | 0x0F => p % 2
  | _ => p

/-- The value of a floating pattern (R66). -/
def floatValue (f : FloatFmt) (p : Nat) : Val :=
  let q := p >>> f.low
  let m := q % 2 ^ f.mb
  let e := (q >>> f.mb) % 2 ^ f.eb
  let s := (q >>> (f.mb + f.eb)) % 2 = 1
  let top := 2 ^ f.eb - 1
  if e = 0 then .num s m (1 - (f.bias : Int) - f.mb) false
  else if e = top ∧ f.infs then (if m = 0 then .inf s else .nan)
  else if e = top ∧ f.nans ∧ m = 2 ^ f.mb - 1 then .nan
  else .num s (2 ^ f.mb + m) ((e : Int) - f.bias - f.mb) false

/-- The value of a pattern in a format (R66): bits above the value width are not read. -/
def value (fmt p : Nat) : Val :=
  match floatFmt fmt with
  | some f => floatValue f p
  | none =>
    match intFmt fmt with
    | some (w, true) => .ofInt (sintOf w p)
    | some (w, false) => .ofInt (p % 2 ^ w)
    | none =>
      match fmt with
      | 0x0E => .ofInt (match p % 4 with
        | 1 => 1
        | 3 => -1
        | _ => 0)
      | 0x0F => .ofInt (if p % 2 = 0 then 1 else -1)
      | _ => if p % 256 = 255 then .nan else .num false 1 ((p % 256 : Nat) - 127) false

/-- The integer that an integer pattern holds. -/
def intValue (fmt p : Nat) : Int :=
  match intFmt fmt with
  | some (w, true) => sintOf w p
  | some (w, false) => (p % 2 ^ w : Nat)
  | none => 0

/-! ### Rounding (R74-R76) -/

/-- What rounding must know of the part below a spacing: whether it is zero, how it compares with one half, and
the first 24 bits of it. -/
structure Frac where
  exact : Bool
  half  : Ordering
  f24   : Nat
  deriving DecidableEq, Repr

/-- The part of n·2^-sh below an integer, `st` standing for a little more. -/
def fracOf (n sh : Nat) (st : Bool) : Frac :=
  let rem := n % 2 ^ sh
  { exact := rem = 0 ∧ st = false
    half := if sh = 0 then .lt
      else if rem < 2 ^ (sh - 1) then .lt
      else if rem = 2 ^ (sh - 1) ∧ st = false then .eq else .gt
    f24 := (rem <<< 24) >>> sh }

/-- Whether rounding goes away from zero (R74, R78): `rm` the mode, `odd` whether the nearer neighbour has an odd
last bit, `r` the 24 random bits. -/
def awayFromZero (rm : Nat) (neg odd : Bool) (f : Frac) (r : Nat) : Bool :=
  if f.exact then false
  else match rm with
    | 0 => f.half = .gt || (f.half = .eq && odd)
    | 1 => false
    | 2 => neg
    | 3 => !neg
    | 4 => f.half != .lt
    | _ => decide (r < f.f24)

/-- The floor of log2 of n·2^e, n not 0. -/
def ilog (n : Nat) (e : Int) : Int := e + (bitLen n : Int) - 1

/-- The integer magnitude of n·2^e at spacing 2^q, rounded (R74). -/
def roundAt (q : Int) (rm : Nat) (r : Nat) (neg : Bool) (n : Nat) (e : Int) (st : Bool) : Nat :=
  if q ≤ e then
    let m := shl n (e - q)
    m + (if awayFromZero rm neg (m % 2 = 1) (fracOf 0 1 st) r then 1 else 0)
  else
    let sh := (q - e).toNat
    let m := n >>> sh
    m + (if awayFromZero rm neg (m % 2 = 1) (fracOf n sh st) r then 1 else 0)

/-- The pattern of the largest finite magnitude of a floating format. -/
def maxPat (f : FloatFmt) : Nat :=
  if f.infs then (2 ^ f.eb - 1) * 2 ^ f.mb - 1
  else if f.nans then 2 ^ (f.eb + f.mb) - 2 else 2 ^ (f.eb + f.mb) - 1

/-- A pattern with its sign put in. -/
def signed (f : FloatFmt) (neg : Bool) (p : Nat) : Nat := p + (if neg then 2 ^ (f.eb + f.mb) else 0)

/-- The canonical NaN of a floating format, +0 where it has none (R75). -/
def nanPat (f : FloatFmt) : Nat :=
  if f.infs then (2 ^ f.eb - 1) * 2 ^ f.mb + 2 ^ (f.mb - 1)
  else if f.nans then 2 ^ (f.eb + f.mb) - 1 else 0

/-- What stands for an infinity without saturation (R75). -/
def infPat (f : FloatFmt) (neg : Bool) : Nat :=
  if f.infs then signed f neg ((2 ^ f.eb - 1) * 2 ^ f.mb)
  else if f.nans then nanPat f else signed f neg (maxPat f)

/-- An overflow (R75). -/
def overflowPat (f : FloatFmt) (rm : Nat) (sat neg : Bool) : Nat :=
  if sat then signed f neg (maxPat f)
  else match rm with
    | 1 => signed f neg (maxPat f)
    | 2 => if neg then infPat f neg else signed f neg (maxPat f)
    | 3 => if neg then signed f neg (maxPat f) else infPat f neg
    | _ => infPat f neg

/-- Rounding into a floating format (R74, R75). -/
def roundFloat (f : FloatFmt) (rm : Nat) (sat : Bool) (r : Nat) (v : Val) : Nat :=
  let p := match v with
    | .nan => nanPat f
    | .inf neg => if sat then signed f neg (maxPat f) else infPat f neg
    | .num neg n e st =>
      let qmin : Int := 1 - (f.bias : Int) - f.mb
      let q := if n = 0 then qmin else max qmin (ilog n e - f.mb)
      let m := if n = 0 ∧ st = false then 0 else roundAt q rm r neg n e st
      let pat := (q - qmin).toNat * 2 ^ f.mb + m
      if pat > maxPat f then overflowPat f rm sat neg else signed f neg pat
  p <<< f.low

/-- Rounding into an integer format (R76). -/
def roundInt (w : Nat) (sgn : Bool) (rm : Nat) (sat : Bool) (r : Nat) (v : Val) : Nat :=
  let least : Int := if sgn then -2 ^ (w - 1) else 0
  let most : Int := if sgn then 2 ^ (w - 1) - 1 else 2 ^ w - 1
  let i : Int := match v with
    | .nan => 0
    | .inf neg => if neg then least else most
    | .num neg n e st =>
      let m : Int := roundAt 0 rm r neg n e st
      let x := if neg then -m else m
      if sat then max least (min most x) else x
  (i % 2 ^ w).toNat

/-- Rounding into TERN (R76). -/
def roundTern (rm : Nat) (r : Nat) (v : Val) : Nat :=
  match v with
  | .nan => 0
  | .inf neg => if neg then 3 else 1
  | .num neg n e st => if roundAt 0 rm r neg n e st = 0 then 0 else if neg then 3 else 1

/-- Rounding into E8M0 (R76). -/
def roundScale (rm : Nat) (sat : Bool) (r : Nat) (v : Val) : Nat :=
  match v with
  | .nan => 0xFF
  | .inf neg => if neg then 0xFF else if sat then 0xFE else 0xFF
  | .num neg n e st =>
    if neg ∨ n = 0 then 0xFF
    else
      let k := ilog n e
      let sh := bitLen n - 1
      let up := awayFromZero rm false (k % 2 = 0) (fracOf n sh st) r
      let p := k + 127 + (if up then 1 else 0)
      if p < 0 then 0 else if p > 254 then (if sat then 0xFE else 0xFF) else p.toNat

/-- round(x, fmt, rm) (R74-R76), with SAT and the 24 random bits of R78. -/
def round (fmt rm : Nat) (sat : Bool) (r : Nat) (v : Val) : Nat :=
  match floatFmt fmt with
  | some f => roundFloat f rm sat r v
  | none =>
    match intFmt fmt with
    | some (w, s) => roundInt w s rm sat r v
    | none =>
      match fmt with
      | 0x0E => roundTern rm r v
      | 0x0F => if v.neg then 1 else 0
      | _ => roundScale rm sat r v

/-- One step of the stochastic generator (R78). -/
def seedNext (x : Word) : Word :=
  let x := x ^^^ (x <<< 13)
  let x := x ^^^ (x >>> 7)
  x ^^^ (x <<< 17)

/-- A call of round() for an active element: under SR it is a rounding event and steps the generator (R78, R79). -/
def roundEv (fmt rm : Nat) (sat : Bool) (seed : Word) (v : Val) : Nat × Word :=
  if rm = 5 then
    let x := seedNext seed
    (round fmt 5 sat ((x >>> 40).toNat % 2 ^ 24) v, x)
  else (round fmt rm sat 0 v, seed)

/-! ### Exact arithmetic (06_varith R132, R133) -/

/-- The value with its sign turned. -/
def Val.negate : Val → Val
  | .nan => .nan
  | .inf s => .inf (!s)
  | .num s n e st => .num (!s) n e st

/-- The magnitude. -/
def Val.abs : Val → Val
  | .nan => .nan
  | .inf _ => .inf false
  | .num _ n e st => .num false n e st

/-- Scaled by a power of two. -/
def Val.scale (k : Int) : Val → Val
  | .num s n e st => .num s n (e + k) st
  | v => v

/-- The exact product (R132, R133). -/
def Val.mul (a b : Val) : Val :=
  match a, b with
  | .nan, _ | _, .nan => .nan
  | .inf s, b => if b.isZero then .nan else .inf (s != b.neg)
  | a, .inf s => if a.isZero then .nan else .inf (s != a.neg)
  | .num s n e _, .num t m f _ => .num (s != t) (n * m) (e + f) false

/-- The signed integer of a value in units of 2^e0, with e0 not above its exponent. -/
def Val.units (e0 : Int) : Val → Int
  | .num s n e _ => if s then -(shl n (e - e0) : Int) else shl n (e - e0)
  | _ => 0

/-- The least exponent among the reals. -/
def leastExp (vs : List Val) : Int :=
  vs.foldl (fun e v => match v with
    | .num _ _ f _ => min e f
    | _ => e) 0

/-- The exact sum of terms (R132, R133); `rdn` says that the rounding mode is RDN. Of no terms it is +0. -/
def sumV (rdn : Bool) (vs : List Val) : Val :=
  if vs.any (fun v => v == .nan) then .nan
  else if vs.any (fun v => v == .inf false) ∧ vs.any (fun v => v == .inf true) then .nan
  else if vs.any (fun v => v == .inf false) then .inf false
  else if vs.any (fun v => v == .inf true) then .inf true
  else if vs.all Val.isZero then
    .zero (if vs.isEmpty then false else vs.all Val.neg || (rdn && vs.any Val.neg))
  else
    let e := leastExp vs
    let t : Int := vs.foldl (fun a v => a + v.units e) 0
    if t = 0 then .zero rdn else .num (decide (t < 0)) t.natAbs e false

/-- The exact sum of two values. -/
def Val.add (rdn : Bool) (a b : Val) : Val := sumV rdn [a, b]

/-- The quotient (R132), to 400 bits and more with what is left marked. A zero quotient of 0 by a finite value has the
exclusive-or of the signs (R133). DESIGN CHOICE, log 101. -/
def Val.div (a b : Val) : Val :=
  match a, b with
  | .nan, _ | _, .nan => .nan
  | .inf _, .inf _ => .nan
  | .inf s, b => .inf (s != b.neg)
  | .num s _ _ _, .inf t => .zero (s != t)
  | .num s n e _, .num t m f _ =>
    if m = 0 then (if n = 0 then .nan else .inf (s != t))
    else if n = 0 then .zero (s != t)
    else
      let k := 400 + bitLen m
      let q := (n <<< k) / m
      .num (s != t) q (e - f - k) (decide ((n <<< k) % m ≠ 0))

/-- The integer square root, bit by bit from bit `b` down. -/
def isqrtFrom (n : Nat) : Nat → Nat → Nat
  | 0, r => if (r + 1) * (r + 1) ≤ n then r + 1 else r
  | b + 1, r =>
    let t := r + 2 ^ (b + 1)
    isqrtFrom n b (if t * t ≤ n then t else r)

/-- The integer square root. -/
def isqrt (n : Nat) : Nat := isqrtFrom n (bitLen n / 2) 0

/-- The square root (R142). -/
def Val.sqrt : Val → Val
  | .nan => .nan
  | .inf s => if s then .nan else .inf false
  | .num s n e _ =>
    if n = 0 then .zero s
    else if s then .nan
    else
      let k : Nat := 600 + (e % 2).toNat
      let x := n <<< k
      let q := isqrt x
      .num false q ((e - k) / 2) (decide (q * q ≠ x))

/-- The reciprocal (R142). -/
def Val.rcp (v : Val) : Val := Val.div (.num false 1 0 false) v

/-- The reciprocal square root (R142). -/
def Val.rsqrt : Val → Val
  | .nan => .nan
  | .inf s => if s then .nan else .zero false
  | .num s n e _ =>
    if n = 0 then .inf s
    else if s then .nan
    else
      let k0 := 800 + bitLen n
      let k : Nat := k0 + ((e + k0) % 2).toNat
      let q := isqrt (2 ^ k / n)
      .num false q ((-e - k) / 2) (decide (q * q * n ≠ 2 ^ k))

/-- artanh(a / b) in units of 2^-p by `terms` terms of its series. -/
def atanhFix (p a b : Nat) (terms : Nat) : Nat :=
  let z := (a <<< p) / b
  let z2 := (z * z) >>> p
  ((List.range terms).foldl (fun (acc : Nat × Nat) j => (acc.1 + acc.2 / (2 * j + 1), (acc.2 * z2) >>> p)) (0, z)).1

/-- ln 2 in units of 2^-p. -/
def ln2Fix (p : Nat) : Nat := 2 * atanhFix p 1 3 p

/-- e^t in units of 2^-p, t in the same units and below 1. -/
def expFix (p t : Nat) : Nat :=
  ((List.range p).foldl (fun (acc : Nat × Nat) j => (acc.1 + acc.2, ((acc.2 * t) >>> p) / (j + 1))) (0, 1 <<< p)).1

/-- The first of several precisions at which a computed magnitude is settled: its floor after 64 guard bits is
the same 2^32 units below and above. UNVERIFIED, log 66. -/
def settle (f : Nat → Nat) : List Nat → Nat × Nat
  | [] => (0, 0)
  | [p] => (f p >>> 64, p - 64)
  | p :: r =>
    let x := f p
    if (x - 2 ^ 32) >>> 64 = (x + 2 ^ 32) >>> 64 then (x >>> 64, p - 64) else settle f r

/-- The precisions tried. UNVERIFIED, log 66. -/
def precisions : List Nat := [320, 512, 1024]

/-- 2^x (R142). An exponent beyond 1,000 in magnitude is beyond every destination format. UNVERIFIED, log 66. -/
def Val.exp2 : Val → Val
  | .nan => .nan
  | .inf s => if s then .zero false else .inf false
  | .num s n e _ =>
    if n = 0 then .num false 1 0 false
    else if 0 ≤ e ∨ n % 2 ^ (-e).toNat = 0 then
      let i : Int := if 0 ≤ e then shl n (min e 2000) else (n >>> (-e).toNat : Nat)
      let x := if s then -i else i
      if x > 1000 then .num false 1 1000 false
      else if x < -1000 then .num false 0 (-1000) true
      else .num false 1 x false
    else
      let k := (-e).toNat
      let x : Int := if s then -(n : Int) else n
      let i := x / 2 ^ k
      let fr := (x % 2 ^ k).toNat
      if i > 1000 then .num false 1 1000 true
      else if i < -1000 then .num false 0 (-1000) true
      else
        let y := settle (fun p => expFix p ((fr * ln2Fix p) >>> k)) precisions
        .num false y.1 (i - y.2) true

/-- log2 x (R142). UNVERIFIED, log 66. -/
def Val.log2 : Val → Val
  | .nan => .nan
  | .inf s => if s then .nan else .inf false
  | .num s n e _ =>
    if n = 0 then .inf true
    else if s then .nan
    else
      let b := bitLen n - 1
      let k : Int := e + b
      if n = 2 ^ b then .ofInt k
      else
        -- n = 2^b·m with 1 < m < 2, and ln m = 2·artanh((m - 1)/(m + 1))
        let l := fun p => ((2 * atanhFix p (n - 2 ^ b) (n + 2 ^ b) p) <<< p) / ln2Fix p
        let y := settle (fun p => (k * 2 ^ p + l p).natAbs) precisions
        .num (decide (k < 0)) y.1 (-y.2) true

/-- The order of two values; none when either is NaN; +0 equals −0 (R147). -/
def cmpV (a b : Val) : Option Ordering :=
  match a, b with
  | .nan, _ | _, .nan => none
  | .inf s, .inf t => some (if s = t then .eq else if s then .lt else .gt)
  | .inf s, .num .. => some (if s then .lt else .gt)
  | .num .., .inf t => some (if t then .gt else .lt)
  | a, b =>
    let e := leastExp [a, b]
    some (compare (a.units e) (b.units e))

/-- The lesser of two values (R140). -/
def minV (a b : Val) : Val :=
  match cmpV a b with
  | none => .nan
  | some .lt => a
  | some .gt => b
  | some .eq => if a.isZero && b.isZero then .zero (a.neg || b.neg) else a

/-- The greater of two values (R140). -/
def maxV (a b : Val) : Val :=
  match cmpV a b with
  | none => .nan
  | some .lt => b
  | some .gt => a
  | some .eq => if a.isZero && b.isZero then .zero (a.neg && b.neg) else a

end Sys2Proof.Machine
end

