-- ==== Sys2Proof/Machine/Operands.lean ====
section
/-! DEFINITION. Vector operands (02_stream R44, 03_formats R67-R73, 06_varith R129-R131): register groups,
elements, masks, the format descriptor; and the form in which every vector instruction gives its meaning. -/

namespace Sys2Proof.Machine

/-! ### The format descriptor (03_formats R72, R73) -/

/-- A format descriptor's fields. -/
structure Descr where
  fa  : Nat
  fb  : Nat
  fc  : Nat
  fd  : Nat
  rm  : Nat
  sat : Bool
  scl : Nat
  deriving DecidableEq, Repr

/-- The descriptor a captured F value holds (R72). -/
def descr (f : Word) : Descr :=
  { fa := (f.extractLsb' 0 5).toNat, fb := (f.extractLsb' 5 5).toNat, fc := (f.extractLsb' 10 5).toNat,
    fd := (f.extractLsb' 15 5).toNat, rm := (f.extractLsb' 20 3).toNat, sat := f.getLsbD 23,
    scl := (f.extractLsb' 24 2).toNat }
/-- A reserved value in some field of a descriptor: cause 0x05 (R73). -/
def descrReserved (f : Word) : Bool :=
  let d := descr f
  f >>> 26 != 0 || decide (d.rm > 5) || decide (d.fa > 0x14) || decide (d.fb > 0x14) || decide (d.fc > 0x14)
    || decide (d.fd > 0x14)

/-- An integer format (06_varith R131). -/
def isInt (f : Nat) : Bool := (0x09 ≤ f && f ≤ 0x0D) || (0x10 ≤ f && f ≤ 0x13)
/-- A format of the value class (06_varith R131). -/
def isValue (f : Nat) : Bool := f ≤ 0x13
/-- A format of the function class (06_varith R131). -/
def isFunc (f : Nat) : Bool := f ≤ 0x03

/-! ### Register storage (05_harts R369, 03_formats R67) -/

/-- CPR, the chunks of a register under a captured NREG (R67, R110). -/
def cpr (h : Hart) (c : Cfg) : Nat := h.lanes * 16384 / c.nreg.toNat
/-- B, the bits of a register (R110). -/
def regBits (h : Hart) (c : Cfg) : Nat := 64 * cpr h c
/-- The elements of a container in a chunk (R67). -/
def perChunk (w : Nat) : Nat := if w = 6 then 10 else 64 / w
/-- The elements of a container in one register, VLMAX of that container (R69, R157). -/
def perReg (h : Hart) (c : Cfg) (w : Nat) : Nat := cpr h c * perChunk w
/-- Elements per group of a container (R110). -/
def epgOf (h : Hart) (w : Nat) : Nat := h.lanes * perChunk w

/-- Where chunk `k` of the group based at register `v` lies in the hart's storage (R67, R369). -/
def chunkIndex (h : Hart) (c : Cfg) (v k : Nat) : Nat := v * cpr h c + k
/-- Chunk `k` of the group based at `v`. -/
def Hart.chunk (h : Hart) (c : Cfg) (v k : Nat) : Word := mget 0 h.store.chunks (chunkIndex h c v k)
/-- Chunk `k` of the group based at `v` carries a mark. -/
def Hart.chunkMarked (h : Hart) (c : Cfg) (v k : Nat) : Bool := smem h.store.poison (chunkIndex h c v k)
/-- Chunk `k` written in part: its mark stays (log 17). -/
def Hart.putChunk (h : Hart) (c : Cfg) (v k : Nat) (x : Word) : Hart :=
  (h.modStore fun t => { t with chunks := mput 0 t.chunks (chunkIndex h c v k) x }).dirtyReg (v + k / cpr h c)
/-- Chunk `k` written whole: it carries the mark given (08_memory R186). -/
def Hart.setChunk (h : Hart) (c : Cfg) (v k : Nat) (x : Word) (marked : Bool) : Hart :=
  (h.putChunk c v k x).modStore fun t => { t with
    poison := if marked then sadd t.poison (chunkIndex h c v k) else sdel t.poison (chunkIndex h c v k) }

/-- Element `e` of container width `w` in the group based at `v` (R67). -/
def Hart.elem (h : Hart) (c : Cfg) (v w e : Nat) : Nat :=
  ((h.chunk c v (e / perChunk w)).toNat >>> (w * (e % perChunk w))) % 2 ^ w
/-- The chunk of element `e` carries a mark. -/
def Hart.elemMarked (h : Hart) (c : Cfg) (v w e : Nat) : Bool := h.chunkMarked c v (e / perChunk w)
/-- Element `e` written; the spare bits of a 6-bit container's chunk are written zero (R67). -/
def Hart.setElem (h : Hart) (c : Cfg) (v w e p : Nat) : Hart :=
  let k := e / perChunk w
  let sh := w * (e % perChunk w)
  let old := (h.chunk c v k).toNat
  let old := if w = 6 then old % 2 ^ 60 else old
  let rest := old - ((old >>> sh) % 2 ^ w) <<< sh
  h.putChunk c v k (BitVec.ofNat 64 (rest + (p % 2 ^ w) <<< sh))

/-! ### Masks (06_varith R129) -/

/-- Where chunk `k` of mask `m` lies. -/
def maskIndex (m k : Nat) : Nat := m * 16384 + k
/-- Chunk `k` of a mask (08_memory R187). -/
def Hart.maskChunk (h : Hart) (m k : Nat) : Word := mget 0 h.store.masks (maskIndex m k)
/-- Bit `e` of a mask. -/
def Hart.maskBit (h : Hart) (m e : Nat) : Bool := (h.maskChunk m (e / 64)).getLsbD (e % 64)
/-- A mask's binding record ends with a write to it, unless it is bound (12_engines R284). -/
def Hart.unbind (h : Hart) (m : Nat) : Hart :=
  h.modStore fun t => { t with binds := t.binds.filter fun p => p.1 != m || p.2.bound }
/-- Where the mark of chunk `k` of mask `m` stands among the marked chunks: above every register chunk. -/
def maskPoison (m k : Nat) : Nat := 2 ^ 32 + maskIndex m k
/-- Chunk `k` of mask `m` carries a mark (08_memory R187). -/
def Hart.maskMarked (h : Hart) (m k : Nat) : Bool := smem h.store.poison (maskPoison m k)
/-- Chunk `k` of a mask written in part: its mark stays (log 17). -/
def Hart.setMaskChunk (h : Hart) (m k : Nat) (x : Word) : Hart :=
  ((h.modStore fun t => { t with masks := mput 0 t.masks (maskIndex m k) x }).dirtyMask m).unbind m
/-- Chunk `k` of a mask written whole: it carries the mark given (08_memory R187). -/
def Hart.setWholeMask (h : Hart) (m k : Nat) (x : Word) (marked : Bool) : Hart :=
  (h.setMaskChunk m k x).modStore fun t => { t with
    poison := if marked then sadd t.poison (maskPoison m k) else sdel t.poison (maskPoison m k) }
/-- Bit `e` of a mask written. -/
def Hart.setMaskBit (h : Hart) (m e : Nat) (b : Bool) : Hart :=
  let old := h.maskChunk m (e / 64)
  let bit : Word := (1 : Word) <<< (e % 64)
  h.setMaskChunk m (e / 64) (if b then old ||| bit else old &&& ~~~bit)
/-- A mask is bound to a copy command (12_engines R284). -/
def Hart.isBound (h : Hart) (m : Nat) : Bool := h.store.binds.any fun p => p.1 == m && p.2.bound

/-- active(e) below VL (00_scope R8): the predicate's bit, where there is a predicate. -/
def Hart.active (h : Hart) (pm : Option (BitVec 3)) (e : Nat) : Bool :=
  match pm with
  | none => true
  | some m => h.maskBit m.toNat e

/-! ### Groups (03_formats R71) -/

/-- An operand group: base register, elements, container width. -/
structure Grp where
  base : Nat
  n    : Nat
  w    : Nat
  deriving DecidableEq, Repr

/-- G, the registers the elements need (R71). -/
def Grp.need (h : Hart) (c : Cfg) (g : Grp) : Nat :=
  max 1 (if g.w = 6 then (g.n + perReg h c 6 - 1) / perReg h c 6 else (g.n * g.w + regBits h c - 1) / regBits h c)
/-- G′, the size of the group (R71). A group that needs more than eight registers has none there, and counts as eight where
cause 0x06 is checked before the 0x05 of its size (02_stream R55). DESIGN CHOICE, log 92. -/
def Grp.size (h : Hart) (c : Cfg) (g : Grp) : Nat :=
  let n := g.need h c
  if n ≤ 1 then 1 else if n ≤ 2 then 2 else if n ≤ 4 then 4 else 8
/-- The size or the alignment is wrong: cause 0x05 (R71). -/
def Grp.bad05 (h : Hart) (c : Cfg) (g : Grp) : Bool := decide (g.need h c > 8) || g.base % g.size h c != 0
/-- A register of the group is not below NREG: cause 0x06 (R71). -/
def Grp.bad06 (h : Hart) (c : Cfg) (g : Grp) : Bool := decide (g.base + g.size h c > c.nreg.toNat)
/-- Two groups share a register. -/
def Grp.meets (h : Hart) (c : Cfg) (g k : Grp) : Bool :=
  decide (g.base < k.base + k.size h c) && decide (k.base < g.base + g.size h c)
/-- Two groups coincide, container and all (06_varith R137). -/
def Grp.same (h : Hart) (c : Cfg) (g k : Grp) : Bool :=
  g.base == k.base && g.size h c == k.size h c && g.w == k.w

/-! ### The form of a vector meaning -/

/-- The pipes an instruction takes in a convoy (02_stream R35, R52). -/
inductive Slot where
  | p | p1 | k | x | l | s
  deriving DecidableEq, Repr

/-- How a run of a vector word ends: every element done; an element fault with its element, cause and STVAL,
everything below it committed; a precise stop with no element; a wait, with the elements done; or done with a trap to
follow (08_memory R198, 13_collective R297). -/
inductive VRes where
  | ok (s : State)
  | fault (e : Nat) (code : BitVec 8) (tval : Word) (s : State)
  | stop (code : BitVec 8) (tval : Word) (s : State)
  | wait (e : Nat) (s : State)
  | after (code : BitVec 8) (tval : Word) (s : State)
  deriving DecidableEq, Repr

/-- What VPACK lets a convoy ask of it, for its progress is counted in source elements and its result in packed ones
(07_rearrange R158): how many elements it has packed of its first sources, and the chunks of its result from some
source on put back as they were in an older state of the hart. -/
structure Pack where
  made : Hart → Nat → Nat
  undo : Hart → Nat → Hart → Hart

/-- The meaning of a vector word with its captured values. The fields are what the dispatch checks read
(02_stream R52-R55) and `run`, which does elements `lo` up to `hi`. DEDUCED, log 20. -/
structure VMeaning where
  /-- The C bit. -/
  c       : Bool := false
  /-- The slots taken (R35). -/
  slots   : List Slot := []
  /-- A single-instruction convoy (R53). -/
  alone   : Bool := false
  /-- A rearrangement instruction, and one of those on the ring (R54, R156). -/
  moves   : Bool := false
  ring    : Bool := false
  /-- Exempt from VTYPE.ILL (05_harts R112). -/
  neutral : Bool := false
  /-- The source and destination groups. -/
  srcs    : List Grp := []
  dsts    : List Grp := []
  /-- Mask registers read and written, and the predicate of the elements that read them. -/
  pm      : Option (BitVec 3) := none
  maskR   : List Nat := []
  maskW   : List Nat := []
  /-- The masks of which an element looks at other bits than its own: those below it, the first that is active, or the
  chunks of a binding record (03_formats R85, 08_memory R184, 12_engines R285). -/
  spread  : List Nat := []
  /-- The scalar written through the scoreboard (R46). -/
  sdest   : Option (BitVec 5) := none
  /-- Checks of cause 0x02, of cause 0x05 besides the groups', and of cause 0x04. -/
  bad02   : Bool := false
  bad05   : Bool := false
  bad04   : Bool := false
  /-- A check before cause 0x06 (11_route R259) and the checks after those of R55. -/
  early   : Option Failure := none
  late    : Option (BitVec 8 × Word × Option Nat) := none
  /-- It can consume generator steps: its descriptor has RM = SR, or it is a vector store (03_formats R79). -/
  steps   : Bool := false
  /-- It accesses memory (10_comb R238) and stores to it (13_collective R306), its order with tile saves and loads counts as for a memory word (11_route R261,
  12_engines R286), and it breaks its convoy (08_memory R190). -/
  memory  : Bool := false
  stores  : Bool := false
  sync    : Bool := false
  broken  : Bool := false
  /-- The shared resources it is granted when it starts or goes on, and those it is granted once it no longer waits
  (05_harts R126, 20_prog_moe R366). -/
  uses    : List Resource := []
  takes   : List Resource := []
  /-- Where the work of one grant ends that starts at an element: a word that takes a grant for each command or row goes on
  with another grant from there (05_harts R127). None where the grant covers the rest. -/
  span    : Nat → Option Nat := fun _ => none
  /-- Never interrupted, or done whole (14_system R316). -/
  whole   : Bool := false
  /-- Its stops record element 0 (14_system R316). -/
  es0     : Bool := false
  /-- The step at which its stops are counted: 1, or the block of VQNT (03_formats R371). -/
  unit    : Nat := 1
  /-- The elements that it stores as one access, which no stop of its convoy divides (09_order R201). -/
  chunk   : Nat := 1
  /-- What it packs, and whether a later word of its convoy reads it (07_rearrange R158). -/
  pack    : Option Pack := none
  feeds   : Bool := false
  /-- The test for a marked mask chunk at an element, where it is not that of the masks it reads (12_engines R285,
  09_order R220). -/
  marksAt : Option (Hart → Nat → Bool) := none
  /-- Its elements or chunks. -/
  len     : Nat := 0
  run     : State → Nat → Nat → VRes := fun s _ _ => .ok s

/-- A loop over elements: `f e` does element e, or stops with cause and STVAL. -/
def elemLoop (f : Nat → State → Except (BitVec 8 × Word × State) State) : Nat → Nat → State → VRes
  | 0, _, s => .ok s
  | n + 1, e, s =>
    match f e s with
    | .ok s => elemLoop f n (e + 1) s
    | .error (code, tval, s) => .fault e code tval s

/-- The loop from `lo` up to `hi`. -/
def elems (f : Nat → State → Except (BitVec 8 × Word × State) State) (s : State) (lo hi : Nat) : VRes :=
  elemLoop f (hi - lo) lo s

/-- What a word of several grants goes on from at an element; none where it starts (05_harts R127). -/
def Hart.goesOnFrom (k : Hart) (lo : Nat) : Option Partway := if lo = 0 then none else k.q.begun
/-- A word of several grants keeps what it has found. -/
def State.keepBegun (s : State) (b : Partway) : State := s.modHart fun k => k.modQ fun q => { q with begun := some b }

/-- An operand read by element: a group under a format, or a scalar's low bits under it (06_varith R131). -/
inductive Opnd where
  | vec (v fmt : Nat)
  | const (p fmt : Nat)
  deriving DecidableEq, Repr

/-- An operand's pattern at an element, as its format reads it from the container (03_formats R67); none where its chunk
carries a mark. DEDUCED, log 94. -/
def Opnd.pat (o : Opnd) (h : Hart) (c : Cfg) (e : Nat) : Option Nat :=
  match o with
  | .vec v f => if h.elemMarked c v (contWidth f) e then none else some (readPat f (h.elem c v (contWidth f) e))
  | .const p _ => some p
/-- An operand's format. -/
def Opnd.fmt : Opnd → Nat
  | .vec _ f | .const _ f => f
/-- An operand's value at an element. -/
def Opnd.val (o : Opnd) (h : Hart) (c : Cfg) (e : Nat) : Option Val := (o.pat h c e).map (value o.fmt)

/-- The operand b of an arithmetic word under format FB (06_varith R131). -/
def bOpnd (b : VSrc) (x : Entry) (fb : Nat) : Opnd :=
  match b with
  | .vec r => .vec r.toNat fb
  | .scal _ => .const (x.sval.toNat % 2 ^ contWidth fb) fb
/-- The group of operand b, where it is a vector. -/
def bGrps (b : VSrc) (n fb : Nat) : List Grp :=
  match b with
  | .vec r => [{ base := r.toNat, n := n, w := contWidth fb }]
  | .scal _ => []

/-- A mark met by an instruction that consumes it: cause 0x19, whose STVAL no rule states for a register chunk
(log 13). -/
def markMet (s : State) : BitVec 8 × Word × State := (0x19, Config.freeWord s.tick, s)

/-- A vector element of the destination rounded into FD and written, a generator step taken under SR
(03_formats R78, R79). -/
def State.putRound (s : State) (c : Cfg) (d : Nat) (q : Descr) (e : Nat) (v : Val) : State :=
  s.modHart fun h =>
    let r := roundEv q.fd q.rm q.sat h.vec.seed v
    (h.modVec fun x => { x with seed := r.2 }).setElem c d (contWidth q.fd) e r.1

/-- The captured VL. -/
def Entry.vl (x : Entry) : Nat := x.cfg.vl.toNat
/-- The captured descriptor. -/
def Entry.fmt (x : Entry) : Descr := descr x.fval
/-- A group of VL elements. -/
def Entry.grp (x : Entry) (r : BitVec 5) (f : Nat) : Grp := { base := r.toNat, n := x.vl, w := contWidth f }

/-- The predicate as a mask that is read. -/
def pmReads (pm : Option (BitVec 3)) : List Nat :=
  match pm with
  | none => []
  | some m => [m.toNat]

/-- Overlap under R137: a destination group meets a source group without coinciding with it. -/
def overlap137 (h : Hart) (c : Cfg) (ds ss : List Grp) : Bool :=
  ds.any fun d => ss.any fun g => d.meets h c g && !d.same h c g
/-- Overlap without R137's exception (07_rearrange R155 and others). -/
def overlapAny (h : Hart) (c : Cfg) (ds ss : List Grp) : Bool := ds.any fun d => ss.any fun g => d.meets h c g

/-- The X slot of a crossing (02_stream R35): the destination container differs from a vector source's.
DEDUCED, log 28. -/
def crossing (ds ss : List Grp) : List Slot :=
  if ds.any fun d => ss.any fun g => d.w != g.w then [.x] else []

end Sys2Proof.Machine
end

