-- ==== Sys2Proof/Machine/Convoy.lean ====
section
/-! DEFINITION. Convoys (02_stream R50-R55, R79, 07_rearrange R156, 08_memory R182, R190, 14_system R316, R317):
the dispatch checks, the run of a convoy with its element faults and stops, and the traps of the queues. -/

namespace Sys2Proof.Machine

/-- A vector meaning waits for its captured values and the state at dispatch. -/
abbrev VM := Entry → State → VMeaning

/-! ### Trace records (15_device R358) -/

/-- A trace record of the hart whose turn it is, where it is traced: kind 0 scalar, 1 convoy, 2 comb word. -/
def State.trace (s : State) (kind : Nat) (addr : Word) : State :=
  if s.mgr.traced = some (s.cc, s.ch) then
    let size := (s.mgr.tracebuf.toNat % 65536) * 65536
    let p := s.mgr.dbgtptr.toNat
    if p + 16 > size then s.modMgr fun m => { m with traced := none }
    else
      let bs := bytesOf 8 addr.toNat ++ bytesOf 4 (kind + 256 * s.ch) ++ bytesOf 4 (Config.clock s.tick).toNat
      let s := s.writeMem { through := false, step := none } (((s.mgr.tracebuf >>> 16).toNat * 65536 + p) % 2 ^ 47)
        (bs.map fun b => (b, 0xFF))
      s.modMgr fun m => { m with dbgtptr := m.dbgtptr + 16 }
  else s

/-! ### Dispatch checks (02_stream R55) -/

/-- The captured VTYPE has ILL = 1 (03_formats R69). -/
def Entry.ill (x : Entry) : Bool := x.cfg.vtype.getLsbD 63

/-- The groups of a word. -/
def VMeaning.grps (m : VMeaning) : List Grp := m.srcs ++ m.dsts
/-- Cause 0x06 (02_stream R55, 03_formats R71). -/
def VMeaning.is06 (m : VMeaning) (h : Hart) (c : Cfg) : Bool := m.grps.any fun g => g.bad06 h c
/-- Cause 0x05 (03_formats R71, R73, 05_harts R112). -/
def VMeaning.is05 (m : VMeaning) (h : Hart) (x : Entry) : Bool :=
  m.bad05 || (m.grps.any fun g => g.bad05 h x.cfg) || (x.ill && !m.neutral)

/-- A word with its meaning. -/
abbrev CWord := Entry × VMeaning

/-- How often a slot is taken. -/
def slotCount (ws : List CWord) (t : Slot) : Nat := (ws.flatMap fun w => w.2.slots).count t

/-- Two meanings write a common vector register, or a common mask register (02_stream R54). -/
def writersMeet (h : Hart) (a b : CWord) : Bool :=
  (a.2.dsts.any fun g => b.2.dsts.any fun k => g.meets h a.1.cfg k) || (a.2.maskW.any fun m => b.2.maskW.contains m)
/-- `b` reads a vector or mask register that `a` writes. -/
def readsFrom (h : Hart) (a b : CWord) : Bool :=
  (a.2.dsts.any fun g => b.2.srcs.any fun k => g.meets h a.1.cfg k) || (a.2.maskW.any fun m => b.2.maskR.contains m)

/-- A word, taken after the words before it, makes the run illegal (02_stream R52-R54, 03_formats R79,
07_rearrange R156, 08_memory R182, 14_system R317). DEDUCED, logs 20 and 28. -/
def breaks03 (h : Hart) (before : List CWord) (w : CWord) : Bool :=
  let ws := before ++ [w]
  decide (ws.length > 6)
  || decide (slotCount ws .p + slotCount ws .p1 > 2) || decide (slotCount ws .p1 > 1) || decide (slotCount ws .k > 1)
  || decide (slotCount ws .x > 1) || decide (slotCount ws .l > 1) || decide (slotCount ws .s > 1)
  || (w.2.alone && (w.2.c || !before.isEmpty)) || (before.any fun b => b.2.alone)
  || (before.any fun b => writersMeet h b w)
  || (w.2.moves && before.any fun b => readsFrom h b w)
  || (before.any fun b => b.2.moves && readsFrom h w b)
  || (before.any fun b => b.2.ring && readsFrom h b w) || (w.2.ring && before.any fun b => readsFrom h w b)
  || ((ws.any fun b => b.2.ring) && (ws.any fun b => b.2.slots.contains .l || b.2.slots.contains .s))
  || decide ((ws.filter fun b => b.2.steps).length > 1)
  || (w.2.slots.contains .l && before.any fun b => b.2.slots.contains .s)

/-- The word that decides cause 0x03 (02_stream R55). -/
def find03 (h : Hart) : List CWord → List CWord → Option CWord
  | _, [] => none
  | before, w :: r => if breaks03 h before w then some w else find03 h (before ++ [w]) r

/-- The first failing dispatch check of a convoy: cause and STVAL (02_stream R55, R312). DEDUCED, log 28. -/
def convoyCheck (h : Hart) (ws : List CWord) : Option Failure :=
  match ws.find? fun w => w.2.bad02 with
  | some w => some (0x02, w.1.addr)
  | none =>
  match find03 h [] ws with
  | some w => some (0x03, w.1.addr)
  | none =>
  match ws.findSome? fun w => w.2.early with
  | some f => some f
  | none =>
  match ws.find? fun w => w.2.is06 h w.1.cfg with
  | some w => some (0x06, w.1.addr)
  | none =>
  match ws.find? fun w => w.2.is05 h w.1 with
  | some w => some (0x05, w.1.addr)
  | none =>
  match ws.find? fun w => w.2.bad04 with
  | some w => some (0x04, w.1.addr)
  | none =>
  (ws.findSome? fun w => w.2.maskW.find? fun m => h.isBound m).map fun m => (0x28, BitVec.ofNat 64 m)

/-- The first failing check of a convoy: those of R55, then the words' own later ones, with their element.
DEDUCED, log 35. -/
def dispatchCheck (h : Hart) (ws : List CWord) : Option (BitVec 8 × Word × Option Nat) :=
  match convoyCheck h ws with
  | some f => some (f.1, f.2, none)
  | none => ws.findSome? fun w => w.2.late

/-! ### The run of a convoy -/

/-- How a convoy ends: done; stopped at a boundary with each word's progress; an element fault with each word's
progress, its element, cause and STVAL; a wait with each word's progress; or a trap to follow once so many words
are done. -/
inductive CRes where
  | done (s : State)
  | stopped (es : List Nat) (s : State)
  | fault (es : List Nat) (e : Option Nat) (code : BitVec 8) (tval : Word) (s : State)
  | wait (es : List Nat) (s : State)
  | after (n : Nat) (code : BitVec 8) (tval : Word) (s : State)
  deriving DecidableEq, Repr

/-- The elements per group of a convoy: of the widest container among its operands (06_varith R136). -/
def convoyEpg (h : Hart) (ms : List VMeaning) : Nat :=
  let w := (ms.flatMap fun m => m.grps.map Grp.w).foldl max 1
  max 1 (epgOf h w)

/-- A count brought up to a unit. -/
def roundUp (u n : Nat) : Nat := (n + u - 1) / u * u
/-- A count brought down to a unit. -/
def roundDown (u n : Nat) : Nat := n / u * u

/-- The element reads a marked chunk of a mask (06_varith R134, log 19). -/
def VMeaning.markAt (m : VMeaning) (k : Hart) (e : Nat) : Bool :=
  match m.marksAt with
  | some f => f k e
  | none => ((pmReads m.pm).any fun r => k.maskMarked r (e / 64))
      || (k.active m.pm e && m.maskR.any fun r => k.maskMarked r (e / 64))

/-- The first element from `lo` on, below `hi`, that reads a marked chunk of a mask. -/
def maskMark (m : VMeaning) (k : Hart) (lo hi : Nat) : Option Nat :=
  if k.store.poison.all fun p => decide (p < 2 ^ 32) then none
  else ((List.range (hi - lo)).map (lo + ·)).find? fun e => m.markAt k e

/-- A word's run from `lo` to `hi`; a word done whole runs to its end. A marked chunk of a mask it reads stops it
there; a word done whole meets it before any other mark. DESIGN CHOICE, log 84. -/
def VMeaning.go (m : VMeaning) (s : State) (lo hi : Nat) : VRes :=
  let hi := if m.whole then m.len else hi
  match maskMark m s.hart lo hi with
  | some e =>
    match (if m.whole ∨ e ≤ lo then .ok s else m.run s lo e) with
    | .ok s => .fault e 0x19 (Config.freeWord s.tick) s
    | r => r
  | none => if lo < hi ∨ (m.whole ∧ m.len = 0) then m.run s lo hi else .ok s

/-- The element fault that decides a convoy (14_system R316): the word's place, the element, the cause, STVAL, and
the lines and lane-memory words whose errors the access marked (08_memory R174). -/
structure Decider where
  k     : Nat
  e     : Nat
  code  : BitVec 8
  tval  : Word
  lines : List Nat
  words : List (Nat × Nat)
  deriving DecidableEq, Repr

/-- The errors of a state that another one records as marks. -/
def Decider.found (s t : State) (k e : Nat) (code : BitVec 8) (tval : Word) : Decider :=
  if code ≠ 0x1A then { k := k, e := e, code := code, tval := tval, lines := [], words := [] }
  else { k := k, e := e, code := code, tval := tval
         lines := s.latent.filter fun l => !smem t.latent l && smem t.marks l
         words := s.cores.flatMap fun p => (p.2.lmLatent.filter fun w =>
           !smem (t.coreAt p.1).lmLatent w && smem (t.coreAt p.1).lmMarks w).map fun w => (p.1, w) }

/-- Those errors marked. -/
def Decider.marks (d : Decider) (s : State) : State :=
  d.words.foldl (fun s w => s.modCoreAt w.1 fun y => y.markLm w.2) (d.lines.foldl State.markLine s)

/-- A store waits for every load of the words before it in its convoy (08_memory R182). -/
def heldStore (before : List VMeaning) (m : VMeaning) : Bool :=
  m.slots.contains .s && !m.slots.contains .l && before.any fun b => b.slots.contains .l

/-- How far the words after one that has recorded `v` may go: no further than a quantising word (03_formats R371),
and over whole groups of what VPACK has packed (07_rearrange R158). DEDUCED, log 77. -/
def VMeaning.capAfter (m : VMeaning) (epg : Nat) (k : Hart) (v : Nat) : Nat :=
  match m.feeds, m.pack with
  | true, some p => min v (roundDown epg (p.made k v))
  | _, _ => v

/-- The first pass over a part of a convoy: each word runs in order up to the limit, the first group of a fault
found so far, and the words it cuts short, bounding the words after it, as a store does that is held back (08_memory
R182): ES values never increase in word order (14_system R316). Answers the state, the decider and the
progress of each word, or how a word done alone ends. -/
def passOne (epg stop : Nat) : List (VMeaning × Nat) → List VMeaning → Option Decider → Nat → List Nat → State →
    VRes ⊕ (State × Option Decider × List Nat)
  | [], _, d, _, es, s => .inr (s, d, es)
  | (m, lo) :: r, before, d, cap, es, s =>
    let top := match d with
      | none => min m.len stop
      | some d => min m.len (roundDown m.unit (epg * (d.e / epg)))
    let held := heldStore before m && (d.isSome || before.any fun b => b.slots.contains .l && decide (stop < b.len))
    let hi := if held then lo else max lo (min cap top)
    match m.go s lo hi with
    | .ok t =>
      let cap := if d.isSome then m.capAfter epg s.hart hi else if held then min cap hi else cap
      passOne epg stop r (before ++ [m]) d cap (es ++ [hi]) t
    | .fault e code tval t =>
      let v := if m.es0 then 0 else roundDown m.unit e
      passOne epg stop r (before ++ [m]) (some (Decider.found s t before.length e code tval))
        (m.capAfter epg s.hart v) (es ++ [v]) t
    | r => .inl r

/-- The progress each word records at an element fault (14_system R316, 08_memory R182, 03_formats R371,
07_rearrange R158), `k` the place of the word and `top` what bounds it. A quantising word before the decider records
whole blocks; a store records the groups that R316 gives, also where they end within a chunk that R201 keeps one store
(09_order R201, R207). DEDUCED, log 77. -/
def faultEs (epg : Nat) (d : Decider) (ms : List VMeaning) (h : Hart) : List (VMeaning × Nat) → Nat → Nat → List Nat
  | [], _, _ => []
  | (m, lo) :: r, k, top =>
    let storeFault := match ms[d.k]? with
      | some x => heldStore (ms.take d.k) x
      | none => false
    let loadLater := (ms.drop k).take (d.k - k)
    let whole (n : Nat) : Nat := if m.len ≤ n then m.len else roundDown m.unit n
    let raw :=
      if k < d.k then
        if storeFault && loadLater.any fun b => b.slots.contains .l then m.len
        else whole (epg * (d.e / epg) + epg)
      else if k = d.k then (if m.es0 then 0 else roundDown m.unit d.e)
      else if heldStore (ms.take k) m then lo
      else whole (epg * (d.e / epg))
    let v := max lo (min top raw)
    v :: faultEs epg d ms h r (k + 1) (if k < d.k then v else m.capAfter epg h v)

/-- The state that a run leaves, however it ends. -/
def VRes.state : VRes → State
  | .ok s | .fault _ _ _ s | .stop _ _ s | .wait _ s | .after _ _ s => s

/-- The second pass after a fault: every word runs again from the beginning to what it records. The decider runs
into its fault, or, where it is cut short of it, leaves the marks of the errors it met. A VPACK that later words read
runs to its end for them, and what it packed beyond its progress is put back (07_rearrange R158).
DEDUCED, log 77. -/
def passTwo (d : Decider) : List (VMeaning × Nat) → List Nat → Nat → State → State
  | (m, lo) :: r, v :: vs, k, s =>
    if k = d.k then
      passTwo d r vs (k + 1)
        (if v < d.e ∧ !m.es0 ∧ !m.whole then d.marks (m.go s lo v).state else (m.go s lo (d.e + 1)).state)
    else if m.whole then passTwo d r vs (k + 1) s
    else match m.feeds && decide (k < d.k), m.pack with
      | true, some p => (passTwo d r vs (k + 1) (m.go s lo m.len).state).modHart (p.undo s.hart v)
      | _, _ => passTwo d r vs (k + 1) (m.go s lo v).state
  | _, _, _, s => s

/-- Words run to their ends; none where one of them stops. -/
def goAll : List (VMeaning × Nat) → State → Option State
  | [], s => some s
  | (m, lo) :: r, s =>
    match m.go s lo m.len with
    | .ok t => goAll r t
    | _ => none

/-- How many of the words of a convoy stand before the decider and up to the last load that a store before the decider waits
for (08_memory R182). -/
def heldLoads (ms : List VMeaning) (d : Nat) : Nat :=
  ((List.range d).filter fun k => (ms[k]?.any fun m => m.slots.contains .l)
    && (List.range d).any fun j => decide (k < j) && ms[j]?.any (heldStore (ms.take j))).foldl (fun _ k => k + 1) 0

/-- The progress recorded at an element fault, with the loads run to their ends where a store that waits for them has
written, before the decider, what they are still to read: resumed they would read the stored bytes (08_memory R182, 14_system
R317). DEDUCED, log 77. -/
def loadsFirst (d : Decider) (ms : List (VMeaning × Nat)) (es : List Nat) (s : State) : List Nat :=
  let n := heldLoads (ms.map Prod.fst) d.k
  let ls := ms.take n
  match (if n = 0 then none else goAll ls s) with
  | none => es
  | some _ =>
    let full := (ls.map fun m => m.1.len) ++ es.drop n
    if (goAll ((ls.map Prod.fst).zip es) (passTwo d ms es 0 s)).map (fun t => t.hart.store) = some (passTwo d ms full 0 s).hart.store
    then es else full

/-- A part of a convoy run from each word's progress up to a boundary. -/
def runPart (h : Hart) (s : State) (stop : Nat) (ms : List (VMeaning × Nat)) : CRes :=
  let epg := convoyEpg h (ms.map Prod.fst)
  match passOne epg stop ms [] none (2 ^ 32) [] s with
  | .inl (.wait e s) => .wait [e] s
  | .inl (.after code tval s) => .after 1 code tval s
  | .inl (.ok s) => .done s
  | .inl (.fault e code tval s) => .fault [] (some e) code tval s
  | .inl (.stop code tval s) => .fault [] none code tval s
  | .inr (t, none, es) =>
    if (ms.zip es).any fun p => !p.1.1.whole && decide (p.2 < p.1.1.len) then .stopped es t else .done t
  | .inr (_, some d, _) =>
    let es := loadsFirst d ms (faultEs epg d (ms.map Prod.fst) h ms 0 (2 ^ 32)) s
    .fault es (some d.e) d.code d.tval (passTwo d ms es 0 s)

/-- A convoy split at the instructions that break it (08_memory R190). -/
def splitConvoy : List (VMeaning × Nat) → List (List (VMeaning × Nat))
  | [] => []
  | p :: r =>
    match splitConvoy r with
    | [] => [[p]]
    | q :: qs =>
      if p.1.broken || (q.head?.map fun x => x.1.broken).getD false then [p] :: q :: qs else (p :: q) :: qs

/-- The parts of a convoy run one after another (08_memory R190); `done` holds what the parts before recorded. -/
def runParts (h : Hart) (stop : Nat) : List (List (VMeaning × Nat)) → List Nat → State → CRes
  | [], _, s => .done s
  | p :: r, before, s =>
    let rest := (r.flatMap id).map Prod.snd
    match runPart h s stop p with
    | .done s => runParts h stop r (before ++ p.map fun x => x.1.len) s
    | .stopped es s => .stopped (before ++ es ++ rest) s
    | .fault es e code tval s => .fault (before ++ es ++ rest) e code tval s
    | .wait es s => .wait (before ++ es ++ rest) s
    | .after n code tval s => .after (before.length + n) code tval s

/-- The words of a convoy with the progress they start from, each told whether a later word reads what it packs. -/
def feedWords (h : Hart) : List CWord → List Nat → List (VMeaning × Nat)
  | [], _ => []
  | w :: r, es => ({ w.2 with feeds := w.2.pack.isSome && r.any fun x => readsFrom h w x }, es.headD 0) :: feedWords h r (es.drop 1)

/-- Two words of a convoy share a register in which they find their elements at different places: one of them writes a vector
register as another container, or element for scale, or a mask of which the other looks at more than an element's own bit. -/
def crosses (h : Hart) (a b : CWord) : Bool :=
  (a.2.dsts.any fun d => b.2.grps.any fun g => d.meets h a.1.cfg g && !(d.base == g.base && d.w == g.w && d.n == g.n))
    || a.2.maskW.any b.2.spread.contains

/-- A convoy run from the progress of its words. The elements stop at `stop`, or at the next boundary above it of a
group, of every block that is quantised and of every chunk that is stored as one access (14_system R316, 03_formats R371,
09_order R201); a convoy in which a later word reads what VPACK packs stops only at its end (07_rearrange R158). A convoy
whose words share a register in which their elements stand at different places runs one word after another and stops only at
its end or at a fault: stopped elsewhere its words would not see one another's results as words that run one after another do
(02_stream R51, 14_system R317). DESIGN CHOICE, log 7. DEDUCED, logs 77 and 110. -/
def runConvoy (s : State) (ws : List CWord) (es : List Nat) (stop : Nat) : CRes :=
  let h := s.hart
  let ms := feedWords h ws es
  let unit := ms.foldl (fun u m => Nat.lcm (Nat.lcm u m.1.unit) m.1.chunk) (convoyEpg h (ms.map Prod.fst))
  if ws.any fun a => ws.any fun b => crosses h a b then runParts h (2 ^ 32) (ms.map fun m => [m]) [] s
  else runParts h (if ms.any fun m => m.1.feeds then 2 ^ 32 else roundUp unit stop) (splitConvoy ms) [] s

/-- The words of a convoy that goes on, as its checks find them: one that is done no longer needs a binding record that a
later word may have ended since (12_engines R284, R285). -/
def resumedWords (ws : List CWord) (es : List Nat) : List CWord :=
  ws.zipIdx.map fun w =>
    let e := es.getD w.2 0
    if 0 < e ∧ w.1.2.len ≤ e then (w.1.1, { w.1.2 with bad05 := false }) else w.1

/-! ### Traps of the queues (14_system R313, R316) -/

/-- A trap of the vector queue: ES0-ES5, VTPC and, for an element fault, VTELEM take their values. -/
def State.vectorTrap (s : State) (code : BitVec 8) (tval : Word) (es : List Nat) (vtpc : Word) (e : Option Nat) :
    State :=
  s.modHart fun h =>
    Hart.enterTrap { h with
      vec := { h.vec with
        es := Vector.ofFn fun (i : Fin 6) => BitVec.ofNat 32 (es.getD i.val 0)
        vtpc := vtpc &&& ~~~7
        vtelem := match e with
          | some e => BitVec.ofNat 32 e
          | none => h.vec.vtelem }
      q := { h.q with flight := none, stall := .none, begun := none } } 1 code tval

/-- ES0-ES5 at a trap from the comb queue (10_comb R236, 14_system R316): 0, but for a VLD.C that waits, which keeps the
first element of its chunk (13_collective R299). DEDUCED, log 88. -/
def Hart.combEs (h : Hart) : Vector (BitVec 32) 6 :=
  match h.q.stall with
  | .vldC .. => h.stopQueues.vec.es
  | _ => Vector.replicate 6 0

/-- A trap of the comb queue (10_comb R236): VTPC is the comb word's address. -/
def State.combTrap (s : State) (code : BitVec 8) (tval : Word) (vtpc : Word) (e : Option Nat) : State :=
  s.modHart fun h =>
    let es := h.combEs
    let h := h.stopQueues
    Hart.enterTrap { h with
      vec := { h.vec with
        es := es
        vtpc := vtpc &&& ~~~7
        vtelem := match e with
          | some e => BitVec.ofNat 32 e
          | none => h.vec.vtelem } } 2 code tval

/-! ### One word on its own -/

/-- A word captured now (02_stream R43, R44): the values of its S and F registers and the configuration. Its
address is the PC (log 6). -/
def State.capture (s : State) (sreg freg : BitVec 5) : Entry :=
  { word := 0, addr := s.hart.pc, sval := s.rd sreg, fval := s.rd freg, cfg := s.hart.cfg, seq := s.hart.q.nextSeq,
    pre := false, prog := !s.hart.trap.system }

/-- A vector word captured and dispatched now, as a convoy of its own (log 6). While VS is OFF nothing starts
(14_system R330). -/
def runSingle (m : VM) (sreg freg : BitVec 5) (s : State) : Out :=
  if s.hart.vec.vs = 0 then .next s
  else
    let x := s.capture sreg freg
    let w : CWord := (x, m x s)
    match dispatchCheck s.hart [w] with
    | some (code, tval, e) => .next (s.vectorTrap code tval [] x.addr e)
    | none =>
      match runConvoy s [w] [] (2 ^ 32) with
      | .done t => .next t
      | .stopped _ t => .next t
      | .wait _ t => .next t
      | .fault es e code tval t => .next (t.vectorTrap code tval es x.addr e)
      | .after _ code tval t => .next (t.vectorTrap code tval [] (x.addr + 8) none)

/-- A comb word captured and issued now (log 6, 10_comb R225). -/
def runComb (m : VM) (sreg freg : BitVec 5) (s : State) : Out :=
  if s.hart.vec.vs = 0 then .next s
  else
    let x := s.capture sreg freg
    let m := m x s
    match dispatchCheck s.hart [(x, m)] with
    | some (code, tval, e) => .next (s.combTrap code tval x.addr e)
    | none =>
      match m.run s 0 m.len with
      | .ok t => .next t
      | .wait _ t => .next t
      | .fault e code tval t => .next (t.combTrap code tval x.addr (some e))
      | .stop code tval t => .next (t.combTrap code tval x.addr none)
      | .after code tval t => .next (t.combTrap code tval x.addr none)

end Sys2Proof.Machine
end

