-- ==== Sys2Proof/Machine/VMem.lean ====
section
/-! DEFINITION. Singular vector loads and stores (08_memory R178-R190, 03_formats R84, R85), the .K loads
(12_engines R285) and whole registers and masks (R185-R187). -/

namespace Sys2Proof.Machine

/-! ### Addresses (R180) -/

/-- The address forms. -/
inductive AForm where
  | unit
  | strided (b : BitVec 5)
  | indexed (b : BitVec 5)
  deriving DecidableEq, Repr

/-- Base plus the signed byte offset (R180). -/
def baseOf (x : Entry) (off : BitVec 16) : Word := x.sval + off.signExtend 64

/-- The address of element `e` at memory width `mw`, and the bit of that byte where it starts (R180). -/
def elemAddr (fm : AForm) (base : Word) (x : Entry) (k : Hart) (mw e : Nat) : Word × Nat :=
  match fm with
  | .unit => (base + BitVec.ofNat 64 (e * mw / 8), e * mw % 8)
  | .strided b => (base + BitVec.ofNat 64 e * x.bval.getD (k.rd b), 0)
  | .indexed b => (base + BitVec.ofInt 64 (intValue x.fmt.fb (k.elem x.cfg b.toNat (contWidth x.fmt.fb) e)), 0)
/-- The bytes an element touches. -/
def spanBytes (sh mw : Nat) : Nat := (sh + mw + 7) / 8
/-- The index groups of a form. -/
def AForm.grps (fm : AForm) (x : Entry) : List Grp :=
  match fm with
  | .indexed b => [x.grp b x.fmt.fb]
  | _ => []
/-- The index chunk of an element carries a mark. -/
def AForm.marked (fm : AForm) (x : Entry) (k : Hart) (e : Nat) : Bool :=
  match fm with
  | .indexed b => k.elemMarked x.cfg b.toNat (contWidth x.fmt.fb) e
  | _ => false
/-- The form is unit-stride. -/
def AForm.isUnit (fm : AForm) : Bool := fm == .unit

/-! ### Conflict count (R189, R190) -/

/-- The most distinct numbers of a list in one class modulo `m`. -/
def maxClass (m : Nat) (l : List Nat) : Nat :=
  ((List.range m).map fun c => (l.filter fun i => i % m == c).length).foldl max 0

/-- The conflict count of a group of accesses, addresses with their lengths (R189). -/
def groupConflict (as : List (Nat × Nat)) : Nat :=
  let own := as.filter fun p => p.1 / 2 ^ 56 == 0xF1
  let far := as.filter fun p => p.1 / 2 ^ 56 != 0xF1
  let words := (own.flatMap fun p => [p.1 % 2 ^ 21 / 8, (p.1 + p.2 - 1) % 2 ^ 21 / 8]).eraseDups
  let sectors := (far.flatMap fun p => [p.1 / 32, (p.1 + p.2 - 1) / 32]).eraseDups
  max (maxClass 32 words) (maxClass 8 sectors)

/-- The largest conflict count over the groups of a unit-stride or strided instruction (R189). DEDUCED, log 32. -/
def conflict (fm : AForm) (base : Word) (x : Entry) (k : Hart) (w mw : Nat) : Nat :=
  let epg := epgOf k w
  ((List.range ((x.vl + epg - 1) / epg)).map fun g =>
    groupConflict (((List.range epg).map (g * epg + ·)).filterMap fun e =>
      if e < x.vl then
        let a := elemAddr fm base x k mw e
        some (a.1.toNat, spanBytes a.2 mw)
      else none)).foldl max 0

/-- The instruction breaks its convoy (R190). DEDUCED, log 32. -/
def breaksConvoy (fm : AForm) (base : Word) (x : Entry) (k : Hart) : Bool :=
  match fm with
  | .indexed _ => true
  | _ => decide (conflict fm base x k (contWidth x.fmt.fa) (memWidth x.fmt.fa) > 1)

/-! ### Checks and accesses of an element (R183) -/

/-- Checks 1 to 4 of an access cut into parts, with the length of each (R183). -/
def State.parts (s : State) (kind : AccessKind) (a : Word) (n : Nat) : Except Failure (List (Part × Nat)) :=
  let ps := partsOf a n
  (s.checkParts s.cc s.hart kind n ps).map fun l => l.zip (ps.map Prod.snd)

/-- The storage format of a part's page; lane memory, which has no page, counts as SF = 0 (R84).
DESIGN CHOICE, log 93. -/
def Part.sf (p : Part) : Nat :=
  match p.tr with
  | some t => t.sf
  | none => 0
/-- The format code of a storage format (R84). -/
def sfFormat : Nat → Nat
  | 1 => 0x03
  | 2 => 0x02
  | 3 => 0x05
  | 4 => 0x04
  | _ => 0x00
/-- The rounding mode of an SRM field (R84). -/
def srmMode : Nat → Nat
  | 0 => 0
  | 1 => 1
  | 2 => 5
  | _ => 4

/-- The class policy and step that a store to a part carries. -/
def State.ctxOf (s : State) (step : Word) (p : Part) : StoreCtx :=
  { through := match p.tr with
      | some t => s.writesThrough s.hart.place.ten t.cls
      | none => false
    step := some step }

/-- The write accesses of a value under a bit mask, the lowest part first. -/
def maskedAccs : List (Part × Nat) → Nat → Nat → List Acc
  | [], _, _ => []
  | (p, n) :: r, v, m =>
    { loc := p.loc, bytes := (bytesOf n v).zip (bytesOf n m) } :: maskedAccs r (v / 256 ^ n) (m / 256 ^ n)

/-- The parts' translations kept. -/
def State.touchAll (s : State) (ps : List (Part × Nat)) : State :=
  ps.foldl (fun s p => s.touch s.cc s.hart p.1.va) s

/-- The line with an error that no mark records in which a part of a write access lies (R174). -/
def State.errorLine (s : State) (a : Acc) : Option Nat :=
  match a.loc with
  | .mem pa => if smem s.latent (lineOf pa) then some (lineOf pa) else none
  | _ => none
/-- The accesses of one write to its parts, each within a line: a line with an error that no mark records is marked, and
no part of the write in it is written (R174). -/
def State.writeParts (s : State) (step : Word) (qs : List (Part × Acc)) : State :=
  qs.foldl (fun t q => match s.errorLine q.2 with
    | some l => t.markLine l
    | none => t.write (t.ctxOf step q.1) q.2) s

/-- The write of a value to its parts: D first, then the bytes (R171, R181). -/
def State.putParts (s : State) (step : Word) (ps : List (Part × Nat)) (v m : Nat) : State :=
  ((s.touchAll ps).setDirty (ps.map Prod.fst)).writeParts step ((ps.map Prod.fst).zip (maskedAccs ps v m))

/-- What an element of a memory instruction answers: go on, or stop with cause and STVAL. -/
abbrev ERes := Except (BitVec 8 × Word × State) State
/-- A failed check as an element's answer; an error that the walk met is marked (R174). -/
def stopAt (s : State) (f : Failure) : BitVec 8 × Word × State := (f.1, f.2, s.markWalk s.cc s.hart.ptroot f.1 f.2)

/-! ### The reference page of a converting access (R85) -/

/-- The first active element. -/
def firstActive (act : Hart → Nat → Bool) (x : Entry) (k : Hart) : Option Nat := (List.range x.vl).find? (act k)

/-- The storage format of the page that holds an address, found by its translation alone: the space and the walk may
fail, and permissions and grants are the elements' own checks (R85, R183). DESIGN CHOICE, log 70. Lane memory, which has
no page, counts as SF = 0. DESIGN CHOICE, log 93. -/
def State.pageSf (s : State) (kind : AccessKind) (a : Word) : Except Failure Nat :=
  if spaceFails kind a then .error (0x12, a)
  else match spaceOf a with
    | some .translated =>
      match s.walkStage s.cc s.hart kind a.toNat with
      | .error e => .error (e, a)
      | .ok t => .ok t.2.sf
    | _ => .ok 0

/-- The reference SF of an access: 0 where the data is not FP32, else that of the page of element 0's address (unit
forms) or of the first active element. -/
def refSf (fm : AForm) (kind : AccessKind) (base : Word) (act : Hart → Nat → Bool) (x : Entry) (s : State) :
    Except Failure Nat :=
  if x.fmt.fa ≠ 0 then .ok 0
  else s.pageSf kind (match fm, firstActive act x s.hart with
    | .unit, _ => base
    | _, some e => (elemAddr fm base x s.hart 32 e).1
    | _, none => base)

/-- The memory width of an access under its reference SF (R179, R85). -/
def memWidthOf (x : Entry) (sf : Nat) : Nat := if x.fmt.fa = 0 ∧ sf ≠ 0 then memWidth (sfFormat sf) else memWidth x.fmt.fa

/-- An element located and checked: its address, its start bit, its width, the reference SF and its parts, after
checks 1 to 6 but for the marks of memory (R183). -/
structure Located where
  a  : Word
  sh : Nat
  mw : Nat
  sf : Nat
  ps : List (Part × Nat)
  deriving DecidableEq, Repr

/-- Checks 1 to 5, and the index mark of check 6 (R183, log 19). Where it is the upper part of the element that lies on the
other page, STVAL of cause 0x14 is the address of that part, as R183 says of every check; R85 says the element's.
DEDUCED, log 74. Cause 0x19 for a marked index puts there the element's address, computed from what the chunk holds. DESIGN CHOICE, log 86. -/
def locate (fm : AForm) (kind : AccessKind) (base : Word) (act : Hart → Nat → Bool) (x : Entry) (e : Nat) (s : State) :
    Except Failure Located :=
  match refSf fm kind base act x s with
  | .error f => .error f
  | .ok sf =>
    let mw := memWidthOf x sf
    let a := elemAddr fm base x s.hart mw e
    match s.parts kind a.1 (spanBytes a.2 mw) with
    | .error f => .error f
    | .ok ps =>
      match (if x.fmt.fa = 0 then ps.find? (fun p => p.1.sf != sf) else none) with
      | some p => .error (0x14, p.1.va)
      | none =>
      if fm.marked x s.hart e then .error (0x19, a.1)
      else .ok { a := a.1, sh := a.2, mw := mw, sf := sf, ps := ps }

/-! ### Loads (R181, R183) -/

/-- One active element of a load. -/
def loadElem (fm : AForm) (base : Word) (act : Hart → Nat → Bool) (d : BitVec 5) (x : Entry) (e : Nat) (s : State) :
    ERes :=
  match locate fm .vload base act x e s with
  | .error f => .error (stopAt s f)
  | .ok l =>
    match s.checkRead (l.ps.map Prod.fst) with
    | some (f, s) => .error (stopAt s f)
    | none =>
      let p := (s.readParts l.ps >>> l.sh) % 2 ^ l.mw
      let v := if l.sf ≠ 0 then round 0 0 false 0 (value (sfFormat l.sf) p) else p
      .ok ((s.touchAll l.ps).modHart fun k => k.setElem x.cfg d.toNat (contWidth x.fmt.fa) e v)

/-- The checks of R179 on the descriptor of a load or store. -/
def memBad05 (fm : AForm) (x : Entry) : Bool :=
  descrReserved x.fval || x.fmt.scl != 0 || (!fm.isUnit && decide (memWidth x.fmt.fa < 8))
    || (match fm with
      | .indexed _ => !isInt x.fmt.fb
      | _ => false)

/-- The shared resource that a vector access takes from its base address: the banks of lane memory, or a slice port
(01_machine R23). DEDUCED, log 91. -/
def memUses (base : Word) : List Resource :=
  match spaceOf base with
  | some (.own _) => [.banks]
  | _ => [.slice]

/-- A load whose active elements are given (R181), and the elements whose first names the reference page (03_formats R85). -/
def loadRefM (c : Bool) (pm : Option (BitVec 3)) (fm : AForm) (d : BitVec 5) (off : BitVec 16)
    (act ref : Hart → Nat → Bool) : VM := fun x s =>
  let base := baseOf x off
  let ds := [x.grp d x.fmt.fa]
  { c := c, slots := [.l], srcs := fm.grps x, dsts := ds, maskR := pmReads pm, memory := true, uses := memUses base
    steps := x.fmt.rm == 5, broken := breaksConvoy fm base x s.hart, bad05 := memBad05 fm x
    bad04 := overlapAny s.hart x.cfg ds (fm.grps x), len := x.vl, spread := if fm.isUnit || x.fmt.fa != 0 then [] else pmReads pm
    run := elems fun e s => if act s.hart e then loadElem fm base ref d x e s else .ok s }
/-- A load whose active elements are given (R181). -/
def loadM (c : Bool) (pm : Option (BitVec 3)) (fm : AForm) (d : BitVec 5) (off : BitVec 16) (act : Hart → Nat → Bool) : VM :=
  loadRefM c pm fm d off act act

/-- VLD (R180, R181). -/
def mVld (h : VHdr) (d : BitVec 5) (off : BitVec 16) : VM := loadM h.c h.pm .unit d off fun k e => k.active h.pm e
/-- VLD dispatched on its own. -/
def execVld (h : VHdr) (d sr f : BitVec 5) (off : BitVec 16) (s : State) : Out := runSingle (mVld h d off) sr f s

/-- VLDS (R180, R181). -/
def mVlds (h : VHdr) (d b : BitVec 5) (off : BitVec 16) : VM :=
  loadM h.c h.pm (.strided b) d off fun k e => k.active h.pm e
/-- VLDS dispatched on its own. -/
def execVlds (h : VHdr) (d sr b f : BitVec 5) (off : BitVec 16) (s : State) : Out := runSingle (mVlds h d b off) sr f s

/-- VLDX (R180, R181). -/
def mVldx (h : VHdr) (d b : BitVec 5) (off : BitVec 16) : VM :=
  loadM h.c h.pm (.indexed b) d off fun k e => k.active h.pm e
/-- VLDX dispatched on its own. -/
def execVldx (h : VHdr) (d sr b f : BitVec 5) (off : BitVec 16) (s : State) : Out := runSingle (mVldx h d b off) sr f s

/-- The address form of a .K load. -/
def kForm : KForm → AForm
  | .unit => .unit
  | .strided b => .strided b
  | .indexed b => .indexed b
/-- The binding record of a mask. -/
def Hart.record (k : Hart) (m : BitVec 3) : Option BindRec := (k.store.binds.find? fun p => p.1 == m.toNat).map Prod.snd

/-- Whether element `e` of a .K load is loaded (12_engines R285): every byte of it in the recorded range, and the
mask's bit of each byte's chunk set. -/
def kActive (fm : AForm) (base : Word) (r : BindRec) (m : BitVec 3) (mw : Nat) (x : Entry) (k : Hart) (e : Nat) : Bool :=
  let a := elemAddr fm base x k mw e
  (List.range (spanBytes a.2 mw)).all fun i =>
    let o := (a.1 + BitVec.ofNat 64 i - r.dest).toNat
    decide (o < r.len) && k.maskBit m.toNat (o >>> r.csz)

/-- An element of a .K load in the recorded range reads a bit of a marked mask chunk (12_engines R285, 08_memory
R187). -/
def kMarked (fm : AForm) (base : Word) (r : BindRec) (m : BitVec 3) (mw : Nat) (x : Entry) (k : Hart) (e : Nat) : Bool :=
  let a := elemAddr fm base x k mw e
  let os := (List.range (spanBytes a.2 mw)).map fun i => (a.1 + BitVec.ofNat 64 i - r.dest).toNat
  (os.all fun o => decide (o < r.len)) && os.any fun o => k.maskMarked m.toNat ((o >>> r.csz) / 64)

/-- VLD, VLDS or VLDX with .K (12_engines R285). The width of a converting access is that of its reference page; a
strided or indexed form finds the first active element, whose address names that page, with FA's own width.
DESIGN CHOICE, log 71. Where an earlier word of its convoy has ended the record since the dispatch, cause 0x05 is raised as if
the words ran one after another (02_stream R51). DEDUCED, log 110. -/
def mVldK (c : Bool) (m : BitVec 3) (kf : KForm) (d : BitVec 5) (off : BitVec 16) : VM := fun x s =>
  let fm := kForm kf
  let base := baseOf x off
  match s.hart.record m with
  | none => { loadM c (some m) fm d off (fun _ _ => false) x s with bad05 := true }
  | some r =>
    let first := fun k e => kActive fm base r m (memWidth x.fmt.fa) x k e
    let mw := match refSf fm .vload base first x s with
      | .ok sf => memWidthOf x sf
      | .error _ => memWidth x.fmt.fa
    let l := loadRefM c (some m) fm d off (fun k e => kActive fm base r m mw x k e) first x s
    { l with
      spread := [m.toNat], marksAt := some fun k e => kMarked fm base r m mw x k e
      run := fun s lo hi => if (s.hart.record m).isNone then .stop 0x05 x.addr s else l.run s lo hi }
/-- A .K load dispatched on its own. -/
def execVldK (c : Bool) (m : BitVec 3) (kf : KForm) (d sr f : BitVec 5) (off : BitVec 16) (s : State) : Out :=
  runSingle (mVldK c m kf d off) sr f s

/-! ### First fault (R184) -/

/-- The last active element below e has its bit of mD clear, so an element failed there without a trap. -/
def ffStopped (pm : Option (BitVec 3)) (md : BitVec 3) (k : Hart) (e : Nat) : Bool :=
  match ((List.range e).filter fun i => k.active pm i).getLast? with
  | some i => !k.maskBit md.toNat i
  | none => false

/-- One element of VLDFF: a failing first active element is an element fault, a later one ends the loads. -/
def ffElem (pm : Option (BitVec 3)) (base : Word) (dx : BitVec 5) (md : BitVec 3) (x : Entry) (e : Nat) (s : State) :
    ERes :=
  let act := fun (k : Hart) i => k.active pm i
  let bit (s : State) (b : Bool) : State := s.modHart fun k => k.setMaskBit md.toNat e b
  if act s.hart e && !ffStopped pm md s.hart e then
    match loadElem .unit base act dx x e s with
    | .ok s => .ok (bit s true)
    | .error (code, tval, s) =>
      if firstActive act x s.hart = some e then .error (code, tval, s) else .ok (bit s false)
  else .ok (bit s false)

/-- VLDFF (R184). -/
def mVldff (h : VHdr) (dx : BitVec 5) (md : BitVec 3) (off : BitVec 16) : VM := fun x s =>
  { loadM h.c h.pm .unit dx off (fun k e => k.active h.pm e) x s with
    maskW := [md.toNat], bad04 := h.pm == some md, spread := pmReads h.pm
    run := elems (ffElem h.pm (baseOf x off) dx md x) }
/-- VLDFF dispatched on its own. -/
def execVldff (h : VHdr) (dx : BitVec 5) (md : BitVec 3) (sr f : BitVec 5) (off : BitVec 16) (s : State) : Out :=
  runSingle (mVldff h dx md off) sr f s

/-! ### Stores (R174, R181, R182, R85) -/

/-- The bits of a byte of memory that write accesses change. -/
def coverOf (as : List Acc) (pa : Nat) : Byte :=
  as.foldl (fun m a => match a.loc with
    | .mem b => if b ≤ pa then m ||| ((a.bytes[pa - b]?).map Prod.snd).getD 0 else m
    | _ => m) 0

/-- The last of several elements whose accesses touch a line. -/
def lastTouch (as : List (Nat × List Acc)) (l : Nat) : Nat :=
  as.foldl (fun m p => if p.2.any fun a => (a.span.any fun b => lineOf b == l) then p.1 else m) 0

/-- The lines with a mark or an error that the accesses of one instruction cover whole, each with the last element
that touches it (R174). -/
def State.fullLines (s : State) (as : Unit → List (Nat × List Acc)) : List (Nat × Nat) :=
  (s.marks ++ s.latent).filterMap fun l =>
    let all := (as ()).flatMap Prod.snd
    if (List.range 256).all fun i => coverOf all (256 * l + i) == 0xFF then some (l, lastTouch (as ()) l) else none

/-- Before an element of a store that covers lines whole: an unrecorded error in such a line goes with the old data
(R174); the line stays marked until its last element. -/
def State.openLines (s : State) (full : List (Nat × Nat)) (as : List Acc) : State :=
  full.foldl (fun s p =>
    if smem s.latent p.1 && (as.any fun a => a.span.any fun b => lineOf b == p.1) then s.markLine p.1 else s) s
/-- After an element: the marks of the lines it completes are cleared. -/
def State.closeLines (s : State) (full : List (Nat × Nat)) (e : Nat) : State :=
  full.foldl (fun s p => if p.2 = e then s.cleanLine p.1 else s) s

/-- The pattern an element stores and the new seed: rounded into the page's format on a converting page (R85). An
element across two pages is rounded by the SRM of the lower one (R181). DESIGN CHOICE, log 69. -/
def storePat (x : Entry) (k : Hart) (a : BitVec 5) (e : Nat) (l : Located) : Nat × Word :=
  let p := k.elem x.cfg a.toNat (contWidth x.fmt.fa) e
  if l.sf = 0 then (p % 2 ^ l.mw, k.vec.seed)
  else
    let srm := match l.ps with
      | (q, _) :: _ => (q.tr.map Tr.srm).getD 0
      | [] => 0
    roundEv (sfFormat l.sf) (srmMode srm) x.fmt.sat k.vec.seed (value 0 p)

/-- The accesses of one active element of a store; none where a check fails. `skip` takes bytes away (R182). -/
def storeAccs (fm : AForm) (base : Word) (act : Hart → Nat → Bool) (a : BitVec 5) (x : Entry) (s : State) (e : Nat) :
    Option (List Acc) :=
  match locate fm .vput base act x e s with
  | .error _ => none
  | .ok l =>
    if s.hart.elemMarked x.cfg a.toNat (contWidth x.fmt.fa) e then none
    else some (maskedAccs l.ps 0 ((2 ^ l.mw - 1) <<< l.sh))

/-- The active elements with their accesses, up to the first whose check fails. -/
def goodAccs (f : Nat → Option (List Acc)) : List Nat → List (Nat × List Acc)
  | [] => []
  | e :: r =>
    match f e with
    | some as => (e, as) :: goodAccs f r
    | none => []

/-- Where a memory access starts: the core of a lane memory, and the address. -/
def Acc.start (a : Acc) : Option (Option Nat × Nat) :=
  match a.loc with
  | .mem pa => some (none, pa)
  | .lm c q => some (some c, q)
  | .reg .. => none

/-- The atomic unit of byte `i` of an access of an element of `n` bytes (09_order R201): the element where it is whole
and aligned, else the byte. -/
def unitOf (n : Nat) (a : Acc) (q i : Nat) : Nat := if a.bytes.length = n ∧ q % n = 0 then q else q + i

/-- The bytes of element `e` of a VSTX or VSTP that remain beside those of earlier elements of its run (R182, 09_order R201,
log 12): a byte goes where an earlier element has the higher place for the unit. -/
def keptBytes (tick n e : Nat) (earlier : List (Nat × List Acc)) (a : Acc) : Acc :=
  match a.start with
  | none => a
  | some (c, q) =>
    let beaten (i : Nat) : Bool := earlier.any fun p => p.2.any fun o => match o.start with
      | some (d, r) => d == c && decide (r ≤ q + i) && ((o.bytes[q + i - r]?).any fun b => b.2 != 0)
          && decide (Config.rank tick e (unitOf n a q i) < Config.rank tick p.1 (unitOf n o r (q + i - r)))
      | none => false
    { a with bytes := a.bytes.zipIdx.map fun b => (b.1.1, if beaten b.2 then 0 else b.1.2) }

/-- A run of a store over elements `lo` up to `hi`: whether its elements may be performed in any order (R182), and the
lines that the whole instruction covers, each with the last element that touches it (R174). -/
structure StoreRun where
  lo       : Nat
  hi       : Nat
  anyOrder : Bool
  full     : List (Nat × Nat)
  deriving DecidableEq, Repr

/-- The register chunk of element `e` is stored as one 8-byte access (R174, R201): unit stride, no conversion, every
element in the run, active and unfailing, the memory address 8-aligned. Answers its first element. -/
def fullChunk (fm : AForm) (run : StoreRun) (base : Word) (act : Hart → Nat → Bool) (a : BitVec 5) (x : Entry) (s : State)
    (e : Nat) (l : Located) : Option Nat :=
  let w := contWidth x.fmt.fa
  let n := perChunk w
  let e0 := e / n * n
  let ok := fm.isUnit && l.mw == w && l.sf == 0 && w != 6 && decide (run.lo ≤ e0) && decide (e0 + n ≤ run.hi)
    && (elemAddr fm base x s.hart w e0).1.toNat % 8 == 0
    && (List.range n).all fun i => act s.hart (e0 + i) && (storeAccs fm base act a x s (e0 + i)).isSome
  if ok then some e0 else none

/-- The write accesses of element `e` of a store. Of a chunk that is stored as one access the first element makes the
access, of all its eight bytes, and the others none (R201). VSTX leaves out the bytes that an earlier element of its run
keeps, for those before the run have been performed (R182). -/
def elemAccs (fm : AForm) (run : StoreRun) (base : Word) (act : Hart → Nat → Bool) (a : BitVec 5) (x : Entry) (s : State)
    (e : Nat) (l : Located) (pat : Nat) : List Acc :=
  match fullChunk fm run base act a x s e l with
  | some e0 =>
    if e0 ≠ e then []
    else l.ps.map fun p => Acc.ofNat p.1.loc 8 (s.hart.chunk x.cfg a.toNat (e / perChunk (contWidth x.fmt.fa))).toNat
  | none =>
    let as := maskedAccs l.ps (pat <<< l.sh) ((2 ^ l.mw - 1) <<< l.sh)
    if run.anyOrder then as.map (keptBytes s.tick (l.mw / 8) e
      (goodAccs (storeAccs fm base act a x s) ((List.range e).filter fun i => decide (run.lo ≤ i) && act s.hart i)))
    else as

/-- One active element of a store. DEDUCED, log 30. -/
def storeElem (fm : AForm) (run : StoreRun) (base : Word) (act : Hart → Nat → Bool) (a : BitVec 5) (x : Entry) (e : Nat)
    (s : State) : ERes :=
  match locate fm .vput base act x e s with
  | .error f => .error (stopAt s f)
  | .ok l =>
    if s.hart.elemMarked x.cfg a.toNat (contWidth x.fmt.fa) e then .error (stopAt s (0x19, l.a))
    else
      let r := storePat x s.hart a e l
      let as := elemAccs fm run base act a x s e l r.1
      let s := s.modHart fun k => k.modVec fun v => { v with seed := r.2 }
      let s := (s.touchAll l.ps).setDirty (l.ps.map Prod.fst)
      .ok (((s.openLines run.full as).writeParts x.cfg.cstep ((l.ps.map Prod.fst).zip as)).closeLines run.full e)

/-- A store (R179-R182). -/
def storeM (h : VHdr) (fm : AForm) (anyOrder : Bool) (a : BitVec 5) (off : BitVec 16) : VM := fun x s =>
  let base := baseOf x off
  let act := fun (k : Hart) e => k.active h.pm e
  { c := h.c, slots := [.s], srcs := x.grp a x.fmt.fa :: fm.grps x, maskR := pmReads h.pm, memory := true
    stores := true, uses := memUses base, broken := breaksConvoy fm base x s.hart, bad05 := memBad05 fm x, steps := true, len := x.vl
    spread := pmReads h.pm
    chunk := if fm.isUnit && contWidth x.fmt.fa != 6 then perChunk (contWidth x.fmt.fa) else 1
    run := fun s lo hi =>
      let full := s.fullLines fun _ =>
        goodAccs (storeAccs fm base act a x s) ((List.range x.vl).filter (act s.hart))
      let r : StoreRun := { lo := lo, hi := hi, anyOrder := anyOrder, full := full }
      elems (fun e s => if act s.hart e then storeElem fm r base act a x e s else .ok s) s lo hi }

/-- VST (R180-R182). -/
def mVst (h : VHdr) (a : BitVec 5) (off : BitVec 16) : VM := storeM h .unit false a off
/-- VST dispatched on its own. -/
def execVst (h : VHdr) (a sr f : BitVec 5) (off : BitVec 16) (s : State) : Out := runSingle (mVst h a off) sr f s
/-- VSTS (R180-R182). -/
def mVsts (h : VHdr) (a b : BitVec 5) (off : BitVec 16) : VM := storeM h (.strided b) false a off
/-- VSTS dispatched on its own. -/
def execVsts (h : VHdr) (a sr b f : BitVec 5) (off : BitVec 16) (s : State) : Out := runSingle (mVsts h a b off) sr f s
/-- VSTX (R180-R182). -/
def mVstx (h : VHdr) (a b : BitVec 5) (off : BitVec 16) : VM := storeM h (.indexed b) true a off
/-- VSTX dispatched on its own. -/
def execVstx (h : VHdr) (a sr b f : BitVec 5) (off : BitVec 16) (s : State) : Out := runSingle (mVstx h a b off) sr f s
/-- VSTXO (R180-R182). -/
def mVstxo (h : VHdr) (a b : BitVec 5) (off : BitVec 16) : VM := storeM h (.indexed b) false a off
/-- VSTXO dispatched on its own. -/
def execVstxo (h : VHdr) (a sr b f : BitVec 5) (off : BitVec 16) (s : State) : Out := runSingle (mVstxo h a b off) sr f s

/-! ### Whole registers and masks (R185-R187) -/

/-- Where the chunks of a whole transfer come from and go to: a register or a mask. -/
inductive WReg where
  | reg (r : BitVec 5)
  | mask (m : BitVec 3)
  deriving DecidableEq, Repr

/-- The chunks of a whole transfer (R185, R187). -/
def WReg.count (w : WReg) (k : Hart) (c : Cfg) : Nat :=
  match w with
  | .reg _ => cpr k c
  | .mask _ => k.lanes * 512
/-- A chunk read. -/
def WReg.get (w : WReg) (k : Hart) (c : Cfg) (i : Nat) : Word :=
  match w with
  | .reg r => k.chunk c r.toNat i
  | .mask m => k.maskChunk m.toNat i
/-- A chunk's mark. -/
def WReg.marked (w : WReg) (k : Hart) (c : Cfg) (i : Nat) : Bool :=
  match w with
  | .reg r => k.chunkMarked c r.toNat i
  | .mask m => k.maskMarked m.toNat i
/-- A chunk written whole with its mark. -/
def WReg.set (w : WReg) (k : Hart) (c : Cfg) (i : Nat) (v : Word) (mk : Bool) : Hart :=
  match w with
  | .reg r => k.setChunk c r.toNat i v mk
  | .mask m => k.setWholeMask m.toNat i v mk
/-- The groups of a whole transfer: one register, which must lie below NREG (R185). -/
def WReg.grps (w : WReg) (k : Hart) (c : Cfg) : List Grp :=
  match w with
  | .reg r => [{ base := r.toNat, n := cpr k c, w := 64 }]
  | .mask _ => []

/-- A chunk of VLDW (R185, R186). The alignment of the base is checked before all else. DESIGN CHOICE, log 75. -/
def vldwChunk (w : WReg) (base : Word) (x : Entry) (i : Nat) (s : State) : ERes :=
  let a := base + BitVec.ofNat 64 (8 * i)
  if a.toNat % 8 ≠ 0 then .error (stopAt s (0x08, base))
  else match s.parts .vload a 8 with
    | .error f => .error (stopAt s f)
    | .ok ps =>
      let locs := ps.map fun p => p.1.loc
      let fresh := !(locs.any s.marked) && locs.any s.hasError
      let mk := locs.any s.marked || fresh
      let v := BitVec.ofNat 64 (s.readParts ps)
      let s := (s.touchAll ps).modHart fun k => w.set k x.cfg i v mk
      if fresh then .error (stopAt (locs.foldl State.mark s) (0x1A, a)) else .ok s

/-- The accesses of a chunk of VSTW; none where a check fails. -/
def vstwAccs (base : Word) (s : State) (i : Nat) : Option (List Acc) :=
  match s.parts .vput (base + BitVec.ofNat 64 (8 * i)) 8 with
  | .error _ => none
  | .ok ps => some (maskedAccs ps 0 (2 ^ 64 - 1))

/-- A chunk of VSTW (R185, R186): a marked chunk marks its granule, and a line covered whole keeps the marks of the
chunks below it. The alignment of the base is checked before all else. DESIGN CHOICE, log 75. -/
def vstwChunk (w : WReg) (base : Word) (x : Entry) (full : List (Nat × Nat)) (i : Nat) (s : State) : ERes :=
  let a := base + BitVec.ofNat 64 (8 * i)
  if a.toNat % 8 ≠ 0 then .error (stopAt s (0x08, base))
  else match s.parts .vput a 8 with
    | .error f => .error (stopAt s f)
    | .ok ps =>
      let as := maskedAccs ps (w.get s.hart x.cfg i).toNat (2 ^ 64 - 1)
      let s := (s.touchAll ps).setDirty (ps.map Prod.fst)
      let s := (s.openLines full as).writeParts x.cfg.cstep ((ps.map Prod.fst).zip as)
      let below := (List.range 32).any fun j => decide (j ≤ i) && w.marked s.hart x.cfg (i - j)
      let s := if full.any (fun p => p.2 == i) && !below then s.closeLines full i else s
      .ok (if w.marked s.hart x.cfg i then (ps.map fun p => p.1.loc).foldl State.mark s else s)

/-- A whole load (R185, R187). -/
def vldwM (c : Bool) (w : WReg) (off : BitVec 16) (mw : List Nat) : VM := fun x s =>
  { c := c, slots := [.l], alone := true, dsts := w.grps s.hart x.cfg, maskW := mw, memory := true, uses := memUses (baseOf x off)
    len := w.count s.hart x.cfg, run := elems (vldwChunk w (baseOf x off) x) }
/-- A whole store (R185, R187). -/
def vstwM (c : Bool) (w : WReg) (off : BitVec 16) : VM := fun x s =>
  let base := baseOf x off
  { c := c, slots := [.s], alone := true, srcs := w.grps s.hart x.cfg, memory := true, stores := true, uses := memUses base, steps := true
    len := w.count s.hart x.cfg
    run := fun s lo hi =>
      let full := s.fullLines fun _ => goodAccs (vstwAccs base s) (List.range (w.count s.hart x.cfg))
      elems (vstwChunk w base x full) s lo hi }

/-- VLDW (R185, R186). -/
def mVldw (c : Bool) (d : BitVec 5) (off : BitVec 16) : VM := vldwM c (.reg d) off []
/-- VLDW dispatched on its own. -/
def execVldw (c : Bool) (d sr : BitVec 5) (off : BitVec 16) (s : State) : Out := runSingle (mVldw c d off) sr 0 s
/-- VSTW (R185, R186). -/
def mVstw (c : Bool) (a : BitVec 5) (off : BitVec 16) : VM := vstwM c (.reg a) off
/-- VSTW dispatched on its own. -/
def execVstw (c : Bool) (a sr : BitVec 5) (off : BitVec 16) (s : State) : Out := runSingle (mVstw c a off) sr 0 s
/-- VLDW.M (R187). -/
def mVldwM (c : Bool) (d : BitVec 3) (off : BitVec 16) : VM := vldwM c (.mask d) off [d.toNat]
/-- VLDW.M dispatched on its own. -/
def execVldwM (c : Bool) (d : BitVec 3) (sr : BitVec 5) (off : BitVec 16) (s : State) : Out :=
  runSingle (mVldwM c d off) sr 0 s
/-- VSTW.M (R187). -/
def mVstwM (c : Bool) (a : BitVec 3) (off : BitVec 16) : VM := vstwM c (.mask a) off
/-- VSTW.M dispatched on its own. -/
def execVstwM (c : Bool) (a : BitVec 3) (sr : BitVec 5) (off : BitVec 16) (s : State) : Out :=
  runSingle (mVstwM c a off) sr 0 s

end Sys2Proof.Machine
end

