-- ==== Sys2Proof/Machine/VAtomic.lean ====
section
/-! DEFINITION. Vector atomics (09_order R215-R217), peer lane memory (R218-R221) and VWAIT (05_harts R124, R125). -/

namespace Sys2Proof.Machine

/-! ### VAMO (R215-R217) -/

/-- What VAMO writes: from the old pattern, the operand and the expected one, the new pattern, or no write (R216). -/
abbrev AmoOp := Descr → Nat → Nat → Nat → Option Nat

/-- One active element of VAMO (R216): alignment, the checks of R183, then the read and the write.
DEDUCED, log 30. -/
def vamoElem (op : AmoOp) (base : Word) (d a b : BitVec 5) (ex : Option (BitVec 5)) (x : Entry) (e : Nat) (s : State) :
    ERes :=
  let k := s.hart
  let ad := (elemAddr (.indexed b) base x k 32 e).1
  if ad.toNat % 4 ≠ 0 then .error (stopAt s (0x08, ad))
  else match s.parts .vamo ad 4 with
    | .error f => .error (stopAt s f)
    | .ok ps =>
      if (AForm.indexed b).marked x k e || k.elemMarked x.cfg a.toNat 32 e
          || ex.any (fun y => k.elemMarked x.cfg y.toNat 32 e) then .error (stopAt s (0x19, ad))
      else match s.checkRead (ps.map Prod.fst) with
        | some (f, s) => .error (stopAt s f)
        | none =>
          let old := s.readParts ps
          let want := match ex with
            | some y => k.elem x.cfg y.toNat 32 e
            | none => 0
          let s := match op x.fmt old (k.elem x.cfg a.toNat 32 e) want with
            | some v => s.putParts x.cfg.cstep ps v (2 ^ 32 - 1)
            | none => s.touchAll ps
          .ok (s.modHart fun k => k.setElem x.cfg d.toNat 32 e old)

/-- VAMO with an operator; `flt` says whether it takes FP32 (R216). -/
def vamoM (h : VHdr) (d a b : BitVec 5) (ex : Option (BitVec 5)) (off : BitVec 16) (flt : Bool) (op : AmoOp) : VM :=
  fun x s =>
  let base := baseOf x off
  let g (r : BitVec 5) : Grp := x.grp r x.fmt.fa
  let ss := g a :: x.grp b x.fmt.fb :: ex.toList.map g
  { c := h.c, slots := [.l, .s], srcs := ss, dsts := [g d], maskR := pmReads h.pm, memory := true, stores := true, broken := true
    uses := memUses base, steps := x.fmt.rm == 5, bad05 := descrReserved x.fval || x.fmt.scl != 0 || x.fmt.rm == 5 || !isInt x.fmt.fb
      || !(x.fmt.fa == 0x12 || x.fmt.fa == 0x13 || (x.fmt.fa == 0 && flt))
    bad04 := overlapAny s.hart x.cfg [g d] ss, len := x.vl
    run := elems fun e s => if s.hart.active h.pm e then vamoElem op base d a b ex x e s else .ok s }

/-- The sum of two patterns (R216): rounded for FP32, wrapped or clamped for the integers. -/
def amoSum : AmoOp := fun q u v _ =>
  some (round q.fa q.rm (q.fa != 0 && q.sat) 0 ((value q.fa u).add (q.rm == 2) (value q.fa v)))
/-- The greater or lesser of two patterns (R216). -/
def amoExt (f : Val → Val → Val) : AmoOp := fun q u v _ =>
  some (round q.fa 0 false 0 (f (value q.fa u) (value q.fa v)))

/-- VAMO.ADD (R216). -/
def mVamoAdd (h : VHdr) (d a b : BitVec 5) (off : BitVec 16) : VM := vamoM h d a b none off true (amoSum)
/-- VAMO.ADD dispatched on its own. -/
def execVamoAdd (h : VHdr) (d a b sr f : BitVec 5) (off : BitVec 16) (s : State) : Out :=
  runSingle (mVamoAdd h d a b off) sr f s

/-- VAMO.SWAP (R216). -/
def mVamoSwap (h : VHdr) (d a b : BitVec 5) (off : BitVec 16) : VM := vamoM h d a b none off true (fun _ _ v _ => some v)
/-- VAMO.SWAP dispatched on its own. -/
def execVamoSwap (h : VHdr) (d a b sr f : BitVec 5) (off : BitVec 16) (s : State) : Out :=
  runSingle (mVamoSwap h d a b off) sr f s

/-- VAMO.AND (R216). -/
def mVamoAnd (h : VHdr) (d a b : BitVec 5) (off : BitVec 16) : VM := vamoM h d a b none off false (fun _ u v _ => some (u &&& v))
/-- VAMO.AND dispatched on its own. -/
def execVamoAnd (h : VHdr) (d a b sr f : BitVec 5) (off : BitVec 16) (s : State) : Out :=
  runSingle (mVamoAnd h d a b off) sr f s

/-- VAMO.OR (R216). -/
def mVamoOr (h : VHdr) (d a b : BitVec 5) (off : BitVec 16) : VM := vamoM h d a b none off false (fun _ u v _ => some (u ||| v))
/-- VAMO.OR dispatched on its own. -/
def execVamoOr (h : VHdr) (d a b sr f : BitVec 5) (off : BitVec 16) (s : State) : Out :=
  runSingle (mVamoOr h d a b off) sr f s

/-- VAMO.MAX (R216). -/
def mVamoMax (h : VHdr) (d a b : BitVec 5) (off : BitVec 16) : VM := vamoM h d a b none off true (amoExt maxV)
/-- VAMO.MAX dispatched on its own. -/
def execVamoMax (h : VHdr) (d a b sr f : BitVec 5) (off : BitVec 16) (s : State) : Out :=
  runSingle (mVamoMax h d a b off) sr f s

/-- VAMO.MIN (R216). -/
def mVamoMin (h : VHdr) (d a b : BitVec 5) (off : BitVec 16) : VM := vamoM h d a b none off true (amoExt minV)
/-- VAMO.MIN dispatched on its own. -/
def execVamoMin (h : VHdr) (d a b sr f : BitVec 5) (off : BitVec 16) (s : State) : Out :=
  runSingle (mVamoMin h d a b off) sr f s

/-- VAMO.CAS (R216). -/
def mVamoCas (h : VHdr) (d a b y : BitVec 5) (off : BitVec 16) : VM :=
  vamoM h d a b (some y) off true fun _ u v w => if u = w then some v else none
/-- VAMO.CAS dispatched on its own. -/
def execVamoCas (h : VHdr) (d a b y sr f : BitVec 5) (off : BitVec 16) (s : State) : Out :=
  runSingle (mVamoCas h d a b y off) sr f s

/-! ### Peer lane memory (R218-R220) -/

/-- The union of the grants that a launch's harts hold on a core covers a row (R219); one that has exited counts with
the grant it had, since R219 gives the union for all H harts of the launch (log 24). -/
def peerGranted (y : Core) (launch row : Nat) : Bool :=
  y.harts.any fun p => p.2.place.launch == launch && p.2.inGrant row
/-- The core runs a hart of a launch: one that has not exited. -/
def Core.runs (y : Core) (launch : Nat) : Bool := y.harts.any fun p => p.2.place.placed && p.2.place.launch == launch

/-- The place of a peer element: the physical core and the byte address; none where the element fails for its
address (R219). -/
def peerPlace (s : State) (va : Word) (n : Nat) : Option (Nat × Nat) :=
  match spaceOf va with
  | some (.peer c a) =>
    let k := s.hart
    match s.physCore k.place.ten.toNat c with
    | none => none
    | some p =>
      let y := s.coreAt p
      if va.toNat % n = 0 ∧ c ≤ 127 ∧ y.runs k.place.launch ∧ peerGranted y k.place.launch (a / 256) then some (p, a)
      else none
  | _ => none

/-- A peer access (R218, R220): its groups, its mask and its checks. No mark of an index or of a predicate traps. Of the
shared resources of its core it takes the banks (01_machine R23). DEDUCED, log 91. -/
def peerM (h : VHdr) (load : Bool) (r : BitVec 5) (m : BitVec 3) (b : BitVec 5)
    (run : Entry → State → State → Nat → Nat → VRes) : VM := fun x s =>
  let g := [x.grp r x.fmt.fa]
  let ix := [x.grp b x.fmt.fb]
  { c := h.c, slots := [if load then .l else .s], srcs := if load then ix else g ++ ix, dsts := if load then g else []
    maskR := pmReads h.pm, maskW := [m.toNat], memory := true, broken := true, steps := !load || x.fmt.rm == 5
    stores := !load, uses := [.banks], marksAt := some fun _ _ => false
    bad05 := memBad05 (.indexed b) x, len := x.vl
    bad04 := (load && overlapAny s.hart x.cfg g ix) || h.pm == some m, run := run x s }

/-- One element of VLDP (R219, R220). -/
def vldpElem (h : VHdr) (d : BitVec 5) (m : BitVec 3) (b : BitVec 5) (off : BitVec 16) (x : Entry) (e : Nat) (s : State) :
    ERes :=
  let n := memWidth x.fmt.fa / 8
  let va := (elemAddr (.indexed b) (baseOf x off) x s.hart (8 * n) e).1
  let bit (s : State) (v : Bool) : State := s.modHart fun k => k.setMaskBit m.toNat e v
  if !s.hart.active h.pm e then .ok (bit s false)
  else match peerPlace s va n with
    | none => .ok (bit s false)
    | some (c, a) =>
      let loc : Loc := .lm c a
      if s.marked loc then .ok (bit s false)
      else if s.hasError loc then .ok (bit (s.mark loc) false)
      else
        let v := s.readLoc loc n
        .ok (bit (s.modHart fun k => k.setElem x.cfg d.toNat (contWidth x.fmt.fa) e v) true)

/-- VLDP (R218-R220). -/
def mVldp (h : VHdr) (d : BitVec 5) (m : BitVec 3) (b : BitVec 5) (off : BitVec 16) : VM :=
  peerM h true d m b fun x _ => elems (vldpElem h d m b off x)
/-- VLDP dispatched on its own. -/
def execVldp (h : VHdr) (d : BitVec 5) (m : BitVec 3) (sr b f : BitVec 5) (off : BitVec 16) (s : State) : Out :=
  runSingle (mVldp h d m b off) sr f s

/-- The access of an element of VSTP; none where it fails for its address. -/
def vstpAcc (b : BitVec 5) (off : BitVec 16) (x : Entry) (s : State) (v e : Nat) : Option Acc :=
  let n := memWidth x.fmt.fa / 8
  (peerPlace s (elemAddr (.indexed b) (baseOf x off) x s.hart (8 * n) e).1 n).map fun p =>
    Acc.ofNat (.lm p.1 p.2) n v

/-- The earlier active elements of this run of VSTP, from `lo` on, that succeeded, as their bits of the mask say, with
their accesses. -/
def vstpBefore (h : VHdr) (m : BitVec 3) (b : BitVec 5) (off : BitVec 16) (x : Entry) (s : State) (lo e : Nat) :
    List (Nat × List Acc) :=
  ((List.range e).filter fun i => decide (lo ≤ i) && s.hart.active h.pm i && s.hart.maskBit m.toNat i).map fun i =>
    (i, (vstpAcc b off x s 0 i).toList)

/-- One element of VSTP in a run from `lo` (R219, R220): one that fails never traps, whatever mark its data carries; of
two elements that write a byte one remains (log 12). Of several in a word with an error that no mark records the lowest fails
and marks it, and those after it write. DESIGN CHOICE, log 120. DEDUCED, log 30. -/
def vstpElem (h : VHdr) (a : BitVec 5) (m : BitVec 3) (b : BitVec 5) (off : BitVec 16) (x : Entry) (lo e : Nat) (s : State) :
    ERes :=
  let k := s.hart
  let w := contWidth x.fmt.fa
  let va := (elemAddr (.indexed b) (baseOf x off) x k w e).1
  let bit (s : State) (v : Bool) : State := s.modHart fun k => k.setMaskBit m.toNat e v
  if !k.active h.pm e then .ok (bit s false)
  else match vstpAcc b off x s (k.elem x.cfg a.toNat w e) e with
    | none => .ok (bit s false)
    | some acc =>
      if !s.marked acc.loc && s.hasError acc.loc then .ok (bit (s.mark acc.loc) false)
      else if k.elemMarked x.cfg a.toNat w e then .error (stopAt s (0x19, va))
      else
        let acc := keptBytes s.tick (memWidth x.fmt.fa / 8) e (vstpBefore h m b off x s lo e) acc
        .ok (bit (s.write { through := false, step := some x.cfg.cstep } acc) true)

/-- VSTP (R218-R220). -/
def mVstp (h : VHdr) (a : BitVec 5) (m : BitVec 3) (b : BitVec 5) (off : BitVec 16) : VM :=
  peerM h false a m b fun x _ s lo hi => elems (vstpElem h a m b off x lo) s lo hi
/-- VSTP dispatched on its own. -/
def execVstp (h : VHdr) (a : BitVec 5) (m : BitVec 3) (sr b f : BitVec 5) (off : BitVec 16) (s : State) : Out :=
  runSingle (mVstp h a m b off) sr f s

/-! ### Words that wait -/

/-- A word that may wait, captured and dispatched now: while it waits it stands at the head of the vector queue. -/
def runWaiting (i : Instr) (m : VM) (sreg freg : BitVec 5) (s : State) : Out :=
  if s.hart.vec.vs = 0 then .next s
  else
    let x := { s.capture sreg freg with word := (encode64 i).getD 0 }
    let w : CWord := (x, m x s)
    match dispatchCheck s.hart [w] with
    | some (code, tval, e) => .next (s.vectorTrap code tval [] x.addr e)
    | none =>
      match runConvoy s [w] [] (2 ^ 32) with
      | .done t => .next t
      | .stopped _ t => .next t
      | .wait es t => .next (t.modHart fun k => k.modQ fun q => { q with vq := x :: q.vq, flight := some es })
      | .fault es e code tval t => .next (t.vectorTrap code tval es x.addr e)
      | .after _ code tval t => .next (t.vectorTrap code tval [] (x.addr + 8) none)

/-! ### VWAIT (05_harts R124) -/

/-- The read pass over the unmet elements in order: the elements met so far, or an element fault (R124). A marked chunk of
either group is met before the checks of the element's address. DESIGN CHOICE, log 99. -/
def vwaitPass (d a : BitVec 5) (x : Entry) : List Nat → List Nat → State → Except (Nat × BitVec 8 × Word × State) (List Nat × State)
  | [], met, s => .ok (met, s)
  | e :: r, met, s =>
    let va := s.hart.chunk x.cfg d.toNat e
    if s.hart.chunkMarked x.cfg d.toNat e || s.hart.chunkMarked x.cfg a.toNat e then .error (e, 0x19, va, s)
    else if va.toNat % 8 ≠ 0 then .error (e, 0x08, va, s)
    else match s.parts .vload va 8 with
      | .error f => .error (e, stopAt s f)
      | .ok ps =>
        match s.checkRead (ps.map Prod.fst) with
        | some (f, s) => .error (e, f.1, f.2, s)
        | none =>
          let met := if BitVec.ofNat 64 (s.readParts ps) = s.hart.chunk x.cfg a.toNat e then met ++ [e] else met
          vwaitPass d a x r met (s.touchAll ps)

/-- The active elements of VWAIT. -/
def vwaitActive (h : VHdr) (x : Entry) (k : Hart) : List Nat := (List.range x.vl).filter (k.active h.pm)

/-- VWAIT's result: the active elements that are not met (R124). -/
def vwaitResult (h : VHdr) (m : BitVec 3) (x : Entry) (met : List Nat) (s : State) : State :=
  s.modHart fun k =>
    let un := (vwaitActive h x k).filter fun e => !met.contains e
    let k := (List.range x.vl).foldl (fun k e => k.setMaskBit m.toNat e (un.contains e)) k
    k.modQ fun q => { q with stall := .none }

/-- The elements a sleeping VWAIT has met. -/
def metSoFar (s : State) : List Nat :=
  match s.hart.q.stall with
  | .vwait met => met
  | _ => []

/-- The shared resources that a read pass of VWAIT takes up: the banks for the words in the hart's own lane memory, a
slice port for the others (01_machine R23). -/
def vwaitUses (h : VHdr) (d : BitVec 5) (x : Entry) (s : State) : List Resource :=
  let us := ((vwaitActive h x s.hart).filter fun e => !(metSoFar s).contains e).map fun e => memUses (s.hart.chunk x.cfg d.toNat e)
  [.banks, .slice].filter fun r => us.any fun u => u.contains r

/-- VWAIT (R124): a read pass, then done, or asleep until a wake, a poll or the timeout. -/
def mVwait (h : VHdr) (m : BitVec 3) (d a : BitVec 5) : VM := fun x s =>
  let g (r : BitVec 5) : Grp := { base := r.toNat, n := x.vl, w := 64 }
  { c := h.c, alone := true, srcs := [g d, g a], maskR := pmReads h.pm, maskW := [m.toNat], memory := true
    uses := vwaitUses h d x s, whole := true, es0 := true, len := x.vl
    run := fun s _ _ =>
      let act := vwaitActive h x s.hart
      match vwaitPass d a x (act.filter fun e => !(metSoFar s).contains e) (metSoFar s) s with
      | .error (e, code, tval, s) => .fault e code tval s
      | .ok (met, s) =>
        if act.all (fun e => met.contains e) || x.sval == 0 then .ok (vwaitResult h m x met s)
        else .wait 0 (s.modHart fun k => k.modQ fun q => { q with stall := .vwait met }) }
/-- VWAIT dispatched on its own. -/
def execVwait (h : VHdr) (m : BitVec 3) (d a sr : BitVec 5) (s : State) : Out :=
  runWaiting (.vwait h m d a sr) (mVwait h m d a) sr 0 s

end Sys2Proof.Machine
end

