-- ==== Sys2Proof/Machine/Collect.lean ====
section
/-! DEFINITION. The collective words VST.C and VLD.C (13_collective R294-R299) and remote stores, VSTR (R300-R302). -/

namespace Sys2Proof.Machine

/-! ### Groups (R294) -/

/-- Bytes read through the hart's translation; none where they cannot be read, or where they carry a mark or an error. An
error that no mark records stays unrecorded here. DESIGN CHOICE, log 106. The hart's own lane memory is read as well, as a
load reads it. DESIGN CHOICE, log 113. -/
def State.peek (s : State) (a : Word) (n : Nat) : Option Nat :=
  match s.parts .vload a n with
  | .error _ => none
  | .ok ps =>
    if ps.any fun p => s.marked p.1.loc || s.hasError p.1.loc then none else some (s.readParts ps)

/-- Member records from an address on; none where one cannot be read or breaks its layout (R294). -/
def State.memberRecs (s : State) (a : Word) : Nat → Option (List Word)
  | 0 => some []
  | n + 1 =>
    match s.peek a 8, s.memberRecs (a + 8) n with
    | some v, some r =>
      let w := BitVec.ofNat 64 v
      if w.extractLsb' 40 7 ≠ 0 ∨ w.extractLsb' 27 5 ≠ 0 ∨ w.extractLsb' 0 24 ≠ 0 then none else some (w :: r)
    | _, _ => none

/-- The GROUPS address of the hart's launch. -/
def State.groupsAddr (s : State) : Word :=
  match s.launches.find? fun l => l.id == s.hart.place.launch with
  | some l => l.groups
  | none => 0

/-- A group-table entry as memory holds it (R294). -/
def State.readGroup (s : State) (handle : Nat) : Option GroupEnt :=
  let g := s.groupsAddr
  if g = 0 then none
  else match s.peek g 8 with
    | none => none
    | some hd =>
      if hd ≥ 2 ^ 16 ∨ handle ≥ hd then none
      else
        let e := g + 8 + BitVec.ofNat 64 (16 * handle)
        match s.peek e 8, s.peek (e + 8) 8 with
        | some mem, some v =>
          let p := v % 2 ^ 16
          let flags := v / 2 ^ 16 % 256
          if mem % 8 ≠ 0 ∨ p = 0 ∨ p > 1024 ∨ flags > 1 ∨ v / 2 ^ 24 ≠ 0 then none
          else (s.memberRecs (BitVec.ofNat 64 mem) p).map fun r => { handle := handle, gather := flags == 1, members := r }
        | _, _ => none

/-- The entry a core uses: the one it holds, or the table's (R294). -/
def State.groupOf (s : State) (handle : Nat) : Option GroupEnt :=
  match s.core.groups.find? fun g => g.handle == handle with
  | some g => some g
  | none => s.readGroup handle

/-- The device, core and hart that a record names (R294, 11_route R242). -/
def recDev (w : Word) : Nat := (w.extractLsb' 47 17).toNat
/-- The core a record names, as the tenancy sees it. -/
def recCore (w : Word) : Nat := (w.extractLsb' 32 8).toNat
/-- The hart a record names. -/
def recHart (w : Word) : Nat := (w.extractLsb' 24 3).toNat

/-- The rank of the hart in a group: the lowest record that names it (R294). -/
def State.rankIn (s : State) (g : GroupEnt) : Option Nat :=
  g.members.findIdx? fun w =>
    recDev w == s.mgr.devnum.toNat && s.tenCore s.hart.place.ten.toNat s.cc == some (recCore w) && recHart w == s.ch

/-! ### Windows (R296) -/

/-- A .C word's window: its address, chunk size, elements of a chunk, first chunk and number of chunks. -/
structure Win where
  addr  : Word
  str   : Nat
  per   : Nat
  first : Nat
  n     : Nat
  deriving DecidableEq, Repr

/-- The window of a captured .C word (R296). -/
def winOf (x : Entry) (off : BitVec 16) : Win :=
  let a := baseOf x off
  let str := x.cfg.cstr.toNat
  let b := memWidth x.fmt.fa / 8
  { addr := a, str := str, per := str / b, first := a.toNat / str, n := x.vl * b / str }

/-- CSTR keeps its rule (R293). -/
def cstrLegal (v : Nat) : Bool := v % 256 == 0 && decide (256 ≤ v) && decide (v ≤ 2 ^ 24)

/-- The formats of the collectives (R296). -/
def isCollective (f : Nat) : Bool := f == 0 || f == 2 || f == 3 || f == 0x12 || f == 0x13

/-- K of the captured COPR (R293). -/
def Entry.coprK (x : Entry) : Nat := (x.cfg.copr.extractLsb' 8 5).toNat
/-- The captured HANDLE. -/
def Entry.handle (x : Entry) : Nat := x.cfg.cgrp.toNat

/-- The checks of R296 with cause 0x05 that both .C words make. -/
def winBad05 (x : Entry) (off : BitVec 16) : Bool :=
  let q := x.fmt
  let a := (baseOf x off).toNat
  let str := x.cfg.cstr.toNat
  descrReserved x.fval || q.scl != 0 || q.rm == 5 || !isCollective q.fa || (x.coprK != 0 && isInt q.fa)
    || !cstrLegal str || a % str != 0 || x.vl * (memWidth q.fa / 8) % str != 0

/-- Cause 0x2A at dispatch (R294). `reads` says that the word reads every chunk of its window. -/
def groupFails (x : Entry) (off : BitVec 16) (reads : Bool) (s : State) : Bool :=
  match s.groupOf x.handle with
  | none => true
  | some g =>
    match s.rankIn g with
    | none => true
    | some r =>
      let w := winOf x off
      reads && !g.gather && (List.range w.n).any fun i => (w.first + i) % g.members.length != r

/-- The group and rank a word runs with; the core keeps the entry from the first word that runs (R294). DESIGN CHOICE, log 107. -/
def State.useGroup (s : State) (handle : Nat) : Option (GroupEnt × Nat × State) :=
  match s.groupOf handle with
  | none => none
  | some g =>
    (s.rankIn g).map fun r =>
      (g, r, s.modCore fun y => if y.groups.any fun k => k.handle == handle then y else { y with groups := y.groups ++ [g] })

/-! ### VST.C (R297) -/

/-- The place of a value in the order of magnitude: finite, infinite, NaN (R297). -/
def magAbove (u v : Val) : Bool :=
  match u, v with
  | .nan, .nan => false
  | .nan, _ => true
  | _, .nan => false
  | u, v => cmpV u.abs v.abs == some .gt

/-- Of the positions of a block, the one of greatest magnitude, the lowest on a tie. -/
def greatest (fa : Nat) (ps : List (Nat × Nat)) : Option (Nat × Nat) :=
  ps.foldl (fun m p => match m with
    | none => some p
    | some q => if magAbove (value fa p.2) (value fa q.2) then some p else some q) none

/-- The `k` positions of greatest magnitude (R297). -/
def selectTop (fa : Nat) : Nat → List (Nat × Nat) → List Nat
  | 0, _ => []
  | k + 1, ps =>
    match greatest fa ps with
    | none => []
    | some p => p.1 :: selectTop fa k (ps.filter fun q => q.1 != p.1)

/-- The positions of a chunk that are sent (R297): all, or K of each 32-element block. -/
def sentPositions (fa k : Nat) (ps : List Nat) : List Nat :=
  if k = 0 then List.range ps.length
  else (List.range (ps.length / 32)).flatMap fun b =>
    selectTop fa k ((List.range 32).map fun i => (32 * b + i, ps.getD (32 * b + i) 0))

/-- One chunk of VST.C: the contribution sent and the residual written (R297). -/
def sendChunk (d a : BitVec 5) (x : Entry) (w : Win) (g : GroupEnt) (rank id i : Nat) (s : State) : State :=
  let q := x.fmt
  let c := contWidth q.fa
  let ps := (List.range w.per).map fun e => s.hart.elem x.cfg a.toNat c (i * w.per + e)
  let sel := sentPositions q.fa x.coprK ps
  let chunk := w.first + i
  let owner := g.members.getD (chunk % g.members.length) 0
  let m : Contrib := { ten := s.hart.place.ten, system := s.hart.trap.system, handle := x.handle, step := x.cfg.cstep, chunk := chunk, rank := rank
                       ranks := g.members.length, gather := g.gather, op := x.cfg.copr.extractLsb' 0 2
                       fa := BitVec.ofNat 5 q.fa, rm := BitVec.ofNat 3 q.rm, sat := q.sat, stride := w.str
                       elems := ps.zipIdx.map fun p => if sel.contains p.2 then BitVec.ofNat 32 p.1 else 0
                       marked := false, odev := recDev owner, ocore := recCore owner, ohart := recHart owner
                       sdev := s.mgr.devnum.toNat, score := s.cc, shart := s.ch, id := id }
  let s := s.send (recDev owner) (.contrib m)
  if x.coprK = 0 then s
  else s.modHart fun k => ps.zipIdx.foldl (fun k p =>
    k.setElem x.cfg d.toNat c (i * w.per + p.2) (if sel.contains p.2 then 0 else p.1)) k

/-- The first element of VST.C's data whose chunk carries a mark (R296). -/
def vstCMark (a : BitVec 5) (x : Entry) (k : Hart) : Option Nat :=
  (List.range x.vl).find? fun e => k.elemMarked x.cfg a.toNat (contWidth x.fmt.fa) e

/-- Whether an owner can be reached, and stands for an acknowledgement otherwise (R297, 15_device R346). -/
def unreached (s : State) (w : Win) (g : GroupEnt) : List Nat :=
  ((List.range w.n).map fun i => (w.first + i) % g.members.length).filter fun r =>
    !s.reachable (recDev (g.members.getD r 0))

/-- VST.C begun or continued (R297); with VL = 0 it accesses nothing (R296). Everything is sent once, then it waits for each owner's acknowledgement, and a
refusal is a trap after completion. -/
def vstCRun (d a : BitVec 5) (off : BitVec 16) (x : Entry) (s : State) : VRes :=
  let done (s : State) : State := s.modHart fun k => k.modQ fun q => { q with stall := .none }
  if x.vl = 0 then .ok s
  else match s.hart.q.stall with
  | .vstC _ 0 refused =>
    match refused with
    | [] => .ok (done s)
    | r :: rs => .after 0x2A (BitVec.ofNat 64 (rs.foldl min r)) (done s)
  | .vstC .. => .wait 0 s
  | _ =>
    match s.useGroup x.handle with
    | none => .ok s
    | some (g, rank, s) =>
      let w := winOf x off
      let f := s.freshId
      let lost := unreached f.2 w g
      let s := (List.range w.n).foldl (fun s i => sendChunk d a x w g rank f.1 i s) f.2
      let stall (n : Nat) : State :=
        s.modHart fun k => k.modQ fun q => { q with stall := .vstC f.1 n lost }
      if w.n = 0 then .ok s
      else if lost.length = w.n then .after 0x2A (BitVec.ofNat 64 (lost.foldl min 1024)) s
      else .wait 0 (stall (w.n - lost.length))

/-- VST.C (R295-R297). DEDUCED, log 34. Cause 0x2A comes before cause 0x19. DESIGN CHOICE, log 97. -/
def mVstC (c : Bool) (d a : BitVec 5) (off : BitVec 16) : VM := fun x s =>
  let g := x.grp a x.fmt.fa
  let ds := if x.coprK = 0 then [] else [x.grp d x.fmt.fa]
  { c := c, slots := [.s], srcs := [g], dsts := ds, memory := true, stores := true, broken := true, steps := true
    uses := [.slice], bad05 := winBad05 x off || (x.coprK == 0 && d != 0)
    bad04 := overlapAny s.hart x.cfg ds [g]
    late := if x.vl = 0 then none else if groupFails x off false s then some (0x2A, BitVec.ofNat 64 x.handle, none)
      else (vstCMark a x s.hart).map fun e => (0x19, Config.freeWord s.tick, some e)
    whole := true, es0 := true, len := x.vl, run := fun s _ _ => vstCRun d a off x s }
/-- VST.C dispatched on its own. -/
def execVstC (c : Bool) (d a sr f : BitVec 5) (off : BitVec 16) (s : State) : Out :=
  runWaiting (.vstC c d a sr f off) (mVstC c d a off) sr f s

/-! ### VLD.C (R299) -/

/-- What the port of a core records of a group's chunk. -/
def Core.chunkRec (y : Core) (handle chunk : Nat) : ChunkRec :=
  (y.recs.find? fun r => r.handle == handle && r.chunk == chunk).getD
    { handle := handle, chunk := chunk, ls := none, failed := [], served := 0 }
/-- The combined result of a step, or of a later one, has been written. -/
def ChunkRec.ready (r : ChunkRec) (step : Word) : Bool := r.ls.any fun l => decide (step.toNat ≤ l.toNat)

/-- An element of VLD.C loaded from own memory as raw bytes (R299, 03_formats R85). -/
def vldCElem (d : BitVec 5) (a : Word) (x : Entry) (e : Nat) (s : State) : ERes :=
  let n := memWidth x.fmt.fa / 8
  match s.parts .vload (a + BitVec.ofNat 64 (n * e)) n with
  | .error f => .error (stopAt s f)
  | .ok ps =>
    match s.checkRead (ps.map Prod.fst) with
    | some (f, s) => .error (stopAt s f)
    | none =>
      let v := s.readParts ps
      .ok ((s.touchAll ps).modHart fun k => k.setElem x.cfg d.toNat (contWidth x.fmt.fa) e v)

/-- VLD.C from element `lo` on, chunk by chunk, with fuel for its chunks (R299). -/
def vldCRun (d : BitVec 5) (x : Entry) (w : Win) (g : GroupEnt) (rank : Nat) : Nat → Nat → State → VRes
  | 0, _, s => .ok s
  | fuel + 1, lo, s =>
    let i := lo / w.per
    if i ≥ w.n then .ok s
    else
      let chunk := w.first + i
      let e0 := i * w.per
      if chunk % g.members.length = rank then
        let r := s.core.chunkRec x.handle chunk
        if r.failed.contains x.cfg.cstep then .fault e0 0x2A (BitVec.ofNat 64 (chunk * w.str)) s
        else if r.ready x.cfg.cstep then
          match elems (vldCElem d w.addr x) s lo (e0 + w.per) with
          | .ok s => vldCRun d x w g rank fuel (e0 + w.per) s
          | r => r
        else .wait lo (s.modHart fun k => k.modQ fun q => { q with stall := .vldC 0 chunk })
      else match s.hart.q.stall with
        | .vldC _ _ => .wait e0 s
        | _ =>
          let owner := g.members.getD (chunk % g.members.length) 0
          let f := s.freshId
          let m : FetchMsg := { ten := s.hart.place.ten, system := s.hart.trap.system, handle := x.handle
                                step := x.cfg.cstep, chunk := chunk, stride := w.str, odev := recDev owner, ocore := recCore owner, ohart := recHart owner
                                sdev := s.mgr.devnum.toNat, score := s.cc, shart := s.ch, id := f.1 }
          .wait e0 ((f.2.send (recDev owner) (.fetch m)).modHart fun k =>
            k.modQ fun q => { q with stall := .vldC f.1 chunk })

/-- VLD.C (R295, R296, R299); with VL = 0 it accesses nothing (R296). DEDUCED, log 34. -/
def mVldC (c : Bool) (d : BitVec 5) (off : BitVec 16) : VM := fun x s =>
  { c := c, slots := [.l], dsts := [x.grp d x.fmt.fa], memory := true, broken := true
    uses := [.slice], steps := x.fmt.rm == 5, bad05 := winBad05 x off
    late := if x.vl ≠ 0 && groupFails x off true s then some (0x2A, BitVec.ofNat 64 x.handle, none) else none
    whole := true, len := x.vl
    run := fun s lo _ =>
      if x.vl = 0 then .ok s
      else match s.useGroup x.handle with
      | none => .ok s
      | some (g, rank, s) =>
        let s := match s.hart.q.stall with
          | .vldC 0 _ => s.modHart fun k => k.modQ fun q => { q with stall := .none }
          | _ => s
        vldCRun d x (winOf x off) g rank ((winOf x off).n + 1) lo s }
/-- VLD.C dispatched on its own. -/
def execVldC (c : Bool) (d sr f : BitVec 5) (off : BitVec 16) (s : State) : Out :=
  runWaiting (.vldC c d sr f off) (mVldC c d off) sr f s

/-! ### VSTR (R300-R302) -/

/-- A train entry: the element, its physical address and width, its device and class, its data. -/
structure TEnt where
  e    : Nat
  pa   : Nat
  n    : Nat
  dev  : Nat
  cls  : BitVec 3
  data : BitVec 32
  deriving DecidableEq, Repr

/-- The parts of an element as train entries; parts that follow one another are one entry. DEDUCED, log 32. -/
def tentOf (e : Nat) : List (Part × Nat) → Nat → List TEnt
  | [], _ => []
  | (p, n) :: r, v =>
    match p.tr with
    | none => []
    | some t =>
      let me : TEnt := { e := e, pa := t.pa, n := n, dev := t.dev, cls := t.cls, data := BitVec.ofNat 32 (v % 256 ^ n) }
      match tentOf e r (v / 256 ^ n) with
      | y :: ys =>
        if y.pa = t.pa + n ∧ y.dev = t.dev then { me with n := n + y.n, data := BitVec.ofNat 32 v } :: ys else me :: y :: ys
      | [] => [me]

/-- An active element of VSTR checked: its parts and its entries, or its fault (R300). DEDUCED, log 30. -/
def vstrElem (a b : BitVec 5) (off : BitVec 16) (x : Entry) (s : State) (e : Nat) :
    Except Failure (List Part × List TEnt) :=
  let k := s.hart
  let w := contWidth x.fmt.fa
  let va := (elemAddr (.indexed b) (baseOf x off) x k w e).1
  match s.parts .vremote va (memWidth x.fmt.fa / 8) with
  | .error f => .error f
  | .ok ps =>
    if k.elemMarked x.cfg a.toNat w e || (AForm.indexed b).marked x k e then .error (0x19, va)
    else .ok (ps.map Prod.fst, tentOf e ps (k.elem x.cfg a.toNat w e))

/-- The checked elements up to the first that fails, and that failure (R183). -/
def vstrList (f : Nat → Except Failure (List Part × List TEnt)) :
    List Nat → List Part × List TEnt × Option (Nat × BitVec 8 × Word)
  | [] => ([], [], none)
  | e :: r =>
    match f e with
    | .error y => ([], [], some (e, y.1, y.2))
    | .ok v =>
      let t := vstrList f r
      (v.1 ++ t.1, v.2 ++ t.2.1, t.2.2)

/-- The entries of VSTR by destination device, in the order of their lowest element (R301). -/
def trainsOf (l : List TEnt) : List (Nat × List TEnt) :=
  (l.map TEnt.dev).eraseDups.map fun d => (d, l.filter fun p => p.dev == d)

/-- Bits of a mask cleared for elements. -/
def clearBits (m : BitVec 3) (es : List Nat) (s : State) : State :=
  s.modHart fun k => es.foldl (fun k e => k.setMaskBit m.toNat e false) k

/-- A train's destination can be reached: a device of the pod to which no port or switch on the way is down (R302,
log 15). -/
def State.trainReaches (s : State) (dev : Nat) : Bool :=
  s.reachable dev && (dev == s.mgr.devnum.toNat || Config.inPod dev)

/-- A train: the header names the source core as the tenancy numbers it (15_device R343) and its launch tag, and the
tail holds the count and the check code (R301). -/
def trainMsg (x : Entry) (s : State) (id : Nat) (t : Nat × List TEnt) : TrainMsg :=
  { ten := s.hart.place.ten, sdev := s.mgr.devnum.toNat, score := (s.tenCore s.hart.place.ten.toNat s.cc).getD 0
    shart := s.ch, tag := s.core.ltag, id := id, ddev := t.1, width := memWidth x.fmt.fa / 8, step := x.cfg.cstep
    elems := t.2.map fun p => { pa := p.pa, n := p.n, cls := p.cls, data := p.data }
    count := BitVec.ofNat 32 t.2.length
    check := Config.checkCode (t.2.map fun p => (p.pa, p.data.toNat)) }

/-- VSTR begun or continued (R300-R302): its trains are sent once; it completes, or takes its element fault, when
every train is acknowledged. -/
def vstrRun (h : VHdr) (a : BitVec 5) (m : BitVec 3) (b : BitVec 5) (off : BitVec 16) (x : Entry) (s : State) (lo : Nat) :
    VRes :=
  let ends (s : State) (f : Option (Nat × BitVec 8 × Word)) : VRes :=
    let s := s.modHart fun k => k.modQ fun q => { q with stall := .none }
    match f with
    | some (e, code, tval) => .fault e code tval (s.markWalk s.cc s.hart.ptroot code tval)
    | none => .ok s
  match s.hart.q.stall with
  | .vstr _ [] f => ends s f
  | .vstr .. => .wait lo s
  | _ =>
    let all := (List.range (x.vl - lo)).map (lo + ·)
    let r := vstrList (vstrElem a b off x s) (all.filter (s.hart.active h.pm))
    let f := r.2.2
    let stop := match f with
      | some p => p.1
      | none => x.vl
    let s := (r.1.foldl (fun s p => s.touch s.cc s.hart p.va) s).setDirty r.1
    let s := s.modHart fun k => (all.filter fun e => decide (e < stop)).foldl
      (fun k e => k.setMaskBit m.toNat e (k.active h.pm e)) k
    let trains := trainsOf r.2.1
    let id := s.freshId
    let s := trains.foldl (fun s t =>
      if s.trainReaches t.1 then s.send t.1 (.train (trainMsg x s id.1 t)) else clearBits m (t.2.map TEnt.e) s) id.2
    let left := (trains.filter fun t => s.trainReaches t.1).map fun t => (t.1, t.2.map TEnt.e)
    if left.isEmpty then ends s f
    else .wait lo (s.modHart fun k => k.modQ fun q => { q with stall := .vstr id.1 left f })

/-- VSTR (R300-R302). -/
def mVstr (h : VHdr) (a : BitVec 5) (m : BitVec 3) (b : BitVec 5) (off : BitVec 16) : VM := fun x _ =>
  { c := h.c, slots := [.s], srcs := [x.grp a x.fmt.fa, x.grp b x.fmt.fb], maskR := pmReads h.pm, maskW := [m.toNat]
    memory := true, stores := true, broken := true, uses := [.slice], steps := true, bad05 := memBad05 (.indexed b) x, bad04 := h.pm == some m
    whole := true, len := x.vl, run := fun s lo _ => vstrRun h a m b off x s lo }
/-- VSTR dispatched on its own. -/
def execVstr (h : VHdr) (a : BitVec 5) (m : BitVec 3) (sr b f : BitVec 5) (off : BitVec 16) (s : State) : Out :=
  runWaiting (.vstr h a m sr b f off) (mVstr h a m b off) sr f s

end Sys2Proof.Machine
end

