-- ==== Sys2Proof/Machine/Comb.lean ====
section
/-! DEFINITION. Comb instructions: shape, tiles, the triadic product, windows, tile save and load (10_comb R222-R238). -/

namespace Sys2Proof.Machine

/-! ### Tiles and shape (R222, R223) -/

/-- Element (i, j) of the hart's tile `t`, an FP32 pattern. -/
def Hart.tileAt (k : Hart) (t i j : Nat) : BitVec 32 := mget 0 k.store.tiles (t * 1024 + 32 * i + j)
/-- Element (i, j) of the hart's tile `t` written. -/
def Hart.setTile (k : Hart) (t i j : Nat) (p : BitVec 32) : Hart :=
  (k.modStore fun u => { u with tiles := mput 0 u.tiles (t * 1024 + 32 * i + j) p }).dirtyTile t

/-- A value that CSHP accepts (R223). -/
def cshapeLegal (v : Word) : Bool :=
  let kp := (v.extractLsb' 16 7).toNat
  let qs := (v.extractLsb' 8 3).toNat
  let mode := (v.extractLsb' 4 3).toNat
  v >>> 23 == 0 && v.extractLsb' 11 5 == 0 && v.extractLsb' 7 1 == 0 && decide (1 ≤ kp) && decide (kp ≤ 64)
    && decide (qs ≤ 5) && (qs == 0 || mode == 3) && decide (mode ≤ 4)
    && decide ((v.extractLsb' 2 2).toNat ≤ 2) && decide ((v.extractLsb' 0 2).toNat ≤ 2)

/-- A shape: panels, mode, Q, M and N (R223). -/
structure CShape where
  kp   : Nat
  mode : Nat
  q    : Nat
  m    : Nat
  n    : Nat
  deriving DecidableEq, Repr

/-- The shape that CSHAPE holds. -/
def cshapeOf (v : Word) : CShape :=
  let mode := (v.extractLsb' 4 3).toNat
  { kp := (v.extractLsb' 16 7).toNat, mode := mode, q := if mode = 3 then 2 <<< (v.extractLsb' 8 3).toNat else 1
    m := 8 <<< (v.extractLsb' 0 2).toNat, n := 8 <<< (v.extractLsb' 2 2).toNat }
/-- K. -/
def CShape.k (c : CShape) : Nat := 64 * c.kp

/-- A tile number beyond the hart's share: cause 0x06 (R222). -/
def tileEarly (k : Hart) (x : Entry) (t : BitVec 3) : Option Failure :=
  if t.toNat ≥ 8 / k.place.h.toNat then some (0x06, x.addr) else none

/-- The first of several elements whose chunk carries a mark, as the register that holds it (R236). -/
def firstMark (k : Hart) (c : Cfg) (v w : Nat) (es : List Nat) : Option Nat :=
  (es.find? fun e => k.elemMarked c v w e).map fun e => v + e / perChunk w / cpr k c
/-- A comb word stops on a mark: VTELEM the register, STVAL 0 (R236). -/
def combMark (r : Nat) (s : State) : VRes := .fault r 0x19 0 s

/-! ### CTRI (R228-R232) -/

/-- Stage 1: one term (R231). -/
def stage1 (a b g : Val) : Val :=
  match (a.mul b).mul g with
  | .num neg n e false =>
    let sh := bitLen n - 27
    if sh = 0 then .num neg n e false
    else
      let m := n >>> sh
      .num neg (m + if awayFromZero 0 neg (m % 2 = 1) (fracOf n sh false) 0 then 1 else 0) (e + sh) false
  | v => v

/-- A term scaled by an E8M0 code (R230). -/
def scaledTerm (t : Val) (code : Nat) : Val := if code = 0xFF then .nan else t.scale ((code : Int) - 127)

/-- floor(|t| / u) with its sign, u = 2^ue (R232). -/
def alignTerm (ue : Int) : Val → Int
  | .num neg n e _ =>
    let q : Int := if ue ≤ e then (shl n (e - ue) : Nat) else (n >>> (ue - e).toNat : Nat)
    if neg then -q else q
  | _ => 0

/-- Stage 2: a panel's terms with the accumulator, as an FP32 pattern (R232). -/
def stage2 (terms : List Val) (acc : Val) : Nat :=
  let all := acc :: terms
  let isNan : Val → Bool := fun v => v == .nan
  if all.any isNan || (all.contains (.inf true) && all.contains (.inf false)) then 0x7FC00000
  else if all.contains (.inf true) then 0xFF800000
  else if all.contains (.inf false) then 0x7F800000
  else
    let nz := all.filter fun v => !v.isZero
    match nz with
    | [] => if all.all Val.neg then 0x80000000 else 0
    | v :: vs =>
      let top : Val → Int := fun v => match v with
        | .num _ n e _ => ilog n e
        | _ => 0
      let ue := vs.foldl (fun m w => max m (top w)) (top v) - 40
      let sum := (nz.map (alignTerm ue)).sum
      if sum = 0 then 0 else round 0 0 false 0 (.num (decide (sum < 0)) sum.natAbs ue false)

/-- The operands of CTRI as values, read once. -/
structure CtriIn where
  a  : List Val
  b  : List Val
  g  : List Val
  sa : List Nat
  sb : List Nat
  deriving DecidableEq, Repr

/-- A value of a list; NaN past its end. -/
def valAt (l : List Val) (i : Nat) : Val := l.getD i .nan

/-- Term k of element (i, j) (R228, R230, R231). -/
def ctriTerm (c : CShape) (scl blen : Nat) (o : CtriIn) (i j k : Nat) : Val :=
  let ia := k / 64 * 64 * c.m + i * 64 + k % 64
  let ib := k / 64 * 64 * c.n + j * 64 + k % 64
  let r := k / c.q
  let pw := 64 / c.q
  let b := if c.mode = 3 then valAt o.b (r / pw * pw * c.n + j * pw + r % pw) else valAt o.b ib
  let g := match c.mode with
    | 0 => Val.num false 1 0 false
    | 1 => valAt o.g ia
    | 2 => valAt o.g ib
    | 3 => valAt o.g (j * c.q + k % c.q)
    | _ => valAt o.g k
  let t := stage1 (valAt o.a ia) b g
  let t := if scl % 2 = 1 then scaledTerm t (o.sa.getD (k / blen * c.m + i) 0xFF) else t
  if scl / 2 = 1 then scaledTerm t (o.sb.getD (k / blen * c.n + j) 0xFF) else t

/-- Element (i, j) after every panel (R230). -/
def ctriElem (c : CShape) (scl blen : Nat) (o : CtriIn) (i j : Nat) (acc : BitVec 32) : BitVec 32 :=
  (List.range c.kp).foldl (fun acc p =>
    BitVec.ofNat 32 (stage2 ((List.range 64).map fun q => ctriTerm c scl blen o i j (64 * p + q)) (value 0 acc.toNat))) acc

/-- The elements of the third operand's group (R228). -/
def CShape.third (c : CShape) : Nat :=
  match c.mode with
  | 1 => c.m * c.k
  | 2 => c.k * c.n
  | 3 => c.q * c.n
  | 4 => c.k
  | _ => 0

/-- CTRI's operand groups in reading order (R228, R229): A, B, the third operand and the scales in use. -/
def ctriGrps (c : CShape) (q : Descr) (blen : Nat) (a b y sa sb : BitVec 5) : List Grp :=
  [{ base := a.toNat, n := c.m * c.k, w := contWidth q.fa }, { base := b.toNat, n := c.k / c.q * c.n, w := contWidth q.fb }]
    ++ (if c.mode = 0 then [] else [{ base := y.toNat, n := c.third, w := contWidth q.fc }])
    ++ (if q.scl % 2 = 1 then [{ base := sa.toNat, n := c.k / blen * c.m, w := 8 }] else [])
    ++ (if q.scl / 2 = 1 then [{ base := sb.toNat, n := c.k / blen * c.n, w := 8 }] else [])

/-- All elements of a group as patterns. -/
def Grp.pats (g : Grp) (k : Hart) (c : Cfg) : List Nat := (List.range g.n).map fun e => k.elem c g.base g.w e

/-- The block length of a captured VTYPE, 8 where it names none (R229). -/
def combBlen (x : Entry) : Nat := 8 <<< (x.cfg.vtype.extractLsb' 3 2).toNat

/-- CTRI (R228-R232). VTELEM of cause 0x19 names the first marked register in the order A, B, X, scales of A, scales of B
(R236). DESIGN CHOICE, log 87. -/
def mCtri (d : BitVec 3) (a b y sa sb : BitVec 5) : VM := fun x s =>
  let q := x.fmt
  let c := cshapeOf s.hart.vec.cshape
  let blen := combBlen x
  let gs := ctriGrps c q blen a b y sa sb
  { slots := [], srcs := gs, whole := true, early := tileEarly s.hart x d
    bad02 := (c.mode == 0 && y != 0) || (q.scl % 2 == 0 && sa != 0) || (q.scl / 2 == 0 && sb != 0)
    bad05 := descrReserved x.fval || c.kp == 0 || decide (q.fa > 0x0F) || decide (q.fb > 0x0F)
      || (c.mode != 0 && decide (q.fc > 0x0F)) || q.fd != 0 || q.rm == 5
      || (q.scl != 0 && (c.mode == 3 || x.cfg.vtype.extractLsb' 3 2 == 0))
    run := fun s _ _ =>
      let k := s.hart
      match gs.findSome? fun g => firstMark k x.cfg g.base g.w (List.range g.n) with
      | some r => combMark r s
      | none =>
        let g3 := if c.mode = 0 then 0 else 1
        let at_ (i : Nat) : List Nat := ((gs[i]?).map fun g => g.pats k x.cfg).getD []
        let o : CtriIn := { a := (at_ 0).map (value q.fa), b := (at_ 1).map (value q.fb)
                            g := if c.mode = 0 then [] else (at_ 2).map (value q.fc)
                            sa := if q.scl % 2 = 1 then at_ (2 + g3) else []
                            sb := if q.scl / 2 = 1 then at_ (2 + g3 + q.scl % 2) else [] }
        let ij := (List.range c.m).flatMap fun i => (List.range c.n).map fun j => (i, j)
        .ok (s.modHart fun k => ij.foldl (fun k p =>
          k.setTile d.toNat p.1 p.2 (ctriElem c q.scl blen o p.1 p.2 (k.tileAt d.toNat p.1 p.2))) k) }
/-- CTRI issued on its own. -/
def execCtri (d : BitVec 3) (a b y f sa sb : BitVec 5) (s : State) : Out := runComb (mCtri d a b y sa sb) 0 f s

/-- CZERO (R234). -/
def mCzero (d : BitVec 3) : VM := fun x s =>
  { whole := true, early := tileEarly s.hart x d
    run := fun s _ _ => .ok (s.modHart fun k =>
      (List.range 1024).foldl (fun k e => k.setTile d.toNat (e / 32) (e % 32) 0) k) }
/-- CZERO issued on its own. -/
def execCzero (d : BitVec 3) (s : State) : Out := runComb (mCzero d) 0 0 s

/-! ### Windows (R233) -/

/-- A window: first row, rows, first column, columns, offset and row stride. -/
structure TWin where
  i0 : Nat
  nr : Nat
  j0 : Nat
  nc : Nat
  co : Nat
  rs : Nat
  deriving DecidableEq, Repr

/-- The window of a captured word (R233). -/
def twinOf (i0 nr j0 nc : BitVec 5) (x : Entry) : TWin :=
  { i0 := i0.toNat, nr := nr.toNat + 1, j0 := j0.toNat, nc := nc.toNat + 1
    co := (x.sval.extractLsb' 0 32).toNat, rs := (x.sval.extractLsb' 32 16).toNat }
/-- The window's limits and its stride: cause 0x05 (R233). -/
def TWin.bad05 (w : TWin) (tr : Bool) (x : Entry) : Bool :=
  decide (w.i0 + w.nr > 32) || decide (w.j0 + w.nc > 32) || x.sval >>> 48 != 0 || decide (w.rs < if tr then w.nr else w.nc)
/-- The elements of the window's vector group (R233). -/
def TWin.count (w : TWin) (tr : Bool) : Nat :=
  w.co + (if tr then (w.nc - 1) * w.rs + w.nr else (w.nr - 1) * w.rs + w.nc)
/-- The vector element of a tile element (R233). -/
def TWin.index (w : TWin) (tr : Bool) (i j : Nat) : Nat :=
  w.co + (if tr then (j - w.j0) * w.rs + (i - w.i0) else (i - w.i0) * w.rs + (j - w.j0))
/-- The tile elements of the window. -/
def TWin.cells (w : TWin) : List (Nat × Nat) :=
  (List.range w.nr).flatMap fun i => (List.range w.nc).map fun j => (w.i0 + i, w.j0 + j)

/-- The descriptor checks that every window word makes (R233, R73). -/
def combBad05 (x : Entry) : Bool := descrReserved x.fval || x.fmt.rm == 5 || x.fmt.scl != 0

/-- CGET or, transposed, CGETC (R233). It writes element by element, so that the mark of a chunk stays, also of one whose
elements it writes all. DESIGN CHOICE, log 121. -/
def cgetM (tr : Bool) (d : BitVec 5) (a : BitVec 3) (i0 nr j0 nc : BitVec 5) : VM := fun x s =>
  let q := x.fmt
  let w := twinOf i0 nr j0 nc x
  { dsts := [{ base := d.toNat, n := w.count tr, w := contWidth q.fd }], whole := true, early := tileEarly s.hart x a
    bad05 := combBad05 x || w.bad05 tr x || !isValue q.fd
    run := fun s _ _ => .ok (s.modHart fun k => w.cells.foldl (fun k p =>
      k.setElem x.cfg d.toNat (contWidth q.fd) (w.index tr p.1 p.2)
        (round q.fd q.rm q.sat 0 (value 0 (k.tileAt a.toNat p.1 p.2).toNat))) k) }
/-- CGET (R233). -/
def mCget (d : BitVec 5) (a : BitVec 3) (i0 nr j0 nc : BitVec 5) : VM := cgetM false d a i0 nr j0 nc
/-- CGET issued on its own. -/
def execCget (d : BitVec 5) (a : BitVec 3) (sr f i0 nr j0 nc : BitVec 5) (s : State) : Out :=
  runComb (mCget d a i0 nr j0 nc) sr f s
/-- CGETC (R233). -/
def mCgetc (d : BitVec 5) (a : BitVec 3) (i0 nr j0 nc : BitVec 5) : VM := cgetM true d a i0 nr j0 nc
/-- CGETC issued on its own. -/
def execCgetc (d : BitVec 5) (a : BitVec 3) (sr f i0 nr j0 nc : BitVec 5) (s : State) : Out :=
  runComb (mCgetc d a i0 nr j0 nc) sr f s

/-- CPUT (R233): patterns copied exactly; the mark met first, row by row, is the one VTELEM names (R236).
DESIGN CHOICE, log 87. -/
def mCput (d : BitVec 3) (a : BitVec 5) (i0 nr j0 nc : BitVec 5) : VM := fun x s =>
  let w := twinOf i0 nr j0 nc x
  { srcs := [{ base := a.toNat, n := w.count false, w := contWidth x.fmt.fa }], whole := true, early := tileEarly s.hart x d
    bad05 := combBad05 x || w.bad05 false x || x.fmt.fa != 0
    run := fun s _ _ =>
      match firstMark s.hart x.cfg a.toNat 32 (w.cells.map fun p => w.index false p.1 p.2) with
      | some r => combMark r s
      | none => .ok (s.modHart fun k => w.cells.foldl (fun k p =>
          k.setTile d.toNat p.1 p.2 (BitVec.ofNat 32 (k.elem x.cfg a.toNat 32 (w.index false p.1 p.2)))) k) }
/-- CPUT issued on its own. -/
def execCput (d : BitVec 3) (a sr f i0 nr j0 nc : BitVec 5) (s : State) : Out :=
  runComb (mCput d a i0 nr j0 nc) sr f s

/-- CSHP (R227). -/
def mCshp : VM := fun x _ =>
  { whole := true, bad05 := !cshapeLegal x.sval
    run := fun s _ _ => .ok (s.modHart fun k => k.modVec fun v => { v with cshape := x.sval }) }
/-- CSHP issued on its own. -/
def execCshp (sr : BitVec 5) (s : State) : Out := runComb mCshp sr 0 s

/-! ### TSAVE and TLOAD (R235) -/

/-- The 512 aligned pairs of a tile in memory. -/
def tilePairs (ea : Word) : List (Word × Nat) := (List.range 512).map fun i => (ea + BitVec.ofNat 64 (8 * i), 8)

/-- A place `n` bytes further on. -/
def Loc.plus (n : Nat) : Loc → Loc
  | .mem pa => .mem (pa + n)
  | .lm c a => .lm c (a + n)
  | .reg t o => .reg t (o + n)
/-- The lines of a tile in memory: 256 bytes each, what the columns of the slice ports move at once, or a row of lane memory
(01_machine R23). -/
def tileLines : Nat := 16
/-- The pairs of a line of a tile at a place, with their addresses. -/
def tileLine (ea : Word) (loc : Loc) (n : Nat) : List Part :=
  (List.range 32).map fun i => { va := ea + BitVec.ofNat 64 (256 * n + 8 * i), loc := loc.plus (256 * n + 8 * i), tr := none }
/-- Where a grant ends that comes at a line of a tile, where more of the `len` grants follow (01_machine R23). -/
def tileSpan (len lo : Nat) : Option Nat := if lo + 1 < len then some (lo + 1) else none
/-- The tile that the head comb word moves, where it goes on at a line. -/
def Hart.tileFrom (k : Hart) (lo : Nat) : Option TileMove := if lo = 0 then none else k.q.comb
/-- The tile is kept from one line to the next. -/
def State.keepTile (s : State) (b : TileMove) : State := s.modHart fun k => k.modQ fun q => { q with comb := some b }

/-- A line of a tile stored. -/
def TileMove.save (b : TileMove) (step : Word) (s : State) (n : Nat) : State :=
  s.writeAll { through := b.through, step := some step }
    ((List.range 32).map fun i => Acc.ofNat (b.loc.plus (256 * n + 8 * i)) 8 (b.vals.getD (32 * n + i) 0))
/-- Lines of a tile read, one after another; a line that cannot be read ends it. -/
def TileMove.load (ea : Word) (s : State) : Nat → TileMove → Except (Failure × State) TileMove
  | 0, b => .ok b
  | n + 1, b =>
    let ps := tileLine ea b.loc b.line
    match s.checkRead ps with
    | some f => .error f
    | none => load ea s n { b with line := b.line + 1, vals := b.vals ++ ps.map fun p => s.readLoc p.loc 8 }
/-- A tile written from the pairs read. -/
def Hart.putTile (k : Hart) (d : BitVec 3) (vs : List Nat) : Hart :=
  vs.zipIdx.foldl (fun k v =>
    let i := 2 * v.2
    (k.setTile d.toNat (i / 32) (i % 32) (BitVec.ofNat 32 v.1)).setTile d.toNat ((i + 1) / 32) ((i + 1) % 32)
      (BitVec.ofNat 32 (v.1 / 2 ^ 32))) k

/-- TSAVE (R235), a grant for each line (01_machine R23), with the tile as its first line finds it. Its alignment is checked
before the checks of R183. DESIGN CHOICE, logs 7 and 75. -/
def mTsave (a : BitVec 3) (off : BitVec 16) : VM := fun x s =>
  let ea := baseOf x off
  { whole := true, memory := true, stores := true, uses := memUses ea, early := tileEarly s.hart x a
    len := tileLines, span := tileSpan tileLines
    run := fun s lo hi =>
      let go (b : TileMove) (s : State) : VRes :=
        let s := (List.range' lo (hi - lo)).foldl (b.save x.cfg.cstep) s
        .ok (if hi < tileLines then s.keepTile { b with line := hi } else s)
      match s.hart.tileFrom lo with
      | some b => go b s
      | none =>
      if ea.toNat % 4096 ≠ 0 then .stop 0x08 ea s
      else match s.checkParts s.cc s.hart .vput 8 (tilePairs ea) with
        | .error f => .stop f.1 f.2 (stopAt s f).2.2
        | .ok [] => .ok s
        | .ok (p :: ps) =>
          let k := s.hart
          let pat (i : Nat) : Nat := (k.tileAt a.toNat (i / 32) (i % 32)).toNat
          let s := ((p :: ps).foldl (fun s p => s.touch s.cc s.hart p.va) s).setDirty (p :: ps)
          go { saves := true, loc := p.loc, through := (s.ctxOf x.cfg.cstep p).through, line := 0
               vals := (List.range 512).map fun i => pat (2 * i) + 2 ^ 32 * pat (2 * i + 1) } s }
/-- TSAVE issued on its own. -/
def execTsave (a : BitVec 3) (sr : BitVec 5) (off : BitVec 16) (s : State) : Out := runComb (mTsave a off) sr 0 s

/-- TLOAD (R235), a grant for each line (01_machine R23), and last one of the Comb, once the bytes have arrived (R239). Its
alignment is checked before the checks of R183. DESIGN CHOICE, logs 7 and 75. -/
def mTload (d : BitVec 3) (off : BitVec 16) : VM := fun x s =>
  let ea := baseOf x off
  { whole := true, memory := true, takes := [.comb], early := tileEarly s.hart x d
    uses := if s.hart.q.comb.any fun b => decide (tileLines ≤ b.line) then [] else memUses ea
    len := tileLines + 1, span := tileSpan (tileLines + 1)
    run := fun s lo hi =>
      let go (b : TileMove) (s : State) : VRes :=
        match b.load ea s (min hi tileLines - lo) with
        | .error (f, s) => .stop f.1 f.2 s
        | .ok b => .ok (if hi ≤ tileLines then s.keepTile b else s.modHart fun k => k.putTile d b.vals)
      match s.hart.tileFrom lo with
      | some b => go b s
      | none =>
      if ea.toNat % 4096 ≠ 0 then .stop 0x08 ea s
      else match s.checkParts s.cc s.hart .vload 8 (tilePairs ea) with
        | .error f => .stop f.1 f.2 (stopAt s f).2.2
        | .ok ps =>
          match s.checkRead ps, ps with
          | some (f, s), _ => .stop f.1 f.2 s
          | none, [] => .ok s
          | none, p :: _ =>
            go { saves := false, loc := p.loc, through := false, line := 0, vals := [] }
              (ps.foldl (fun s p => s.touch s.cc s.hart p.va) s) }
/-- TLOAD issued on its own. -/
def execTload (d : BitVec 3) (sr : BitVec 5) (off : BitVec 16) (s : State) : Out := runComb (mTload d off) sr 0 s

end Sys2Proof.Machine
end

