-- ==== Sys2Proof/Machine/Route.lean ====
section
/-! DEFINITION. Route and frame instructions (11_route R241-R264), and what the route unit does with frames. -/

namespace Sys2Proof.Machine

/-! ### Frames and slots -/

/-- The status codes of a contribution (R252). -/
def stOk : BitVec 3 := 0
/-- NONE (R252). -/
def stNone : BitVec 3 := 1
/-- DROP-MASK (R252). -/
def stMask : BitVec 3 := 2
/-- DROP-CAP (R252). -/
def stCap : BitVec 3 := 3
/-- DROP-FULL (R252). -/
def stFull : BitVec 3 := 4
/-- DROP-DEST (R252). -/
def stDest : BitVec 3 := 5
/-- MISSING (R252). -/
def stMissing : BitVec 3 := 6

/-- A frame of a core. -/
def Core.frame (y : Core) (f : BitVec 2) : Frame := y.frames[f.toNat]
/-- A frame of a core changed. -/
def Core.modFrame (y : Core) (f : BitVec 2) (g : Frame → Frame) : Core :=
  { y with frames := y.frames.set f.toNat (g (y.frame f)) }
/-- A frame closes: every contribution still SENT becomes MISSING (R256). -/
def Frame.close (f : Frame) : Frame := { f with st := 2, stat := f.stat.map fun t => some (t.getD stMissing) }
/-- The contributions of a frame that are still SENT. -/
def Frame.pending (f : Frame) : Bool := f.stat.any fun t => t.isNone
/-- The number of MISSING contributions (R258). -/
def Frame.missing (f : Frame) : Nat := (f.stat.filter fun t => t == some stMissing).length

/-- The window 0xF1 address of a lane-memory byte; of a row beyond the last one it is what follows the window (R250). -/
def laneAddr (a : Nat) : Word := BitVec.ofNat 64 (0xF1 * 2 ^ 56 + a)

/-- The first word of a run of lane-memory bytes that carries a mark, cause 0x19, or has a fresh error, cause 0x1A. -/
def laneScan (y : Core) (a n : Nat) : Option (BitVec 8 × Nat) :=
  ((List.range ((a + n + 7) / 8 - a / 8)).map (a / 8 + ·)).findSome? fun i =>
    if smem y.lmMarks i then some (0x19, i) else if smem y.lmLatent i then some (0x1A, i) else none

/-- `n` bytes of a core's lane memory as a number. -/
def Core.lmRead (y : Core) (a : Nat) : Nat → Nat
  | 0 => 0
  | n + 1 => (y.lmByte a).toNat + 256 * y.lmRead (a + 1) n

/-- A run of lane-memory bytes cut at the rows it crosses, each with its first byte and its length: a row is what the banks give
in one cycle (01_machine R23). -/
def laneRows (a n : Nat) : List (Nat × Nat) :=
  (List.range ((a + n + 255) / 256 - a / 256)).map fun i =>
    let lo := max a (256 * (a / 256 + i))
    (lo, min (a + n) (256 * (a / 256 + i + 1)) - lo)
/-- Where a grant ends that comes at one of several row reads, where more follow (01_machine R23). -/
def rowSpan (ps : List (Nat × Nat × Nat)) (lo : Nat) : Option Nat := if lo + 1 < ps.length then some (lo + 1) else none
/-- A row read: its words, and the first word of all that cannot be read, with the row that the instruction counts it to; the
word is marked. -/
def laneRead (r : Partway × Core) (p : Nat × Nat × Nat) : Partway × Core :=
  let ws := (List.range ((p.2.1 + p.2.2 + 7) / 8 - p.2.1 / 8)).map (p.2.1 / 8 + ·)
  let b := { r.1 with seen := ws.foldl (fun m i => mput 0 m i (r.2.lmWord i)) r.1.seen }
  match r.1.fails, laneScan r.2 p.2.1 p.2.2 with
  | [], some (code, w) => ({ b with fails := [(p.1, w)], fresh := code == 0x1A }, r.2.markLm w)
  | _, _ => (b, r.2)
/-- Row reads from `lo` up to `hi`, with what they found kept. -/
def State.readRows (s : State) (ps : List (Nat × Nat × Nat)) (lo hi : Nat) (b : Partway) : State :=
  let r := ((ps.drop lo).take (hi - lo)).foldl laneRead (b, s.core)
  (s.modCore fun _ => r.2).keepBegun r.1
/-- Nothing found yet, of so many rows that are taken. -/
def Partway.start (n : Nat) : Partway := { active := BitVec.ofNat 64 n, fails := [], fresh := false, vals := [] }
/-- How a word ends that has read its rows grant by grant: its trap, where one could not be read, or what it does with them. -/
def Partway.ends (b : Partway) (s : State) (go : Core → State) : VRes :=
  match b.fails with
  | (j, w) :: _ => .fault j (if b.fresh then 0x1A else 0x19) (laneAddr (w * 8)) s
  | [] => .ok (go { s.core with lm := b.seen })

/-- Elements written to lane memory from an address on, as one write, with the marks some carry (R251, R255). -/
def Core.putRow (y : Core) (a : Nat) (pre : List Byte) (data : List (BitVec 32 × Bool)) : Core :=
  let bs := (pre ++ data.flatMap fun p => bytesOf 4 p.1.toNat).map fun b => (b, (0xFF : Byte))
  let y := y.writeLm bs.length a bs
  data.zipIdx.foldl (fun y p => if p.1.2 then y.markLm (lmIndex (a + pre.length + 4 * p.2)) else y) y

/-- Elements of a register group as row data, with their chunks' marks. -/
def rowData (k : Hart) (c : Cfg) (v e0 n : Nat) : List (BitVec 32 × Bool) :=
  (List.range n).map fun i => (BitVec.ofNat 32 (k.elem c v 32 (e0 + i)), k.elemMarked c v 32 (e0 + i))

/-! ### Headers (R244) -/

/-- Header word 0. -/
def header0 (dev core : Nat) (f gen : BitVec 2) (row c w : Nat) : Word :=
  BitVec.ofNat 64 (dev % 2 ^ 17 * 2 ^ 47 + core % 256 * 2 ^ 39 + f.toNat * 2 ^ 37 + gen.toNat * 2 ^ 35
    + row % 256 * 2 ^ 27 + c % 2 * 2 ^ 26 + w % 2 ^ 11 * 2 ^ 15)
/-- Header word 1. -/
def header1 (ltag : BitVec 56) (entry : Nat) : Word := (ltag.setWidth 64 <<< 8) ||| BitVec.ofNat 64 (entry % 64)

/-! ### RTSET (R242, R249) -/

/-- A route table entry keeps R242. -/
def entryLegal (e : Word) : Bool :=
  e.extractLsb' 40 7 == 0 && e.extractLsb' 27 5 == 0 && e.extractLsb' 9 15 == 0 && decide ((e.extractLsb' 0 9).toNat ≤ 256)

/-- RTSET (R249). -/
def mRtset (c : Bool) (a : BitVec 5) : VM := fun x s =>
  let n := (x.sval.extractLsb' 8 7).toNat
  let first := (x.sval.extractLsb' 0 6).toNat
  let ents := (List.range n).map fun i => s.hart.chunk x.cfg a.toNat i
  { c := c, alone := true, srcs := [{ base := a.toNat, n := n, w := 64 }], takes := [.route], whole := true, es0 := true
    bad05 := n == 0 || decide (first + n > 64) || (x.sval &&& ~~~0x7F3F) != 0 || ents.any fun e => !entryLegal e
    run := fun s _ _ => .ok (s.modCore fun y =>
      { y with routes := ents.zipIdx.foldl (fun r p => r.setIfInBounds (first + p.2) p.1) y.routes }) }
/-- RTSET dispatched on its own. -/
def execRtset (c : Bool) (a sr : BitVec 5) (s : State) : Out := runSingle (mRtset c a) sr 0 s

/-! ### ROUTE (R250, R251) -/

/-- The first row of a frame's storage that lies outside the grant (R250). -/
def frameOutside (k : Hart) (f : Frame) : Option Nat :=
  let n := (f.maxr.toNat * f.w.toNat + 31) / 32
  let top := k.lmbase.toNat + k.lmsize.toNat
  let b := f.base.toNat
  if b < k.lmbase.toNat ∨ b ≥ top then some b else if b + n > top then some top else none

/-- ROUTE's own dispatch checks, in order (R250). DEDUCED, log 35. -/
def routeLate (fr : BitVec 2) (b y : BitVec 5) (x : Entry) (s : State) : Option (BitVec 8 × Word × Option Nat) :=
  let f := s.core.frame fr
  let w := (x.sval.extractLsb' 0 11).toNat
  let nrow := if w = 0 then 0 else x.vl / w
  if f.st ≠ 0 then some (0x29, fr.setWidth 64, none)
  else if x.sval >>> 11 ≠ 0 ∨ w = 0 ∨ w > 1024 ∨ w ≠ f.w.toNat ∨ x.vl % w ≠ 0 ∨ nrow > f.maxr.toNat
      ∨ f.maxr.toNat = 0 ∨ f.maxr.toNat > 256 then some (0x05, x.addr, none)
  else match frameOutside s.hart f with
    | some r => some (0x13, laneAddr (r * 256), none)
    | none =>
      ((List.range nrow).find? fun i => s.hart.elemMarked x.cfg b.toNat 16 i
        || s.hart.elemMarked x.cfg y.toNat 32 (2 * i) || s.hart.elemMarked x.cfg y.toNat 32 (2 * i + 1)).map
        fun i => (0x19, Config.freeWord s.tick, some i)

/-- What ROUTE decides for the assignments in order: the status of each, and the entries used so far (R251). -/
def routePlan (y : Core) (pm : Option (BitVec 3)) (k : Hart) (c : Cfg) (b : BitVec 5) :
    List (Nat × Nat) → List (Nat × Nat) → List (Nat × Nat × Nat × Option (BitVec 3))
  | [], _ => []
  | (ch, i) :: r, used =>
    let e := k.elem c b.toNat 16 i / 256 ^ ch % 256
    let share := ((y.routes[e % 64]?.getD 0).extractLsb' 0 9).toNat
    if !k.active pm i then (ch, i, e, some stMask) :: routePlan y pm k c b r used
    else if e = 255 then (ch, i, e, some stNone) :: routePlan y pm k c b r used
    else if e > 63 then (ch, i, e, some stDest) :: routePlan y pm k c b r used
    else if mget 0 used e ≥ share then (ch, i, e, some stCap) :: routePlan y pm k c b r used
    else (ch, i, e, none) :: routePlan y pm k c b r (mset used e (mget 0 used e + 1))

/-- A row handed off to a route table entry (R251, R253): a destination that cannot be reached refuses it.
DEDUCED, log 36. -/
def handOff (fr : BitVec 2) (gen : BitVec 2) (a : BitVec 5) (x : Entry) (w : Nat) (p : Nat × Nat × Nat) (s : State) : State :=
  let k := s.hart
  let own := s.mgr.devnum.toNat
  let ent := s.core.routes[p.2.2 % 64]?.getD 0
  let dev := (ent.extractLsb' 47 17).toNat
  let ocore := (s.tenCore k.place.ten.toNat s.cc).getD 0
  let h0 := header0 own ocore fr gen p.2.1 p.1 w
  let h1 := header1 s.core.ltag p.2.2
  let data := rowData k x.cfg a.toNat (p.2.1 * w) w
  if s.reachable dev then
    s.send dev (.row { ten := k.place.ten, sdev := own, score := s.cc, ddev := dev, dcore := (ent.extractLsb' 32 8).toNat
                       dhart := (ent.extractLsb' 24 3).toNat, h0 := h0, h1 := h1, data := data })
  else
    s.send own (.refusal { ten := k.place.ten, score := s.cc, ddev := own, dcore := ocore, h0 := h0, h1 := h1, w := w
                           data := [], full := false })

/-- ROUTE begun: the frame opens, every assignment is decided and handed off (R251). DESIGN CHOICE, log 7. -/
def routeRun (pm : Option (BitVec 3)) (fr : BitVec 2) (a b y : BitVec 5) (x : Entry) (s : State) : State :=
  let w := (x.sval.extractLsb' 0 11).toNat
  let nrow := x.vl / w
  let k := s.hart
  let rows := List.range nrow
  let plan := routePlan s.core pm k x.cfg b ((rows.map fun i => (0, i)) ++ rows.map fun i => (1, i)) []
  let gen := (s.core.frame fr).gen + 1
  let status (c i : Nat) : Option (BitVec 3) :=
    match plan.find? fun p => p.1 == c && p.2.1 == i with
    | some p => p.2.2.2
    | none => some stNone
  let sent := plan.filter fun p => p.2.2.2.isNone
  let s := s.modCore fun z => z.modFrame fr fun f =>
    { f with
      gen := gen, st := if sent.isEmpty then 2 else 1, owner := BitVec.ofNat 3 s.ch, nrow := nrow
      wts := (List.range (2 * nrow)).map fun i => BitVec.ofNat 32 (k.elem x.cfg y.toNat 32 i)
      stat := rows.flatMap fun i => [status 0 i, status 1 i] }
  sent.foldl (fun s p => handOff fr gen a x w (p.1, p.2.1, p.2.2.1) s) s

/-- ROUTE (R250, R251). -/
def mRoute (h : VHdr) (fr : BitVec 2) (a b y : BitVec 5) : VM := fun x s =>
  let w := (x.sval.extractLsb' 0 11).toNat
  let nrow := if w = 0 then 0 else x.vl / w
  { c := h.c, alone := true, maskR := pmReads h.pm, takes := [.route], sync := true, whole := true, es0 := true, late := routeLate fr b y x s
    srcs := [{ base := a.toNat, n := x.vl, w := 32 }, { base := b.toNat, n := nrow, w := 16 },
             { base := y.toNat, n := 2 * nrow, w := 32 }]
    len := nrow, run := fun s _ _ => .ok (routeRun h.pm fr a b y x s) }
/-- ROUTE dispatched on its own. -/
def execRoute (h : VHdr) (fr : BitVec 2) (a b y sr : BitVec 5) (s : State) : Out :=
  runSingle (mRoute h fr a b y) sr 0 s

/-! ### RRECV and RRET (R254, R255) -/

/-- The rows an RRECV wants (R254). -/
def rrecvWant (x : Entry) (k : Hart) : Nat := if k.inbox.cap = 0 ∨ k.inbox.w = 0 then 0 else x.vl / k.inbox.w.toNat

/-- The lane-memory address of an inbox slot (R243). -/
def Inbox.slot (i : Inbox) (n : Nat) : Nat := (i.base.toNat + n * slotRows i.w.toNat) * 256

/-- One row taken into the registers (R254). -/
def takeRow (d y : BitVec 5) (x : Entry) (core : Core) (w a j : Nat) (k : Hart) : Hart :=
  let k := k.setChunk x.cfg y.toNat (2 * j) (BitVec.ofNat 64 (core.lmRead a 8)) false
  let k := k.setChunk x.cfg y.toNat (2 * j + 1) (BitVec.ofNat 64 (core.lmRead (a + 8) 8)) false
  (List.range w).foldl (fun k i => k.setElem x.cfg d.toNat 32 (j * w + i) (core.lmRead (a + 16 + 4 * i) 4)) k

/-- The slots of the oldest rows of an inbox, each with its number. -/
def Inbox.slots (i : Inbox) (n : Nat) : List (Nat × Nat) :=
  (List.range n).map fun j => (j, i.slot ((i.head.toNat + j) % i.cap.toNat))
/-- The rows taken by an RRECV (R254): those it has begun to take, or what its inbox holds, at most what it wants. -/
def rrecvRows (x : Entry) (k : Hart) : Nat :=
  match k.q.begun with
  | some b => b.active.toNat
  | none => min k.inbox.count.toNat (rrecvWant x k)
/-- The row reads of an RRECV. -/
def rrecvPieces (k : Hart) (n : Nat) : List (Nat × Nat × Nat) :=
  (k.inbox.slots n).flatMap fun p => (laneRows p.2 (16 + 4 * k.inbox.w.toNat)).map fun r => (p.1, r)
/-- The rows taken, as they stand in a core's lane memory (R254). -/
def rrecvWrite (d y a : BitVec 5) (x : Entry) (n : Nat) (core : Core) (s : State) : State :=
  s.modHart fun k =>
    let i := k.inbox
    let k := (i.slots n).foldl (fun k p => takeRow d y x core i.w.toNat p.2 p.1 k) k
    let head := if n = 0 then i.head else BitVec.ofNat 8 ((i.head.toNat + n) % i.cap.toNat)
    let k := { k with inbox := { i with head := head, count := i.count - BitVec.ofNat 9 n } }
    (k.wr a (BitVec.ofNat 64 n)).modQ fun q => { q with stall := .none }

/-- RRECV's take of what its inbox holds, at most what it wants, in one (R254). Of several words of a slot that cannot be read,
the lowest decides. DESIGN CHOICE, log 104. -/
def rrecvTake (d y a : BitVec 5) (x : Entry) (s : State) : VRes :=
  let i := s.hart.inbox
  let n := min i.count.toNat (rrecvWant x s.hart)
  match (i.slots n).findSome? fun p => (laneScan s.core p.2 (16 + 4 * i.w.toNat)).map fun f => (p.1, f) with
  | some (j, code, wd) => .fault j code (laneAddr (wd * 8)) (s.modCore fun z => z.markLm wd)
  | none => .ok (rrecvWrite d y a x n s.core s)

/-- RRECV (R254): it takes at once where its rows are there or its timeout is 0, and waits otherwise. It takes a grant of the
banks for each row of lane memory that it reads, and the rows leave the inbox with the last (01_machine R23).
DESIGN CHOICE, log 7. -/
def mRrecv (c : Bool) (d y a : BitVec 5) : VM := fun x s =>
  let ds : List Grp := [{ base := d.toNat, n := x.vl, w := 32 }]
  let hs : List Grp := [{ base := y.toNat, n := 2 * rrecvWant x s.hart, w := 64 }]
  let takes (k : Hart) : Bool := k.q.begun.isSome || decide (rrecvWant x k ≤ k.inbox.count.toNat) || x.sval == 0
  let n := rrecvRows x s.hart
  let ps := if takes s.hart then rrecvPieces s.hart n else []
  { c := c, alone := true, dsts := ds ++ hs, bad04 := overlapAny s.hart x.cfg ds hs, sdest := some a
    memory := true, uses := if ps.isEmpty then [] else [.banks], takes := [.route], whole := true, es0 := true
    len := ps.length, span := rowSpan ps
    run := fun s lo hi =>
      match s.hart.goesOnFrom lo with
      | some b =>
        let t := s.readRows ps lo hi b
        if hi < ps.length then .ok t else (t.hart.q.begun.getD b).ends t fun core => rrecvWrite d y a x n core t
      | none =>
        if !takes s.hart then .wait 0 (s.modHart fun k => k.modQ fun q => { q with stall := .rrecv })
        else if hi < ps.length then .ok (s.readRows ps 0 hi (Partway.start n))
        else rrecvTake d y a x s }
/-- RRECV dispatched on its own. -/
def execRrecv (c : Bool) (d y a sr : BitVec 5) (s : State) : Out :=
  runWaiting (.rrecv c d y a sr) (mRrecv c d y a) sr 0 s

/-- One row returned to the frame its header names (R255): a header that names no core of the tenancy, here or on
another device, is LOST, and so is one whose device cannot be reached. DEDUCED, log 36. -/
def returnRow (a y : BitVec 5) (x : Entry) (w j : Nat) (s : State) : State :=
  let k := s.hart
  let h0 := k.chunk x.cfg y.toNat (2 * j)
  let h1 := k.chunk x.cfg y.toNat (2 * j + 1)
  let dev := (h0.extractLsb' 47 17).toNat
  let core := (h0.extractLsb' 39 8).toNat
  let here := dev == s.mgr.devnum.toNat
  let lost := if here then (s.physCore k.place.ten.toNat core).isNone
    else decide (128 ≤ core) || !Config.holdsCore dev k.place.ten.toNat core || !s.reachable dev
  if lost then s.modCore fun z => { z with lost := satInc z.lost }
  else s.send dev (.ret { ten := k.place.ten, score := s.cc, ddev := dev, dcore := core, h0 := h0, h1 := h1, w := w
                          data := rowData k x.cfg a.toNat (j * w) w, full := false })

/-- RRET (R255). -/
def mRret (h : VHdr) (a y : BitVec 5) : VM := fun x s =>
  let w := s.hart.inbox.w.toNat
  let nrow := x.vl / w
  { c := h.c, alone := true, maskR := pmReads h.pm, takes := [.route], sync := true, whole := true, es0 := true
    srcs := [{ base := a.toNat, n := x.vl, w := 32 }, { base := y.toNat, n := 2 * nrow, w := 64 }]
    bad05 := w == 0 || x.vl % w != 0, len := nrow
    run := fun s _ _ =>
      .ok (((List.range nrow).filter (s.hart.active h.pm)).foldl (fun s j => returnRow a y x w j s) s) }
/-- RRET dispatched on its own. -/
def execRret (h : VHdr) (a y : BitVec 5) (s : State) : Out := runSingle (mRret h a y) 0 0 s

/-! ### FWAIT and FREAD (R258, R259) -/

/-- The frame number as STVAL of cause 0x29 (14_system R312). -/
def frameMisuse (fr : BitVec 2) : Failure := (0x29, fr.setWidth 64)

/-- FWAIT (R258). DEDUCED, log 35. -/
def mFwait (c : Bool) (d : BitVec 5) (fr : BitVec 2) : VM := fun x s =>
  let f := s.core.frame fr
  { c := c, alone := true, sdest := some d, takes := [.route], sync := true, whole := true, es0 := true, len := x.vl
    late := if f.st = 0 ∨ f.owner.toNat ≠ s.ch then some (0x29, fr.setWidth 64, none) else none
    run := fun s _ _ =>
      let f := s.core.frame fr
      if f.st = 2 ∨ f.st = 3 then
        let s := s.modCore fun z => z.modFrame fr fun f => { f with st := 3 }
        .ok ((s.wr d (BitVec.ofNat 64 f.missing)).modHart fun k => k.modQ fun q => { q with stall := .none })
      else .wait 0 (s.modHart fun k => k.modQ fun q => { q with stall := .fwait }) }
/-- FWAIT dispatched on its own. -/
def execFwait (c : Bool) (d : BitVec 5) (fr : BitVec 2) (s : State) : Out :=
  runWaiting (.fwait c d fr) (mFwait c d fr) 0 0 s

/-- The lane-memory address of a contribution (R246). -/
def Frame.contrib (f : Frame) (i c : Nat) : Nat := f.base.toNat * 256 + (2 * i + c) * 4 * f.w.toNat
/-- The contributions of a row that are OK. -/
def Frame.okOf (f : Frame) (i : Nat) : List Nat := [0, 1].filter fun c => f.stat.getD (2 * i + c) none == some stOk

/-- An output element of FREAD (R259). -/
def freadElem (f : Frame) (core : Core) (i e : Nat) : Nat :=
  match (f.okOf i).map fun c =>
    (value 0 (f.wts.getD (2 * i + c) 0).toNat).mul (value 0 (core.lmRead (f.contrib i c + 4 * e) 4)) with
  | [] => 0
  | ts => round 0 0 false 0 (sumV false ts)
/-- The status byte of a row (R252). -/
def Frame.statusByte (f : Frame) (i : Nat) : Nat :=
  let code (c : Nat) : Nat := ((f.stat.getD (2 * i + c) none).getD 0).toNat
  code 0 + 8 * code 1

/-- FREAD's words, read before anything is written (R259). Of several words of a row that cannot be read, those of choice 0
come first, and of these the lowest. DESIGN CHOICE, log 104. -/
def freadScan (f : Frame) (core : Core) : Option (Nat × BitVec 8 × Nat) :=
  (List.range f.nrow).findSome? fun i => (f.okOf i).findSome? fun c =>
    (laneScan core (f.contrib i c) (4 * f.w.toNat)).map fun p => (i, p)

/-- The row reads of FREAD, in the order of its scan. -/
def freadPieces (f : Frame) : List (Nat × Nat × Nat) :=
  (List.range f.nrow).flatMap fun i => (f.okOf i).flatMap fun c =>
    (laneRows (f.contrib i c) (4 * f.w.toNat)).map fun r => (i, r)
/-- The rows of a frame combined from what stands in a core's lane memory, and the frame idle (R259). -/
def freadWrite (f : Frame) (d y : BitVec 5) (fr : BitVec 2) (x : Entry) (core : Core) (s : State) : State :=
  let w := f.w.toNat
  let s := s.modHart fun k => (List.range f.nrow).foldl (fun k i =>
    ((List.range w).foldl (fun k e => k.setElem x.cfg d.toNat 32 (i * w + e) (freadElem f core i e)) k).setElem
      x.cfg y.toNat 8 i (f.statusByte i)) k
  s.modCore fun z => z.modFrame fr fun f => { f with st := 0 }

/-- FREAD (R259). It takes a grant of the banks for each row of lane memory that it reads (01_machine R23).
DESIGN CHOICE, log 7. DEDUCED, log 35. -/
def mFread (c : Bool) (d y : BitVec 5) (fr : BitVec 2) : VM := fun x s =>
  let f := s.core.frame fr
  let ps := freadPieces f
  let ds : List Grp := [{ base := d.toNat, n := f.nrow * f.w.toNat, w := 32 }]
  let xs : List Grp := [{ base := y.toNat, n := f.nrow, w := 8 }]
  { c := c, alone := true, dsts := ds ++ xs, bad04 := overlapAny s.hart x.cfg ds xs, memory := true, takes := [.route]
    uses := if ps.isEmpty then [] else [.banks], whole := true, es0 := true
    early := if f.st ≠ 3 ∨ f.owner.toNat ≠ s.ch then some (frameMisuse fr) else none
    len := ps.length, span := rowSpan ps
    run := fun s lo hi =>
      match s.hart.goesOnFrom lo with
      | some b =>
        let t := s.readRows ps lo hi b
        if hi < ps.length then .ok t else (t.hart.q.begun.getD b).ends t fun core => freadWrite f d y fr x core t
      | none =>
        if hi < ps.length then .ok (s.readRows ps 0 hi (Partway.start 0))
        else match freadScan f s.core with
          | some (i, code, wd) => .fault i code (laneAddr (wd * 8)) (s.modCore fun z => z.markLm wd)
          | none => .ok (freadWrite f d y fr x s.core s) }
/-- FREAD dispatched on its own. -/
def execFread (c : Bool) (d y : BitVec 5) (fr : BitVec 2) (s : State) : Out := runSingle (mFread c d y fr) 0 0 s

end Sys2Proof.Machine
end

