-- ==== Sys2Proof/Machine/Engine.lean ====
section
/-! DEFINITION. Engine commands: ENQ, CWPW and the copy channels' and stack engines' work (12_engines R265-R291). -/

namespace Sys2Proof.Machine

/-! ### Ranges of a command (R268, R273, R282) -/

/-- A run of bytes of one class: a place, its length, its class. -/
structure Run where
  loc : Loc
  n   : Nat
  cls : BitVec 3
  deriving DecidableEq, Repr

/-- A piece of a range that lies in one page, checked for WALK, PERM and SPACE; `leaf` is where its entry lies, `dirty` its D. -/
structure Piece where
  walk  : Bool
  perm  : Bool
  space : Bool
  run   : Run
  va    : Word
  leaf  : Option Nat
  dirty : Bool := false
  deriving DecidableEq, Repr

/-- A range cut at 64 KiB boundaries, with fuel. -/
def piecesFrom : Nat → Word → Nat → List (Word × Nat)
  | 0, _, _ => []
  | fuel + 1, va, n =>
    if n = 0 then []
    else
      let m := min n (65536 - va.toNat % 65536)
      (va, m) :: piecesFrom fuel (va + BitVec.ofNat 64 m) (n - m)
/-- A range cut at 64 KiB boundaries. -/
def pieces (va : Word) (n : Nat) : List (Word × Nat) := piecesFrom (n / 65536 + 2) va n

/-- What a command does with a range, and the spaces open to it. -/
structure RangeUse where
  r    : Bool
  w    : Bool
  lpd  : Bool
  lane : Bool
  deriving DecidableEq, Repr

/-- A piece checked through the issuing hart's translation (R268, R273, R282). DEDUCED, log 37. -/
def checkPiece (u : RangeUse) (s : State) (p : Word × Nat) : Piece :=
  let k := s.hart
  let none_ : Run := { loc := .mem 0, n := p.2, cls := 0 }
  match spaceOf p.1 with
  | some .translated =>
    let kind : AccessKind := { r := u.r, w := u.w, x := false, store := u.w, regs := true, lane := false }
    match s.walkStage s.cc k kind p.1.toNat with
    | .error _ => { walk := true, perm := false, space := false, run := none_, va := p.1, leaf := none }
    | .ok (l, t) =>
      { walk := false, run := { loc := .mem t.pa, n := p.2, cls := t.cls }, va := p.1, leaf := some l.at_, dirty := t.d
        perm := (u.r && !l.pte.getLsbD 1) || (u.w && !l.pte.getLsbD 2) || (!k.trap.system && !l.pte.getLsbD 4)
        space := decide (regionOf t.pa > if u.lpd then 1 else 0) || t.dev != s.mgr.devnum.toNat
          || !s.windowOpen k.place.ten.toNat t.pa }
  | some (.own a) =>
    { walk := false, perm := false, run := { loc := .lm s.cc a, n := p.2, cls := 0 }, va := p.1, leaf := none
      space := !u.lane || !k.inGrant (a / 256) || !k.inGrant ((a + p.2 - 1) / 256)
        || decide (a + p.2 > 2 ^ 21) }
  | _ => { walk := false, perm := false, space := true, run := none_, va := p.1, leaf := none }

/-- A range of a command with its checks. -/
def checkRange (u : RangeUse) (s : State) (va : Word) (n : Nat) : List Piece := (pieces va n).map (checkPiece u s)

/-- The first failing check over the ranges of a command, each with its FIELD: reason and FIELD (R268). -/
def rangeReason (rs : List (Nat × List Piece)) : Option (Nat × Nat) :=
  match rs.find? fun r => r.2.any Piece.walk with
  | some r => some (3, r.1)
  | none =>
    match rs.find? fun r => r.2.any Piece.perm with
    | some r => some (4, r.1)
    | none => (rs.find? fun r => r.2.any Piece.space).map fun r => (5, r.1)

/-- The physical runs of checked pieces in memory. -/
def segsOf (ps : List Piece) : List Seg :=
  ps.filterMap fun p => match p.run.loc with
    | .mem pa => some { pa := pa, n := p.run.n, cls := p.run.cls }
    | _ => none
/-- D set for the leaves of checked pieces whose translations have it clear (R273, 08_memory R171). -/
def State.dirtyPieces (s : State) (ps : List Piece) : State :=
  ps.foldl (fun s p => match p.leaf with
    | some l => if p.dirty then s.touch s.cc s.hart p.va else (s.touch s.cc s.hart p.va).setDirtyBit l
    | none => s) s

/-! ### Moving blocks of bytes -/

/-- Part of a list of runs: `n` bytes from byte `off` on. -/
def sliceRuns : List Run → Nat → Nat → List Run
  | [], _, _ => []
  | g :: r, off, n =>
    if g.n ≤ off then sliceRuns r (off - g.n) n
    else
      let m := min n (g.n - off)
      let loc : Loc := match g.loc with
        | .mem pa => .mem (pa + off)
        | .lm c a => .lm c (a + off)
        | .reg t o => .reg t (o + off)
      if n = 0 then [] else { loc := loc, n := m, cls := g.cls } :: sliceRuns r 0 (n - m)

/-- The runs of physical segments. -/
def runsOf (l : List Seg) : List Run := l.map fun g => { loc := .mem g.pa, n := g.n, cls := g.cls }
/-- The runs of an end of a copy on a core. -/
def CopyEnd.runs (c : Nat) : CopyEnd → Nat → List Run
  | .mem l, _ => runsOf l
  | .lm a, n => [{ loc := .lm c a, n := n, cls := 0 }]

/-- The places of the bytes of runs. -/
def Run.locs (g : Run) : List Loc :=
  (List.range g.n).map fun i => match g.loc with
    | .mem pa => .mem (pa + i)
    | .lm c a => .lm c (a + i)
    | .reg t o => .reg t (o + i)

/-- A byte at a place. A stack engine reads DRAM (R289), a channel the coherent value (R283). -/
def State.byteAt (s : State) (dram : Bool) : Loc → Byte
  | .mem pa => if dram then s.dramByte pa else s.byte pa
  | .lm c a => (s.coreAt c).lmByte a
  | .reg .. => 0

/-- A run cut at the lines of memory it crosses. -/
def Run.lines (g : Run) : List Run :=
  match g.loc with
  | .mem pa => (List.range ((pa + g.n + 255) / 256 - pa / 256)).map fun i =>
      let l := 256 * (pa / 256 + i)
      { loc := .mem (max pa l), n := min (pa + g.n) (l + 256) - max pa l, cls := g.cls }
  | _ => [g]

/-- The write accesses of bytes to runs, each with its class. -/
def runAccs : List Run → List Byte → List (Run × Acc)
  | [], _ => []
  | g :: r, bs => (g, { loc := g.loc, bytes := (bs.take g.n).map fun b => (b, 0xFF) }) :: runAccs r (bs.drop g.n)

/-- The copies of the lines of runs leave the slice stores, dirty bytes going to DRAM (R290). -/
def State.recall (s : State) (rs : List Run) : State :=
  let lines := rs.flatMap fun g => match g.loc with
    | .mem pa => (List.range ((pa + g.n + 255) / 256 - pa / 256)).map (pa / 256 + ·)
    | _ => []
  { s with dram := s.dram.filter fun c => !lines.contains (lineOf c.1) }

/-- Bytes written to runs as the writes of one card or chunk (08_memory R174): the marks of granules they cover whole
go, then the granules that marked bytes land in are marked. Answers whether a granule written carries or took a mark.
DEDUCED, log 38. -/
def State.putRuns (s : State) (through : Run → Bool) (step : Word) (dst : List Run) (bs : List Byte) (bad : List Bool) :
    State × Bool :=
  let as := runAccs (dst.flatMap Run.lines) bs
  let s := (s.coveredLines (as.map Prod.snd)).foldl State.cleanLine s
  let s := as.foldl (fun s p => s.write { through := through p.1, step := some step } p.2) s
  let locs := dst.flatMap Run.locs
  let s := (locs.zip bad).foldl (fun s p => if p.2 && !s.marked p.1 then s.mark p.1 else s) s
  (s, locs.any s.marked)

/-- Bytes read from runs: fresh errors are marked; each byte with its granule's mark (R274, R283).
DEDUCED, log 38. -/
def State.getRuns (s : State) (dram : Bool) (src : List Run) : List Byte × List Bool × State :=
  let locs := src.flatMap Run.locs
  let s := locs.foldl (fun s l => if s.hasError l then s.mark l else s) s
  (locs.map (s.byteAt dram), locs.map s.marked, s)

/-! ### Stack cards (R270-R273) -/

/-- A command slot: its eight chunks (R265). -/
abbrev Slot8 := List Word
/-- A chunk of a slot. -/
def chunkOf (q : Slot8) (i : Nat) : Word := q.getD i 0
/-- Byte `i` of a slot. -/
def slotByte (q : Slot8) (i : Nat) : Nat := ((chunkOf q (i / 8)).toNat >>> (8 * (i % 8))) % 256
/-- Bytes 4 to 7 of a slot. -/
def slotWord1 (q : Slot8) : Nat := (chunkOf q 0).toNat / 2 ^ 32
/-- Index `j` of an IRED card. -/
def slotIndex (q : Slot8) (j : Nat) : Nat := ((chunkOf q (4 + j / 2)).toNat >>> (32 * (j % 2))) % 2 ^ 32

/-- Bits of an element of an IRED table format (R270). -/
def tableWidth (f : Nat) : Nat := if f = 0 then 32 else 16

/-- FORM of a card with its FIELD (R270). DEDUCED, log 37. -/
def cardForm (q : Slot8) : Option Nat :=
  let op := slotByte q 0
  let n := slotByte q 1
  let fmt := slotByte q 2
  let fl := slotByte q 3
  let d := slotWord1 q
  let tail := (chunkOf q 4) ||| (chunkOf q 5) ||| (chunkOf q 6) ||| (chunkOf q 7)
  let ok :=
    if op = 1 then
      decide (1 ≤ n) && decide (n ≤ 8) && (fmt == 0 || fmt == 2 || fmt == 3) && decide (fl ≤ 1) && decide (1 ≤ d)
        && decide (d ≤ 2048) && (List.range 8).all fun j => decide (j < n) || slotIndex q j == 0
    else if op = 2 then decide (1 ≤ n) && decide (n ≤ 64) && fmt == 0 && fl == 0 && d == 0 && tail == 0
    else if op = 3 then
      decide (1 ≤ n) && decide (n ≤ 64) && fmt == 0 && decide (fl ≤ 1) && d == 0 && tail == 0
        && (fl == 1 || chunkOf q 1 == 0)
    else false
  if !ok then some 0 else if chunkOf q 3 = 0 then some 3 else none

/-- ALIGN of a card with its FIELD (R270). DEDUCED, log 37. -/
def cardAlign (q : Slot8) : Option Nat :=
  let op := slotByte q 0
  let src := (chunkOf q 1).toNat
  let dst := (chunkOf q 2).toNat
  if (op = 1 ∧ src % (tableWidth (slotByte q 2) / 8) ≠ 0) ∨ (op = 2 ∧ src % 2048 ≠ 0) then some 1
  else if dst % (if op = 1 then 4 else 2048) ≠ 0 then some 2
  else if (chunkOf q 3).toNat % 8 ≠ 0 then some 3
  else none

/-- Bytes of a row that a card reads. -/
def rowBytes (q : Slot8) : Nat := if slotByte q 0 = 1 then slotWord1 q * tableWidth (slotByte q 2) / 8 else 2048
/-- Bytes of a card's destination (R273). -/
def dstBytes (q : Slot8) : Nat := if slotByte q 0 = 1 then slotWord1 q * 4 else slotByte q 1 * 2048
/-- The addresses of the rows a card reads (R273). -/
def rowAddrs (q : Slot8) : List Word :=
  let n := slotByte q 1
  match slotByte q 0 with
  | 1 => (List.range n).map fun j => chunkOf q 1 + BitVec.ofNat 64 (slotIndex q j * rowBytes q)
  | 2 => (List.range n).map fun j => chunkOf q 1 + BitVec.ofNat 64 (j * 2048)
  | _ => []

/-- The stack of a physical address (R272). -/
def stackOf (pa : Nat) : Nat := pa / 2 ^ 36 % 16

/-- A card's checked ranges: its rows, its destination and its completion word (R273). -/
structure CardRanges where
  rows : List (List Piece)
  dst  : List Piece
  comp : List Piece
  deriving DecidableEq, Repr

/-- The stack of the first byte of checked pieces (R272). -/
def stackOfPieces (ps : List Piece) : Nat := (((segsOf ps).head?).map fun g => stackOf g.pa).getD 0
/-- A destination's pieces, those on another stack than its first byte failing as SPACE (R268, R272).
DEDUCED, log 37. -/
def oneStack (ps : List Piece) : List Piece :=
  ps.map fun p => { p with space := p.space || (segsOf [p]).any fun g => stackOf g.pa != stackOfPieces ps }

/-- The ranges of a card checked. -/
def cardRanges (q : Slot8) (s : State) : CardRanges :=
  let acc := slotByte q 0 == 1 && slotByte q 3 % 2 == 1
  { rows := (rowAddrs q).map fun a => checkRange { r := true, w := false, lpd := false, lane := false } s a (rowBytes q)
    dst := oneStack (checkRange { r := acc, w := true, lpd := false, lane := false } s (chunkOf q 2) (dstBytes q))
    comp := checkRange { r := false, w := true, lpd := true, lane := false } s (chunkOf q 3) 8 }
/-- The stack that a card goes to (R272). -/
def CardRanges.stack (c : CardRanges) : Nat := stackOfPieces c.dst

/-- The cards of a hart outstanding in a stack queue (R271, R272). -/
def State.outstanding (s : State) (st : Nat) : Nat :=
  (((s.stackAt st).cards.flatMap Prod.snd).filter fun c =>
    c.core == s.cc && c.hart == s.ch && c.launch == s.hart.place.launch).length
/-- The cards of a tenancy in a stack engine. -/
def Stack.ofTen (k : Stack) (t : Nat) : List Card := mget [] k.cards t

/-- The refusal of a card: reason and FIELD (R268). DEDUCED, log 37. `gone` gives for each stack queue the hart's cards that
have ended since the ENQ dispatched, which still count (R271). -/
def cardReason (q : Slot8) (c : CardRanges) (gone : List Nat) (s : State) : Option (Nat × Nat) :=
  match cardForm q with
  | some f => some (6, f)
  | none =>
  match cardAlign q with
  | some f => some (7, f)
  | none =>
  match rangeReason [(1, c.rows.flatMap id), (2, c.dst), (3, c.comp)] with
  | some r => some r
  | none =>
    if s.hart.ecap.toNat ≤ s.outstanding c.stack + gone.getD c.stack 0 then some (2, 0)
    else if 64 ≤ ((s.stackAt c.stack).ofTen s.hart.place.ten.toNat).length then some (1, 0)
    else none

/-- A card accepted: D set, then the card enters its queue (R272, R273). Answers the status chunk. -/
def acceptCard (q : Slot8) (c : CardRanges) (x : Entry) (s : State) : Word × State :=
  let k := s.hart
  let ten := k.place.ten
  let card : Card :=
    { op := BitVec.ofNat 8 (slotByte q 0), count := slotByte q 1, fmt := BitVec.ofNat 8 (slotByte q 2)
      acc := slotByte q 3 % 2 == 1, pat := chunkOf q 1, dlen := slotWord1 q, rows := c.rows.map segsOf
      dst := segsOf c.dst, comp := (((segsOf c.comp).head?).map Seg.pa).getD 0, ten := ten, core := s.cc, hart := s.ch
      launch := k.place.launch, step := x.cfg.cstep }
  let s := s.dirtyPieces (c.dst ++ c.comp)
  (BitVec.ofNat 64 (256 * c.stack),
   s.modStackAt c.stack fun e => { e with cards := mset e.cards ten.toNat (e.ofTen ten.toNat ++ [card]) })

/-! ### Copy commands (R281-R284) -/

/-- The length of a copy command. -/
def copyLen (q : Slot8) : Nat := (chunkOf q 4).toNat
/-- The chunks of a copy of a length with a chunk size. -/
def chunksOf (len csz : Nat) : Nat := (len + 2 ^ csz - 1) / 2 ^ csz
/-- BIND of a copy command. -/
def copyBind (q : Slot8) : Bool := slotByte q 3 % 2 == 1
/-- The mask register of a copy command. -/
def copyMask (q : Slot8) : BitVec 3 := BitVec.ofNat 3 (slotByte q 3 / 2)

/-- Two ranges of addresses overlap. DEDUCED, log 38. -/
def rangesMeet (a b : Word) (n : Nat) : Bool := decide ((b - a).toNat < n) || decide ((a - b).toNat < n)

/-- FORM of a copy command (R281, R282). -/
def copyForm (q : Slot8) (k : Hart) : Bool :=
  let csz := slotByte q 2
  let fl := slotByte q 3
  let len := copyLen q
  slotByte q 0 != 0x20 || decide (slotByte q 1 > 3) || decide (csz < 8) || decide (csz > 16) || decide (fl ≥ 16)
    || (fl % 2 == 0 && fl / 2 != 0) || slotWord1 q != 0 || (len % 8 == 0 && (len == 0 || decide (len > 2 ^ 32)))
    || (chunkOf q 5 ||| chunkOf q 6 ||| chunkOf q 7) != 0 || rangesMeet (chunkOf q 1) (chunkOf q 2) len
    || (copyBind q && decide (chunksOf len csz > k.lanes * 32768))

/-- ALIGN of a copy command with its FIELD (R281). DEDUCED, log 37. -/
def copyAlign (q : Slot8) : Option Nat :=
  if (chunkOf q 1).toNat % 8 ≠ 0 then some 1
  else if (chunkOf q 2).toNat % 8 ≠ 0 then some 2
  else if (chunkOf q 3).toNat % 8 ≠ 0 then some 3
  else if copyLen q % 8 ≠ 0 then some 0
  else none

/-- The checked ranges of a copy command: source, destination, completion word (R282). -/
structure CopyRanges where
  src  : List Piece
  dst  : List Piece
  comp : List Piece
  deriving DecidableEq, Repr
/-- The ranges of a copy command checked. -/
def copyRanges (q : Slot8) (s : State) : CopyRanges :=
  let len := min (copyLen q) (2 ^ 32)
  { src := checkRange { r := true, w := false, lpd := true, lane := true } s (chunkOf q 1) len
    dst := checkRange { r := false, w := true, lpd := true, lane := true } s (chunkOf q 2) len
    comp := if chunkOf q 3 = 0 then []
      else checkRange { r := false, w := true, lpd := true, lane := false } s (chunkOf q 3) 8 }

/-- A channel of a core. -/
def Core.chan (y : Core) (n : BitVec 2) : Chan := y.chans[n.toNat]
/-- A channel of a core changed. -/
def Core.modChan (y : Core) (n : BitVec 2) (f : Chan → Chan) : Core := { y with chans := y.chans.set n.toNat (f (y.chan n)) }
/-- The channel of a copy command. -/
def copyChan (q : Slot8) : BitVec 2 := BitVec.ofNat 2 (slotByte q 1)

/-- The refusal of a copy command: reason and FIELD (R268, R282). DEDUCED, log 37. The command that a channel runs counts among
the 16 of its queue. DESIGN CHOICE, log 105. -/
def copyReason (q : Slot8) (c : CopyRanges) (s : State) : Option (Nat × Nat) :=
  if copyForm q s.hart then some (6, 0)
  else match copyAlign q with
  | some f => some (7, f)
  | none =>
  match rangeReason [(1, c.src), (2, c.dst), (3, c.comp)] with
  | some r => some r
  | none =>
    if copyBind q && s.hart.isBound (copyMask q).toNat then some (8, 0)
    else if 16 ≤ (s.core.chan (copyChan q)).cmds.length then some (1, 0)
    else none

/-- The bytes of the head command that have been written. -/
def Chan.written (n : Chan) : Nat :=
  match n.cmds with
  | [] => 0
  | c :: _ => min c.len (n.chunk * 2 ^ c.csz)
/-- The pointer value at which the queued commands end (R283). -/
def Chan.ends (n : Chan) : Nat := n.cwp.toNat + (n.cmds.map CopyCmd.len).sum - n.written

/-- An end of an accepted copy. -/
def copyEnd (ps : List Piece) : CopyEnd :=
  match ps with
  | { run := { loc := .lm _ a, n := _, cls := _ }, .. } :: _ => .lm a
  | ps => .mem (segsOf ps)

/-- The bits of a mask from 0 up to `n` cleared. -/
def Hart.clearMask (k : Hart) (m n : Nat) : Hart :=
  (List.range ((n + 63) / 64)).foldl (fun k i =>
    k.setMaskChunk m i (if 64 * i + 64 ≤ n then 0 else k.maskChunk m i >>> (n - 64 * i) <<< (n - 64 * i))) k

/-- A mask is bound to an accepted command (R284): the bits it clears are those of an earlier binding too that have landed
and are not shown yet. -/
def Hart.bind (k : Hart) (m : Nat) (r : BindRec) : Hart :=
  ((k.clearMask m r.nc).modStore fun t => { t with binds := mset t.binds m r }).modQ fun q =>
    { q with landed := q.landed.filter fun p => !(p.1 == m && decide (p.2 < r.nc)) }

/-- A copy command accepted (R282-R284). Answers the status chunk. -/
def acceptCopy (q : Slot8) (c : CopyRanges) (x : Entry) (s : State) : Word × State :=
  let ch := copyChan q
  let len := copyLen q
  let csz := slotByte q 2
  let m := copyMask q
  let cmd : CopyCmd :=
    { src := copyEnd c.src, dst := copyEnd c.dst, len := len, csz := csz, comp := (segsOf c.comp).head?
      bind := if copyBind q then some m else none, hart := s.ch, launch := s.hart.place.launch, ten := s.hart.place.ten
      step := x.cfg.cstep, poison := false }
  let e := (s.core.chan ch).ends + len
  let s := (s.dirtyPieces (c.dst ++ c.comp)).modCore fun y => y.modChan ch fun n => { n with cmds := n.cmds ++ [cmd] }
  let s := if copyBind q then s.modHart fun k =>
      k.bind m.toNat { dest := chunkOf q 2, len := len, csz := csz, nc := chunksOf len csz, bound := true }
    else s
  (BitVec.ofNat 64 (e % 2 ^ 48 * 65536 + 256 * ch.toNat), s)

/-! ### ENQ (R265-R269) -/

/-- The slot of command `e` in the command group. -/
def slotAt (k : Hart) (c : Cfg) (a : BitVec 5) (e : Nat) : Slot8 := (List.range 8).map fun i => k.chunk c a.toNat (8 * e + i)

/-- Command `e` checked, and queued or refused: its result bit, its status chunk, the state. An entry of the page
table that cannot be read is a failed walk, and an error met there is marked (08_memory R174). DEDUCED, log 39. -/
def enqCommand (stk : Bool) (q : Slot8) (x : Entry) (gone : List Nat) (s : State) : Bool × Word × State :=
  let refuse (ps : List Piece) (r : Nat × Nat) : Bool × Word × State :=
    (false, BitVec.ofNat 64 (256 * r.2 + r.1),
      ps.foldl (fun s p => if p.walk then s.markWalk s.cc s.hart.ptroot 0x1A p.va else s) s)
  if stk then
    let c := cardRanges q s
    match cardReason q c gone s with
    | some r => refuse (c.rows.flatMap id ++ c.dst ++ c.comp) r
    | none => (true, acceptCard q c x s)
  else
    let c := copyRanges q s
    match copyReason q c s with
    | some r => refuse (c.src ++ c.dst ++ c.comp) r
    | none => (true, acceptCopy q c x s)

/-- The commands of an ENQ that its predicate makes active, one bit each, as the hart holds the predicate at dispatch
(R267, R284). DEDUCED, log 39. -/
def Hart.enqActive (k : Hart) (h : VHdr) (lo : Nat) : Word :=
  match k.goesOnFrom lo with
  | some b => b.active
  | none => match h.pm with
    | none => BitVec.allOnes 64
    | some m => k.maskChunk m.toNat 0

/-- The hart's cards in each stack queue that have ended since its ENQ dispatched, which the ENQ's CAP check still counts
(R271). -/
def State.cardsGone (s : State) (lo : Nat) : List Nat :=
  match s.hart.goesOnFrom lo with
  | some b => (List.range 16).map fun i => b.outs.getD i 0 - s.outstanding i
  | none => []

/-- Command `e` of an ENQ (R267), active or not, its slot as the hart `k` holds it. DEDUCED, log 39. -/
def enqStep (stk : Bool) (d : BitVec 3) (y a : BitVec 5) (x : Entry) (on : Word) (gone : List Nat) (k : Hart) (s : State) (e : Nat) :
    State :=
  if on.getLsbD e then
    let r := enqCommand stk (slotAt k x.cfg a e) x gone s
    r.2.2.modHart fun k => (k.setMaskBit d.toNat e r.1).setChunk x.cfg y.toNat e r.2.1 false
  else s.modHart fun k => k.setMaskBit d.toNat e false

/-- The first active command of which a chunk carries a mark (R266). -/
def enqMark (h : VHdr) (a : BitVec 5) (x : Entry) (k : Hart) : Option Nat :=
  (List.range x.vl).find? fun e =>
    k.active h.pm e && (List.range 8).any fun i => k.chunkMarked x.cfg a.toNat (8 * e + i)

/-- Where the grant ends that an ENQ takes at a command: after the first active one, where more follow (R269,
05_harts R127). -/
def enqSpan (on : Word) (n lo : Nat) : Option Nat :=
  match (List.range (min n 64)).filter fun e => decide (lo ≤ e) && on.getLsbD e with
  | e :: _ :: _ => some (e + 1)
  | _ => none

/-- The commands of an ENQ from `lo` up to `hi`, one after another (R267). -/
def enqRun (stk : Bool) (h : VHdr) (d : BitVec 3) (y a : BitVec 5) (x : Entry) (s : State) (lo hi : Nat) : State :=
  let on := s.hart.enqActive h lo
  let gone := s.cardsGone lo
  let lo := if (s.hart.goesOnFrom lo).isNone then 0 else lo
  let s := (List.range' lo (hi - lo)).foldl (enqStep stk d y a x on gone s.hart) s
  if hi < x.vl then s.keepBegun
    { active := on, fails := [], fresh := false, vals := [], outs := (List.range 16).map fun i => s.outstanding i + gone.getD i 0 }
  else s

/-- ENQ of one engine (R265-R269). With VL = 0 it sends nothing and changes no bit of its mask (R267, 05_harts R115).
DEDUCED, logs 22 and 39. -/
def enqM (stk : Bool) (h : VHdr) (d : BitVec 3) (y a : BitVec 5) : VM := fun x s =>
  let gs : List Grp := [{ base := a.toNat, n := x.vl, w := 512 }]
  let ss : List Grp := [{ base := y.toNat, n := x.vl, w := 64 }]
  let on := s.hart.enqActive h 1
  { c := h.c, alone := true, srcs := gs, dsts := ss, maskR := pmReads h.pm, maskW := [d.toNat], memory := true, stores := true
    uses := if on.setWidth (min x.vl 64) = 0 then [] else [.engine], span := enqSpan on x.vl
    bad05 := decide (x.vl > 64), bad04 := overlapAny s.hart x.cfg ss gs
    late := (enqMark h a x s.hart).map fun e => (0x19, Config.freeWord s.tick, some e)
    whole := true, es0 := true, len := x.vl
    run := fun s lo hi => .ok (enqRun stk h d y a x s lo hi) }

/-- ENQ.STK (R265-R273). -/
def mEnqStk (h : VHdr) (d : BitVec 3) (y a : BitVec 5) : VM := enqM true h d y a
/-- ENQ.STK dispatched on its own. -/
def execEnqStk (h : VHdr) (d : BitVec 3) (y a : BitVec 5) (s : State) : Out := runSingle (mEnqStk h d y a) 0 0 s
/-- ENQ.CPY (R265-R269, R281-R284). -/
def mEnqCpy (h : VHdr) (d : BitVec 3) (y a : BitVec 5) : VM := enqM false h d y a
/-- ENQ.CPY dispatched on its own. -/
def execEnqCpy (h : VHdr) (d : BitVec 3) (y a : BitVec 5) (s : State) : Out := runSingle (mEnqCpy h d y a) 0 0 s

/-! ### CWPW (R286) -/

/-- CWPW (R286). -/
def mCwpw (c : Bool) (n : BitVec 2) : VM := fun x _ =>
  { c := c, alone := true, sync := true, whole := true, es0 := true
    run := fun s _ _ =>
      if x.sval.toNat ≤ (s.core.chan n).cwp.toNat then .ok (s.modHart fun k => k.modQ fun q => { q with stall := .none })
      else .wait 0 (s.modHart fun k => k.modQ fun q => { q with stall := .cwpw }) }
/-- CWPW dispatched on its own. -/
def execCwpw (c : Bool) (n : BitVec 2) (sr : BitVec 5) (s : State) : Out := runWaiting (.cwpw c n sr) (mCwpw c n) sr 0 s

/-! ### The work of the copy channels (R283, R284, R287) -/

/-- A completion word (R277). -/
def completionWord (done path : Nat) (poison : Bool) (status : Nat) : Nat :=
  done * 2 ^ 32 + path * 2 ^ 17 + (if poison then 2 ^ 16 else 0) + status

/-- A core of an ended launch without copy commands of it is idle (05_harts R106, R287). -/
def State.settleCore (s : State) (c : Nat) : State :=
  let y := s.coreAt c
  if (s.launches.any fun l => some l.id == y.launch && l.left != 0)
    || (y.harts.any fun p => p.2.place.placed) || y.chans.toList.any (fun n => !n.cmds.isEmpty) then s
  else s.modCoreAt c fun y => { y with launch := none }

/-- A chunk of a bound mask has landed (R283, R284): its bit shows at once, or after the word that runs has sampled
its masks; the binding of a hart that has ended is discarded. -/
def Hart.land (k : Hart) (cmd : CopyCmd) (m j : Nat) (last : Bool) : Hart :=
  if !k.place.placed ∨ k.place.launch ≠ cmd.launch then k
  else
    let k := if k.wordRuns then (k.dirtyMask m).modQ fun q => { q with landed := q.landed ++ [(m, j)] } else k.setMaskBit m j true
    if last then k.modStore fun t => { t with binds := t.binds.map fun p =>
      if p.1 = m then (p.1, { p.2 with bound := false }) else p } else k

/-- A copy channel starts its next command (R283, R288). -/
def execCopyCommand (ch : BitVec 2) (s : State) : Out :=
  let n := s.core.chan ch
  .next (if n.started || n.cmds.isEmpty then s
    else s.modCore fun y => y.modChan ch fun n => { n with started := true, chunk := 0 })

/-- A chunk of the running command is read and written, the write pointer is raised and a bound mask's bit is set;
after the last chunk the completion word is written (R283, R284). DESIGN CHOICE, log 7. DEDUCED, log 38. -/
def copyChunk (ch : BitVec 2) (cmd : CopyCmd) (s : State) : State :=
  let n := s.core.chan ch
  let off := n.chunk * 2 ^ cmd.csz
  let m := min (2 ^ cmd.csz) (cmd.len - off)
  let last := decide (cmd.len ≤ off + m)
  let nc := chunksOf cmd.len cmd.csz
  let through (g : Run) : Bool := s.writesThrough cmd.ten g.cls
  let got := s.getRuns false (sliceRuns (cmd.src.runs s.cc cmd.len) off m)
  let put := got.2.2.putRuns through cmd.step (sliceRuns (cmd.dst.runs s.cc cmd.len) off m) got.1 got.2.1
  let poison := cmd.poison || put.2 || got.2.1.any id
  let s := put.1.modCore fun y => y.modChan ch fun n => { n with
    cwp := n.cwp + BitVec.ofNat 64 m
    chunk := if last then 0 else n.chunk + 1
    started := !last
    cmds := match n.cmds with
      | [] => []
      | c :: r => if last then r else { c with poison := poison } :: r }
  let s := match cmd.bind with
    | some k => s.modHartAt s.cc cmd.hart fun h => h.land cmd k.toNat n.chunk last
    | none => s
  if !last then s
  else
    let s := match cmd.comp with
      | some g => (s.putRuns through cmd.step (runsOf [g]) (bytesOf 8 (completionWord nc 0 poison 1)) []).1
      | none => s
    if s.core.launch = some cmd.launch ∧ !(s.core.harts.any fun p => p.2.place.placed) then s.settleCore s.cc else s

/-- COPY_CHUNK (R283). -/
def execCopyChunk (ch : BitVec 2) (s : State) : Out :=
  let n := s.core.chan ch
  match n.cmds with
  | [] => .next s
  | cmd :: _ => .next (if n.started then copyChunk ch cmd s else s)

/-! ### The work of the stack engines (R272, R274-R279) -/

/-- The tenancies with cards, the next to serve first: round-robin by rising number after the one served last, and after
reset from tenancy 1 on (R272). DESIGN CHOICE, log 89. -/
def Stack.next (k : Stack) : Option (Nat × Card) :=
  let ts := (k.cards.filter fun p => !p.2.isEmpty).map Prod.fst
  let order := (ts.filter fun t => decide (k.last < t)) ++ ts.filter fun t => decide (t ≤ k.last)
  match order with
  | [] => none
  | t :: _ => ((k.ofTen t).head?).map fun c => (t, c)

/-- What a card's sub-operations leave: the state, and whether it met a mark. -/
abbrev CardRes := State × Bool

/-- Bytes written by a card: recalled lines, then DRAM and the coherent value together (R290). -/
def State.engineWrite (s : State) (step : Word) (dst : List Run) (bs : List Byte) (bad : List Bool) : State × Bool :=
  (s.recall dst).putRuns (fun _ => true) step dst bs bad

/-- Number `i` of `n` bytes each in a list of bytes. -/
def numAt (bs : List Byte) (n i : Nat) : Nat := (bs.drop (i * n)).take n |>.foldr (fun b a => b.toNat + 256 * a) 0

/-- The rows an IRED reads: their bytes, the marks met, the state (R274). -/
def iredRows : List (List Seg) → State → List (List Byte) × Bool × State
  | [], s => ([], false, s)
  | r :: rs, s =>
    let g := s.getRuns true (runsOf r)
    let t := iredRows rs g.2.2
    (g.1 :: t.1, g.2.1.any id || t.2.1, t.2.2)

/-- The sum of element `e` over an IRED's rows (R274). -/
def iredElem (c : Card) (rows : List (List Byte)) (acc : List Byte) (e : Nat) : Nat :=
  let w := tableWidth c.fmt.toNat / 8
  let ts := rows.map fun r => value c.fmt.toNat (numAt r w e)
  round 0 0 false 0 (sumV false (if c.acc then value 0 (numAt acc 4 e) :: ts else ts))

/-- The first `n` sub-operations of an IRED (R274): the last one goes on to the destination. DEDUCED, log 38. -/
def iredRun (c : Card) (n : Nat) (s : State) : CardRes :=
  let r := iredRows (c.rows.take n) s
  if n < c.count then (r.2.2, r.2.1)
  else
    let dst := runsOf c.dst
    let a := if c.acc then r.2.2.getRuns true dst else ([], [], r.2.2)
    let bad := r.2.1 || a.2.1.any id
    let bs := (List.range c.dlen).flatMap fun e => bytesOf 4 (iredElem c r.1 a.1 e)
    let p := a.2.2.engineWrite c.step dst bs (bs.map fun _ => bad)
    (p.1, bad || p.2)

/-- A row of an RCOPY (R275). -/
def rcopyRow (c : Card) (i : Nat) (p : CardRes) : CardRes :=
  let g := p.1.getRuns true (runsOf (c.rows.getD i []))
  let q := g.2.2.engineWrite c.step (sliceRuns (runsOf c.dst) (2048 * i) 2048) g.1 g.2.1
  (q.1, p.2 || g.2.1.any id || q.2)
/-- A row of an RFILL (R276). -/
def rfillRow (c : Card) (i : Nat) (p : CardRes) : CardRes :=
  let bs := (List.range 256).flatMap fun _ => bytesOf 8 (if c.acc then c.pat.toNat else 0)
  let q := p.1.engineWrite c.step (sliceRuns (runsOf c.dst) (2048 * i) 2048) bs []
  (q.1, p.2 || q.2)

/-- A row of an RCOPY is copied inside the array (R275). -/
def inArray (c : Card) (i : Nat) : Bool :=
  let at_ (l : List Run) : Nat := match l with
    | { loc := .mem pa, .. } :: _ => pa % 2 ^ 40 / 2 ^ 20
    | _ => 0
  at_ (runsOf (c.rows.getD i [])) == at_ (sliceRuns (runsOf c.dst) (2048 * i) 2048)
/-- PATH of an RCOPY that copied `n` rows (R277). -/
def cardPath (c : Card) (n : Nat) : Nat :=
  if c.op ≠ 2 then 0
  else if (List.range n).all (inArray c) then 1
  else if (List.range n).any (inArray c) then 3 else 2

/-- The first `n` sub-operations of a card. DEDUCED, log 40. -/
def cardWork (c : Card) (n : Nat) (s : State) : CardRes :=
  if c.op = 1 then iredRun c n s
  else if c.op = 2 then (List.range n).foldl (fun p i => rcopyRow c i p) (s, false)
  else (List.range n).foldl (fun p i => rfillRow c i p) (s, false)

/-- A card run for `n` sub-operations and ended with its completion word (R272, R277, R278).
DESIGN CHOICE, log 7. -/
def runCard (st t : Nat) (c : Card) (n : Nat) (s : State) : State :=
  let r := cardWork c n s
  let w := completionWord n (cardPath c n) r.2 (if n < c.count then 3 else 1)
  let s := (r.1.engineWrite c.step [{ loc := .mem c.comp, n := 8, cls := 0 }] (bytesOf 8 w) []).1
  s.modStackAt st fun k => { k with last := t, cards := mset k.cards t ((k.ofTen t).drop 1) }

/-- A card run, or, where a store of it has to wait for a drain (13_collective R307), passed over in this round, so that the
cards of the other tenancies go on (00_scope R5). DEDUCED, log 50. -/
def State.orPassed (s : State) (st t : Nat) (u : State) : State :=
  if u.storeWaits then s.modStackAt st fun k => { k with last := t } else u

/-- The next card of a stack engine run whole, where it is of an operation. -/
def cardEvent (op : BitVec 8) (st : BitVec 4) (s : State) : Out :=
  match (s.stackAt st.toNat).next with
  | some (t, c) => .next (if c.op = op then s.orPassed st.toNat t (runCard st.toNat t c c.count s) else s)
  | none => .next s
/-- An IRED card runs (R274). -/
def execIred (st : BitVec 4) (s : State) : Out := cardEvent 1 st s
/-- An RCOPY card runs (R275). -/
def execRcopy (st : BitVec 4) (s : State) : Out := cardEvent 2 st s
/-- An RFILL card runs (R276). -/
def execRfill (st : BitVec 4) (s : State) : Out := cardEvent 3 st s
/-- A card has read a row from another stack in its first `n` sub-operations (R278). -/
def Card.readsAfar (c : Card) (st n : Nat) : Bool := (c.rows.take n).any fun r => r.any fun g => stackOf g.pa != st
/-- The next card meets its bound after `n` of its sub-operations, which only its reads from other stacks can cause
(R278). DEDUCED, log 40. -/
def execCardBound (st : BitVec 4) (n : BitVec 7) (s : State) : Out :=
  match (s.stackAt st.toNat).next with
  | some (t, c) =>
    .next (if 1 ≤ n.toNat ∧ n.toNat < c.count ∧ c.readsAfar st.toNat n.toNat then s.orPassed st.toNat t (runCard st.toNat t c n.toNat s) else s)
  | none => .next s

end Sys2Proof.Machine
end

