-- ==== Sys2Proof/Machine/VArith.lean ====
section
/-! DEFINITION. Element arithmetic (06_varith): the value, function, compare, raw and shift classes, select, index
and move, and VCVT, VQNT and VDQNT (03_formats R80-R82). Each instruction has its meaning `m…` as a word of a
convoy, and `exec…`, the same word captured and dispatched on its own. -/

namespace Sys2Proof.Machine

/-! ### The shared forms -/

/-- The vector groups among operands. -/
def opndGrps (n : Nat) (os : List Opnd) : List Grp :=
  os.filterMap fun o => match o with
    | .vec v f => some { base := v, n := n, w := contWidth f }
    | .const .. => none

/-- The values of several operands at an element; none where a chunk carries a mark. -/
def opndVals (h : Hart) (c : Cfg) (e : Nat) : List Opnd → Option (List Val)
  | [] => some []
  | o :: r =>
    match o.val h c e, opndVals h c e r with
    | some v, some vs => some (v :: vs)
    | _, _ => none

/-- One element of an instruction that rounds a result of its operands' values into FD (R130, R132, R139). -/
def valueElem (pm : Option (BitVec 3)) (d : BitVec 5) (x : Entry) (os : Nat → State → List Opnd)
    (op : Bool → Nat → List Val → Val) (e : Nat) (s : State) : Except (BitVec 8 × Word × State) State :=
  if s.hart.active pm e then
    match opndVals s.hart x.cfg e (os e s) with
    | none => .error (markMet s)
    | some vs => .ok (s.putRound x.cfg d.toNat x.fmt e (op (decide (x.fmt.rm = 2)) e vs))
  else .ok s

/-- An instruction of the value or the function class (R131, R132, R137): its slot, its operands, the formats its
sources accept, and its exact result. -/
def valueM (hd : VHdr) (slot : Slot) (d : BitVec 5) (os : List Opnd) (ok : Nat → Bool)
    (op : Bool → Nat → List Val → Val) (x : Entry) (s : State) : VMeaning :=
  let q := x.fmt
  let ds := [x.grp d q.fd]
  let ss := opndGrps x.vl os
  { c := hd.c, slots := slot :: crossing ds ss, srcs := ss, dsts := ds, maskR := pmReads hd.pm
    bad05 := descrReserved x.fval || q.scl != 0 || !ok q.fd || os.any fun o => !ok o.fmt
    bad04 := overlap137 s.hart x.cfg ds ss, steps := q.rm == 5, len := x.vl
    run := elems (valueElem hd.pm d x (fun _ _ => os) op) }

/-- A two-operand instruction of the value class (R138, R139). -/
def binM (hd : VHdr) (slot : Slot) (d a : BitVec 5) (b : VSrc) (op : Bool → Val → Val → Val) : VM := fun x s =>
  valueM hd slot d [.vec a.toNat x.fmt.fa, bOpnd b x x.fmt.fb] isValue
    (fun rdn _ vs => match vs with
      | [u, v] => op rdn u v
      | _ => .nan) x s

/-- A fused instruction (R139). -/
def fmaM (hd : VHdr) (d a : BitVec 5) (b : VSrc) (y : BitVec 5) (op : Bool → Val → Val → Val → Val) : VM :=
  fun x s =>
  valueM hd .p d [.vec a.toNat x.fmt.fa, bOpnd b x x.fmt.fb, .vec y.toNat x.fmt.fc] isValue
    (fun rdn _ vs => match vs with
      | [u, v, w] => op rdn u v w
      | _ => .nan) x s

/-- A one-operand instruction of the value or the function class (R139, R142). -/
def unM (hd : VHdr) (slot : Slot) (d a : BitVec 5) (ok : Nat → Bool) (op : Val → Val) : VM := fun x s =>
  valueM hd slot d [.vec a.toNat x.fmt.fa] ok
    (fun _ _ vs => match vs with
      | [u] => op u
      | _ => .nan) x s

/-- The scalar register that operand b names, for its capture. -/
def srcReg : VSrc → BitVec 5
  | .vec _ => 0
  | .scal s => s
/-- The scalar register that VCLAMP's bounds name. -/
def clampReg : ClampSrc → BitVec 5
  | .vec _ _ => 0
  | .scal s => s

/-! ### The value class (R139-R141) -/

/-- VADD (R139). -/
def mVadd (h : VHdr) (d a : BitVec 5) (b : VSrc) : VM := binM h .p d a b fun rdn u v => u.add rdn v
/-- VADD dispatched on its own. -/
def execVadd (h : VHdr) (d a : BitVec 5) (b : VSrc) (f : BitVec 5) (s : State) : Out := runSingle (mVadd h d a b) (srcReg b) f s

/-- VSUB (R139). -/
def mVsub (h : VHdr) (d a : BitVec 5) (b : VSrc) : VM := binM h .p d a b fun rdn u v => u.add rdn v.negate
/-- VSUB dispatched on its own. -/
def execVsub (h : VHdr) (d a : BitVec 5) (b : VSrc) (f : BitVec 5) (s : State) : Out := runSingle (mVsub h d a b) (srcReg b) f s

/-- VMUL (R139). -/
def mVmul (h : VHdr) (d a : BitVec 5) (b : VSrc) : VM := binM h .p d a b fun _ u v => u.mul v
/-- VMUL dispatched on its own. -/
def execVmul (h : VHdr) (d a : BitVec 5) (b : VSrc) (f : BitVec 5) (s : State) : Out := runSingle (mVmul h d a b) (srcReg b) f s

/-- VDIV (R139). -/
def mVdiv (h : VHdr) (d a : BitVec 5) (b : VSrc) : VM := binM h .p1 d a b fun _ u v => u.div v
/-- VDIV dispatched on its own. -/
def execVdiv (h : VHdr) (d a : BitVec 5) (b : VSrc) (f : BitVec 5) (s : State) : Out := runSingle (mVdiv h d a b) (srcReg b) f s

/-- VMIN (R139). -/
def mVmin (h : VHdr) (d a : BitVec 5) (b : VSrc) : VM := binM h .p d a b fun _ u v => minV u v
/-- VMIN dispatched on its own. -/
def execVmin (h : VHdr) (d a : BitVec 5) (b : VSrc) (f : BitVec 5) (s : State) : Out := runSingle (mVmin h d a b) (srcReg b) f s

/-- VMAX (R139). -/
def mVmax (h : VHdr) (d a : BitVec 5) (b : VSrc) : VM := binM h .p d a b fun _ u v => maxV u v
/-- VMAX dispatched on its own. -/
def execVmax (h : VHdr) (d a : BitVec 5) (b : VSrc) (f : BitVec 5) (s : State) : Out := runSingle (mVmax h d a b) (srcReg b) f s

/-- VFMA (R139): the product is one exact term (R133). -/
def mVfma (h : VHdr) (d a : BitVec 5) (b : VSrc) (y : BitVec 5) : VM := fmaM h d a b y fun rdn u v w => (u.mul v).add rdn w
/-- VFMA dispatched on its own. -/
def execVfma (h : VHdr) (d a : BitVec 5) (b : VSrc) (y f : BitVec 5) (s : State) : Out :=
  runSingle (mVfma h d a b y) (srcReg b) f s

/-- VFMS (R139): the product is one exact term (R133). -/
def mVfms (h : VHdr) (d a : BitVec 5) (b : VSrc) (y : BitVec 5) : VM := fmaM h d a b y fun rdn u v w => (u.mul v).add rdn w.negate
/-- VFMS dispatched on its own. -/
def execVfms (h : VHdr) (d a : BitVec 5) (b : VSrc) (y f : BitVec 5) (s : State) : Out :=
  runSingle (mVfms h d a b y) (srcReg b) f s

/-- VFNMA (R139): the product is one exact term (R133). -/
def mVfnma (h : VHdr) (d a : BitVec 5) (b : VSrc) (y : BitVec 5) : VM := fmaM h d a b y fun rdn u v w => w.add rdn (u.mul v).negate
/-- VFNMA dispatched on its own. -/
def execVfnma (h : VHdr) (d a : BitVec 5) (b : VSrc) (y f : BitVec 5) (s : State) : Out :=
  runSingle (mVfnma h d a b y) (srcReg b) f s

/-- VABS (R139). -/
def mVabs (h : VHdr) (d a : BitVec 5) : VM := unM h .p d a isValue Val.abs
/-- VABS dispatched on its own. -/
def execVabs (h : VHdr) (d a f : BitVec 5) (s : State) : Out := runSingle (mVabs h d a) 0 f s

/-- VNEG (R139). -/
def mVneg (h : VHdr) (d a : BitVec 5) : VM := unM h .p d a isValue Val.negate
/-- VNEG dispatched on its own. -/
def execVneg (h : VHdr) (d a f : BitVec 5) (s : State) : Out := runSingle (mVneg h d a) 0 f s

/-- VSQRT (R142). -/
def mVsqrt (h : VHdr) (d a : BitVec 5) : VM := unM h .p1 d a isFunc Val.sqrt
/-- VSQRT dispatched on its own. -/
def execVsqrt (h : VHdr) (d a f : BitVec 5) (s : State) : Out := runSingle (mVsqrt h d a) 0 f s

/-- VRCP (R142). -/
def mVrcp (h : VHdr) (d a : BitVec 5) : VM := unM h .p1 d a isFunc Val.rcp
/-- VRCP dispatched on its own. -/
def execVrcp (h : VHdr) (d a f : BitVec 5) (s : State) : Out := runSingle (mVrcp h d a) 0 f s

/-- VRSQRT (R142). -/
def mVrsqrt (h : VHdr) (d a : BitVec 5) : VM := unM h .p1 d a isFunc Val.rsqrt
/-- VRSQRT dispatched on its own. -/
def execVrsqrt (h : VHdr) (d a f : BitVec 5) (s : State) : Out := runSingle (mVrsqrt h d a) 0 f s

/-- VEXP2 (R142). -/
def mVexp2 (h : VHdr) (d a : BitVec 5) : VM := unM h .p1 d a isFunc Val.exp2
/-- VEXP2 dispatched on its own. -/
def execVexp2 (h : VHdr) (d a f : BitVec 5) (s : State) : Out := runSingle (mVexp2 h d a) 0 f s

/-- VLOG2 (R142). -/
def mVlog2 (h : VHdr) (d a : BitVec 5) : VM := unM h .p1 d a isFunc Val.log2
/-- VLOG2 dispatched on its own. -/
def execVlog2 (h : VHdr) (d a f : BitVec 5) (s : State) : Out := runSingle (mVlog2 h d a) 0 f s

/-- The bounds of VCLAMP as operands: the halves of S under FB and FC in the scalar form (R141). -/
def clampOpnds (b : ClampSrc) (x : Entry) : List Opnd :=
  match b with
  | .vec r y => [.vec r.toNat x.fmt.fb, .vec y.toNat x.fmt.fc]
  | .scal _ => [.const (x.sval.toNat % 2 ^ contWidth x.fmt.fb) x.fmt.fb,
                .const (x.sval.toNat / 2 ^ 32 % 2 ^ contWidth x.fmt.fc) x.fmt.fc]
/-- VCLAMP (R141). -/
def mVclamp (h : VHdr) (d a : BitVec 5) (b : ClampSrc) : VM := fun x s =>
  valueM h .p d (.vec a.toNat x.fmt.fa :: clampOpnds b x) isValue
    (fun _ _ vs => match vs with
      | [u, lo, hi] => minV (maxV u lo) hi
      | _ => .nan) x s
/-- VCLAMP dispatched on its own. -/
def execVclamp (h : VHdr) (d a : BitVec 5) (b : ClampSrc) (f : BitVec 5) (s : State) : Out :=
  runSingle (mVclamp h d a b) (clampReg b) f s

/-- VINDEX (R146): the sum of the scalar and the element's number, signed as a sum where it is zero (R133). -/
def mVindex (h : VHdr) (d : BitVec 5) : VM := fun x s =>
  valueM h .p d [] isValue (fun rdn e _ => Val.add rdn (.ofInt x.sval.toInt) (.ofInt e)) x s
/-- VINDEX dispatched on its own. -/
def execVindex (h : VHdr) (d sr f : BitVec 5) (s : State) : Out := runSingle (mVindex h d) sr f s

/-- VSEL (R145): the operand the selector bit names is read, and rounded into FD. -/
def mVsel (h : VHdr) (d a : BitVec 5) (b : VSrc) (m : BitVec 3) : VM := fun x s =>
  let u : Opnd := .vec a.toNat x.fmt.fa
  let v := bOpnd b x x.fmt.fb
  let base := valueM h .p d [u, v] isValue (fun _ _ _ => .nan) x s
  { base with
    pm := h.pm
    maskR := m.toNat :: pmReads h.pm
    run := elems (valueElem h.pm d x (fun e s => [if s.hart.maskBit m.toNat e then u else v])
      fun _ _ vs => vs.headD .nan) }
/-- VSEL dispatched on its own. -/
def execVsel (h : VHdr) (d a : BitVec 5) (b : VSrc) (m : BitVec 3) (f : BitVec 5) (s : State) : Out :=
  runSingle (mVsel h d a b m) (srcReg b) f s

/-! ### Compare (R147) -/

/-- The condition of VCMP. -/
def condHolds (cc : VCond) (u v : Val) : Bool :=
  match cc, cmpV u v with
  | .eq, some o => o == .eq
  | .ne, some o => o != .eq
  | .lt, some o => o == .lt
  | .le, some o => o != .gt
  | .gt, some o => o == .gt
  | .ge, some o => o != .lt
  | .ord, some _ => true
  | .un, none => true
  | .ne, none => true
  | _, _ => false

/-- VCMP (R147). -/
def mVcmp (h : VHdr) (cc : VCond) (d : BitVec 3) (a : BitVec 5) (b : VSrc) : VM := fun x _ =>
  let os := [.vec a.toNat x.fmt.fa, bOpnd b x x.fmt.fb]
  { c := h.c, slots := [.k], srcs := opndGrps x.vl os, maskR := pmReads h.pm, maskW := [d.toNat]
    bad05 := descrReserved x.fval || x.fmt.scl != 0 || os.any fun o => !isValue o.fmt
    steps := x.fmt.rm == 5, len := x.vl
    run := elems fun e s =>
      if s.hart.active h.pm e then
        match opndVals s.hart x.cfg e os with
        | some [u, v] => .ok (s.modHart fun k => k.setMaskBit d.toNat e (condHolds cc u v))
        | _ => .error (markMet s)
      else .ok s }
/-- VCMP dispatched on its own. -/
def execVcmp (h : VHdr) (cc : VCond) (d : BitVec 3) (a : BitVec 5) (b : VSrc) (f : BitVec 5) (s : State) : Out :=
  runSingle (mVcmp h cc d a b) (srcReg b) f s

/-! ### Raw patterns and shifts (R143, R144) -/

/-- A pattern as a raw instruction writes it: the value width of FD, B19's low bits zero, TERN's 0b10 zero (R143). -/
def rawFix (fd p : Nat) : Nat :=
  let q := p % 2 ^ memWidth fd
  if fd = 1 then q / 2 ^ 13 * 2 ^ 13 else if fd = 0x0E ∧ q = 2 then 0 else q

/-- The patterns of several operands; none where a chunk carries a mark. -/
def opndPats (h : Hart) (c : Cfg) (e : Nat) : List Opnd → Option (List Nat)
  | [] => some []
  | o :: r =>
    match o.pat h c e, opndPats h c e r with
    | some v, some vs => some (v :: vs)
    | _, _ => none

/-- An instruction on patterns: the formats it accepts are checked by `bad`. -/
def patM (hd : VHdr) (d : BitVec 5) (os : List Opnd) (bad : Bool) (op : List Nat → Nat) (x : Entry) (s : State) :
    VMeaning :=
  let q := x.fmt
  let ds := [x.grp d q.fd]
  let ss := opndGrps x.vl os
  { c := hd.c, slots := .p :: crossing ds ss, srcs := ss, dsts := ds, maskR := pmReads hd.pm
    bad05 := descrReserved x.fval || q.scl != 0 || bad
    bad04 := overlap137 s.hart x.cfg ds ss, steps := q.rm == 5, len := x.vl
    run := elems fun e s =>
      if s.hart.active hd.pm e then
        match opndPats s.hart x.cfg e os with
        | none => .error (markMet s)
        | some vs => .ok (s.modHart fun k => k.setElem x.cfg d.toNat (contWidth q.fd) e (op vs))
      else .ok s }

/-- The raw class: every format in use of one container width (R131, R143). -/
def rawM (hd : VHdr) (d : BitVec 5) (os : List Opnd) (op : List Nat → Nat) : VM := fun x s =>
  patM hd d os (os.any fun o => contWidth o.fmt != contWidth x.fmt.fd) (fun vs => rawFix x.fmt.fd (op vs)) x s

/-- A bitwise instruction of two operands (R143); the scalar form reads S as a pattern of FB (R131). -/
def bitM (h : VHdr) (d a : BitVec 5) (b : VSrc) (op : Nat → Nat → Nat) : VM := fun x s =>
  rawM h d [.vec a.toNat x.fmt.fa, bOpnd b x x.fmt.fb] (fun vs => match vs with
    | [u, v] => op u v
    | _ => 0) x s

/-- VAND (R143). -/
def mVand (h : VHdr) (d a : BitVec 5) (b : VSrc) : VM := bitM h d a b (· &&& ·)
/-- VAND dispatched on its own. -/
def execVand (h : VHdr) (d a : BitVec 5) (b : VSrc) (f : BitVec 5) (s : State) : Out := runSingle (mVand h d a b) (srcReg b) f s

/-- VOR (R143). -/
def mVor (h : VHdr) (d a : BitVec 5) (b : VSrc) : VM := bitM h d a b (· ||| ·)
/-- VOR dispatched on its own. -/
def execVor (h : VHdr) (d a : BitVec 5) (b : VSrc) (f : BitVec 5) (s : State) : Out := runSingle (mVor h d a b) (srcReg b) f s

/-- VXOR (R143). -/
def mVxor (h : VHdr) (d a : BitVec 5) (b : VSrc) : VM := bitM h d a b (· ^^^ ·)
/-- VXOR dispatched on its own. -/
def execVxor (h : VHdr) (d a : BitVec 5) (b : VSrc) (f : BitVec 5) (s : State) : Out := runSingle (mVxor h d a b) (srcReg b) f s

/-- VMOV (R143). -/
def mVmov (h : VHdr) (d a : BitVec 5) : VM := fun x s => rawM h d [.vec a.toNat x.fmt.fa] (fun vs => vs.headD 0) x s
/-- VMOV dispatched on its own. -/
def execVmov (h : VHdr) (d a f : BitVec 5) (s : State) : Out := runSingle (mVmov h d a) 0 f s

/-- VSPLAT (R143). -/
def mVsplat (h : VHdr) (d : BitVec 5) : VM := fun x s => rawM h d [] (fun _ => x.sval.toNat) x s
/-- VSPLAT dispatched on its own. -/
def execVsplat (h : VHdr) (d sr f : BitVec 5) (s : State) : Out := runSingle (mVsplat h d) sr f s

/-- A shift of patterns by a signed amount (R144): the pattern, its width and the amount give the result. -/
def shiftM (h : VHdr) (d a : BitVec 5) (b : VSrc) (op : Nat → Nat → Int → Nat) : VM := fun x s =>
  let q := x.fmt
  let w := memWidth q.fa
  patM h d [.vec a.toNat q.fa, bOpnd b x q.fb]
    (!isInt q.fa || !isInt q.fb || !isInt q.fd || memWidth q.fd != w)
    (fun vs => match vs with
      | [u, v] => op w (u % 2 ^ w) (intValue q.fb v)
      | _ => 0) x s

/-- VSHL (R144). -/
def mVshl (h : VHdr) (d a : BitVec 5) (b : VSrc) : VM :=
  shiftM h d a b fun w p n => if 0 ≤ n ∧ n < w then (p <<< n.toNat) % 2 ^ w else 0
/-- VSHL dispatched on its own. -/
def execVshl (h : VHdr) (d a : BitVec 5) (b : VSrc) (f : BitVec 5) (s : State) : Out := runSingle (mVshl h d a b) (srcReg b) f s

/-- VSHR (R144). -/
def mVshr (h : VHdr) (d a : BitVec 5) (b : VSrc) : VM :=
  shiftM h d a b fun w p n => if 0 ≤ n ∧ n < w then p >>> n.toNat else 0
/-- VSHR dispatched on its own. -/
def execVshr (h : VHdr) (d a : BitVec 5) (b : VSrc) (f : BitVec 5) (s : State) : Out := runSingle (mVshr h d a b) (srcReg b) f s

/-- VSHR.A (R144). -/
def mVshrA (h : VHdr) (d a : BitVec 5) (b : VSrc) : VM :=
  shiftM h d a b fun w p n =>
    if 0 ≤ n ∧ n < w then (sintOf w p / 2 ^ n.toNat % 2 ^ w).toNat
    else if p.testBit (w - 1) then 2 ^ w - 1 else 0
/-- VSHR.A dispatched on its own. -/
def execVshrA (h : VHdr) (d a : BitVec 5) (b : VSrc) (f : BitVec 5) (s : State) : Out :=
  runSingle (mVshrA h d a b) (srcReg b) f s

/-! ### Format instructions (03_formats R80-R82, R371) -/

/-- VCVT (R80): any formats; vD may be vA where the containers agree. -/
def mVcvt (h : VHdr) (d a : BitVec 5) : VM := unM h .p d a (fun f => f ≤ 0x14) id
/-- VCVT dispatched on its own. -/
def execVcvt (h : VHdr) (d a f : BitVec 5) (s : State) : Out := runSingle (mVcvt h d a) 0 f s

/-- The scale block length of a captured VTYPE, 0 for none (R69). -/
def Entry.blen (x : Entry) : Nat :=
  let k := (x.cfg.vtype.extractLsb' 3 2).toNat
  if k = 0 then 0 else 8 <<< k

/-- The formats that VQNT writes and VDQNT reads (R81, R82). -/
def isQuant (f : Nat) : Bool := (4 ≤ f && f ≤ 9) || f == 0x0B

/-- The largest finite value of a narrow format (R81). -/
def quantMax (f : Nat) : Val := value f (round f 1 true 0 (.inf false))

/-- The scale exponent of a block whose greatest magnitude is `amax`, M being `m` (R81): the smallest k with
amax·2^-k ≤ M, one more at equality. -/
def quantExp (amax m : Val) : Int :=
  match amax, m with
  | .num _ n e _, .num _ k f _ =>
    let g := ilog n e - ilog k f
    let k0 := if cmpV (amax.scale (-g)) m = some .gt then g + 1 else g
    let k1 := if cmpV (amax.scale (-k0)) m = some .eq then k0 + 1 else k0
    max (-127) (min 127 k1)
  | _, _ => 0

/-- A block of VQNT (R81, R371): its scale and its elements together, or a mark met at an element. -/
def quantBlock (h : VHdr) (d y a : BitVec 5) (x : Entry) (j : Nat) (s : State) : Except (BitVec 8 × Word × State × Nat) State :=
  let q := x.fmt
  let bl := x.blen
  let act := ((List.range bl).map (j * bl + ·)).filter fun e => decide (e < x.vl) && s.hart.active h.pm e
  match act.find? fun e => s.hart.elemMarked x.cfg a.toNat 32 e with
  | some e => .error (0x19, Config.freeWord s.tick, s, e)
  | none =>
    if act.isEmpty then .ok s
    else
      let vals := act.map fun e => (e, value 0 (s.hart.elem x.cfg a.toNat 32 e))
      let bad := vals.any fun p => match p.2 with
        | .num .. => false
        | _ => true
      let amax := vals.foldl (fun m p => maxV m p.2.abs) (.zero false)
      let k := if amax.isZero then 0 else quantExp amax (quantMax q.fd)
      let code := if bad then 0xFF else (k + 127).toNat
      let s := s.modHart fun t => t.setElem x.cfg y.toNat 8 j code
      .ok (vals.foldl (fun s p => s.putRound x.cfg d.toNat q p.1 (if bad then .nan else p.2.scale (-k))) s)

/-- Blocks of VQNT in order; a mark ends them with its element. DEDUCED, log 31. -/
def quantBlocks (f : Nat → State → Except (BitVec 8 × Word × State × Nat) State) : Nat → Nat → State → VRes
  | 0, _, s => .ok s
  | n + 1, j, s =>
    match f j s with
    | .ok s => quantBlocks f n (j + 1) s
    | .error (code, tval, s, e) => .fault e code tval s

/-- VQNT (R81, R371). While BLK is 0 there is no block length, and the scale group counts as VL elements for the check
before that of the limit. DESIGN CHOICE, log 81. -/
def mVqnt (h : VHdr) (d y a : BitVec 5) : VM := fun x s =>
  let q := x.fmt
  let bl := x.blen
  let ds := [x.grp d q.fd, { base := y.toNat, n := x.vl / max 1 bl, w := 8 }]
  let ss := [x.grp a q.fa]
  { c := h.c, slots := .p :: crossing ds ss, srcs := ss, dsts := ds, maskR := pmReads h.pm
    bad05 := descrReserved x.fval || q.scl != 0 || q.fa != 0 || !isQuant q.fd || bl == 0
    bad04 := overlapAny s.hart x.cfg ds ss || overlapAny s.hart x.cfg [x.grp d q.fd] (ds.drop 1)
    steps := q.rm == 5, unit := max 1 bl, len := x.vl
    run := fun s lo hi => quantBlocks (quantBlock h d y a x) (hi / max 1 bl - lo / max 1 bl) (lo / max 1 bl) s }
/-- VQNT dispatched on its own. -/
def execVqnt (h : VHdr) (d y a f : BitVec 5) (s : State) : Out := runSingle (mVqnt h d y a) 0 f s

/-- VDQNT (R82). The scale group while BLK is 0 is as VQNT's. DESIGN CHOICE, log 81. Where VL is no multiple of the block,
the elements of the last block, which is cut short, take the scale that follows those of the group.
DEDUCED, log 31. -/
def mVdqnt (h : VHdr) (d a y : BitVec 5) : VM := fun x s =>
  let q := x.fmt
  let bl := x.blen
  let ds := [x.grp d q.fd]
  let ss := [x.grp a q.fa, { base := y.toNat, n := x.vl / max 1 bl, w := 8 }]
  { c := h.c, slots := .p :: crossing ds ss, srcs := ss, dsts := ds, maskR := pmReads h.pm
    bad05 := descrReserved x.fval || q.scl != 1 || !isQuant q.fa || !isFunc q.fd || bl == 0
    bad04 := overlapAny s.hart x.cfg ds ss
    steps := q.rm == 5, len := x.vl
    run := elems fun e s =>
      if s.hart.active h.pm e then
        let j := e / max 1 bl
        if s.hart.elemMarked x.cfg a.toNat (contWidth q.fa) e || s.hart.elemMarked x.cfg y.toNat 8 j then
          .error (markMet s)
        else
          let sc := s.hart.elem x.cfg y.toNat 8 j
          let v := if sc = 0xFF then Val.nan
            else (value q.fa (s.hart.elem x.cfg a.toNat (contWidth q.fa) e)).scale ((sc : Int) - 127)
          .ok (s.putRound x.cfg d.toNat q e v)
      else .ok s }
/-- VDQNT dispatched on its own. -/
def execVdqnt (h : VHdr) (d a y f : BitVec 5) (s : State) : Out := runSingle (mVdqnt h d a y) 0 f s

end Sys2Proof.Machine
end

