-- ==== Sys2Proof/Machine/VMask.lean ====
section
/-! DEFINITION. Mask instructions and reductions (06_varith R147-R152); VCMP stands with the arithmetic. -/

namespace Sys2Proof.Machine

/-! ### Mask logic (R148) -/

/-- A mask instruction: bit e of mD for each active e, the predicate and the sources read before it is written. -/
def maskM (h : VHdr) (d : BitVec 3) (srcs : List (BitVec 3)) (op : Hart → Entry → Nat → Bool) : VM := fun x _ =>
  { c := h.c, slots := [.k], pm := h.pm, maskR := srcs.map BitVec.toNat ++ pmReads h.pm, maskW := [d.toNat], len := x.vl
    run := elems fun e s =>
      if s.hart.active h.pm e then .ok (s.modHart fun k => k.setMaskBit d.toNat e (op k x e)) else .ok s }

/-- MAND (R148). -/
def mMand (h : VHdr) (d a b : BitVec 3) : VM :=
  maskM h d [a, b] fun k _ e => k.maskBit a.toNat e && k.maskBit b.toNat e
/-- MAND dispatched on its own. -/
def execMand (h : VHdr) (d a b : BitVec 3) (s : State) : Out := runSingle (mMand h d a b) 0 0 s

/-- MOR (R148). -/
def mMor (h : VHdr) (d a b : BitVec 3) : VM :=
  maskM h d [a, b] fun k _ e => k.maskBit a.toNat e || k.maskBit b.toNat e
/-- MOR dispatched on its own. -/
def execMor (h : VHdr) (d a b : BitVec 3) (s : State) : Out := runSingle (mMor h d a b) 0 0 s

/-- MXOR (R148). -/
def mMxor (h : VHdr) (d a b : BitVec 3) : VM :=
  maskM h d [a, b] fun k _ e => xor (k.maskBit a.toNat e) (k.maskBit b.toNat e)
/-- MXOR dispatched on its own. -/
def execMxor (h : VHdr) (d a b : BitVec 3) (s : State) : Out := runSingle (mMxor h d a b) 0 0 s

/-- MANDN (R148). -/
def mMandn (h : VHdr) (d a b : BitVec 3) : VM :=
  maskM h d [a, b] fun k _ e => k.maskBit a.toNat e && !k.maskBit b.toNat e
/-- MANDN dispatched on its own. -/
def execMandn (h : VHdr) (d a b : BitVec 3) (s : State) : Out := runSingle (mMandn h d a b) 0 0 s

/-- MNOT (R148). -/
def mMnot (h : VHdr) (d a : BitVec 3) : VM := maskM h d [a] fun k _ e => !k.maskBit a.toNat e
/-- MNOT dispatched on its own. -/
def execMnot (h : VHdr) (d a : BitVec 3) (s : State) : Out := runSingle (mMnot h d a) 0 0 s

/-- MSET.LT (R148). -/
def mMsetLt (h : VHdr) (d : BitVec 3) : VM := maskM h d [] fun _ x e => decide (e < x.sval.toNat)
/-- MSET.LT dispatched on its own. -/
def execMsetLt (h : VHdr) (d : BitVec 3) (sr : BitVec 5) (s : State) : Out := runSingle (mMsetLt h d) sr 0 s

/-- MSET.GE (R148). -/
def mMsetGe (h : VHdr) (d : BitVec 3) : VM := maskM h d [] fun _ x e => decide (x.sval.toNat ≤ e)
/-- MSET.GE dispatched on its own. -/
def execMsetGe (h : VHdr) (d : BitVec 3) (sr : BitVec 5) (s : State) : Out := runSingle (mMsetGe h d) sr 0 s

/-! ### MPOP and MFIRST (R149) -/

/-- The active elements below VL whose bit of a mask is 1. -/
def setElems (pm : Option (BitVec 3)) (a : BitVec 3) (x : Entry) (k : Hart) : List Nat :=
  (List.range x.vl).filter fun e => k.active pm e && k.maskBit a.toNat e

/-- A mask read into a scalar, done whole. -/
def maskToScalar (h : VHdr) (d : BitVec 5) (a : BitVec 3) (f : List Nat → Word) : VM := fun x _ =>
  { c := h.c, slots := [.k], alone := true, pm := h.pm, maskR := a.toNat :: pmReads h.pm, sdest := some d, whole := true
    es0 := true, len := x.vl, run := fun s _ _ => .ok (s.wr d (f (setElems h.pm a x s.hart))) }

/-- MPOP (R149). -/
def mMpop (h : VHdr) (d : BitVec 5) (a : BitVec 3) : VM := maskToScalar h d a fun es => BitVec.ofNat 64 es.length
/-- MPOP dispatched on its own. -/
def execMpop (h : VHdr) (d : BitVec 5) (a : BitVec 3) (s : State) : Out := runSingle (mMpop h d a) 0 0 s

/-- MFIRST (R149). -/
def mMfirst (h : VHdr) (d : BitVec 5) (a : BitVec 3) : VM :=
  maskToScalar h d a fun es => match es with
    | e :: _ => BitVec.ofNat 64 e
    | [] => -1
/-- MFIRST dispatched on its own. -/
def execMfirst (h : VHdr) (d : BitVec 5) (a : BitVec 3) (s : State) : Out := runSingle (mMfirst h d a) 0 0 s

/-! ### Reductions (R150-R152) -/

/-- A floating format. -/
def isFloat (f : Nat) : Bool := f ≤ 8

/-- The infinity a comparison starts from, as a pattern of FD: the largest finite or extreme integer where FD has
no infinities (R150). -/
def extreme (fd : Nat) (neg : Bool) : Nat := round fd 0 true 0 (.inf neg) |> fun p =>
  match floatFmt fd with
  | some f => if f.infs then round fd 0 false 0 (.inf neg) else p
  | none => p

/-- A scalar result: the pattern of FD, sign-extended for the signed integers (R152). -/
def redScalar (fd p : Nat) : Word :=
  match intFmt fd with
  | some (w, true) => BitVec.ofInt 64 (sintOf w p)
  | _ => BitVec.ofNat 64 p

/-- A sum of two values rounded to FD and read again (R151). -/
def addRound (q : Descr) (u v : Val) : Val := value q.fd (round q.fd q.rm q.sat 0 (u.add (q.rm == 2) v))

/-- .SUMO with a floating FD: in element order (R151). -/
def sumOrder (q : Descr) (acc : Option Val) (vs : List Val) : Option Val :=
  vs.foldl (fun a v => match a with
    | none => some v
    | some u => some (addRound q u v)) acc

/-- pair(p, q) of the fixed tree (R151). -/
def sumPair (q : Descr) : Option Val → Option Val → Option Val
  | some u, some v => some (addRound q u v)
  | some u, none => some u
  | none, o => o

/-- One level of the fixed tree (R151). -/
def sumLevel (q : Descr) : List (Option Val) → List (Option Val)
  | u :: v :: r => sumPair q u v :: sumLevel q r
  | l => l

/-- The fixed tree, with fuel for its levels (R151). -/
def sumTree (q : Descr) : Nat → List (Option Val) → Option Val
  | 0, l => l.headD none
  | n + 1, l => match l with
    | [] => none
    | [u] => u
    | l => sumTree q n (sumLevel q l)

/-- The sum of a list in one rounding; none for no term. An FD that is not floating rounds the exact sum once
(R150, log 18 for TERN and BIN1). -/
def sumExact (q : Descr) : List Val → Option Val
  | [] => none
  | vs => some (sumV (q.rm == 2) vs)

/-- What a reduction of the value class makes of the initial value and the elements, none at the inactive ones. -/
abbrev RedOp := Descr → Option Val → List (Option Val) → Option Val

/-- .SUMO (R150, R151). -/
def redSumo : RedOp := fun q i vs =>
  let act := vs.filterMap id
  if isFloat q.fd then sumOrder q i act else sumExact q (i.toList ++ act)
/-- .SUMP (R150, R151). -/
def redSump : RedOp := fun q i vs =>
  if isFloat q.fd then
    match i, sumTree q vs.length vs with
    | some u, some v => some (addRound q u v)
    | some u, none => some u
    | none, o => o
  else sumExact q (i.toList ++ vs.filterMap id)
/-- .MAX or .MIN (R140, R150). -/
def redExt (f : Val → Val → Val) : RedOp := fun _ i vs =>
  match i.toList ++ vs.filterMap id with
  | [] => none
  | u :: r => some (r.foldl f u)

/-- A reduction: the checks of R131 and R152, a mark of an active element, and the scalar written.
DEDUCED, log 31. -/
def redM (h : VHdr) (d a : BitVec 5) (ini : Option (BitVec 5)) (bad : Descr → Bool)
    (res : Descr → Option Nat → List (Option Nat) → Nat) : VM := fun x _ =>
  let q := x.fmt
  let o : Opnd := .vec a.toNat q.fa
  { c := h.c, slots := [.p], alone := true, srcs := [x.grp a q.fa], maskR := pmReads h.pm, sdest := some d
    whole := true, es0 := true, len := x.vl
    bad05 := descrReserved x.fval || q.scl != 0 || q.rm == 5 || bad q
    run := fun s _ _ =>
      let k := s.hart
      let act := (List.range x.vl).filter fun e => k.active h.pm e
      match act.find? fun e => k.elemMarked x.cfg a.toNat (contWidth q.fa) e with
      | some e => .fault e 0x19 (Config.freeWord s.tick) s
      | none =>
        let ps := (List.range x.vl).map fun e => if k.active h.pm e then o.pat k x.cfg e else none
        let i := ini.map fun _ => x.sval.toNat % 2 ^ contWidth q.fb
        .ok (s.wr d (redScalar q.fd (res q i ps))) }

/-- A reduction of the value class (R150-R152). DEDUCED, log 31. -/
def redVal (h : VHdr) (d a : BitVec 5) (ini : Option (BitVec 5)) (ident : Nat → Nat) (op : RedOp) : VM :=
  redM h d a ini (fun q => !isValue q.fa || !isValue q.fd || (ini.isSome && !isValue q.fb))
    fun q i ps =>
      match op q (i.map (value q.fb)) (ps.map fun p => p.map (value q.fa)) with
      | none => ident q.fd
      | some v => round q.fd q.rm q.sat 0 v

/-- A reduction of the raw class (R143, R150); its identity is written as it stands. -/
def redRaw (h : VHdr) (d a : BitVec 5) (ini : Option (BitVec 5)) (ident : Nat → Nat) (op : Nat → Nat → Nat) : VM :=
  redM h d a ini
    (fun q => contWidth q.fa != contWidth q.fd || (ini.isSome && contWidth q.fb != contWidth q.fd))
    fun q i ps =>
      let all := (i.toList ++ ps.filterMap id).map (· % 2 ^ memWidth q.fd)
      match all with
      | [] => ident q.fd
      | u :: r => rawFix q.fd (r.foldl op u)

/-- VRED.SUMO (R150-R152). In BIN1, which has no zero, the identity +0 is pattern 0. DESIGN CHOICE, log 102. -/
def mVredSumo (h : VHdr) (d a : BitVec 5) (ini : Option (BitVec 5)) : VM := redVal h d a ini (fun fd => round fd 0 false 0 (.zero false)) redSumo
/-- VRED.SUMO dispatched on its own. -/
def execVredSumo (h : VHdr) (d a : BitVec 5) (ini : Option (BitVec 5)) (f : BitVec 5) (s : State) : Out :=
  runSingle (mVredSumo h d a ini) (ini.getD 0) f s

/-- VRED.SUMP (R150-R152), its identity as for SUMO. DESIGN CHOICE, log 102. -/
def mVredSump (h : VHdr) (d a : BitVec 5) (ini : Option (BitVec 5)) : VM := redVal h d a ini (fun fd => round fd 0 false 0 (.zero false)) redSump
/-- VRED.SUMP dispatched on its own. -/
def execVredSump (h : VHdr) (d a : BitVec 5) (ini : Option (BitVec 5)) (f : BitVec 5) (s : State) : Out :=
  runSingle (mVredSump h d a ini) (ini.getD 0) f s

/-- VRED.MAX (R150-R152). -/
def mVredMax (h : VHdr) (d a : BitVec 5) (ini : Option (BitVec 5)) : VM := redVal h d a ini (fun fd => extreme fd true) (redExt maxV)
/-- VRED.MAX dispatched on its own. -/
def execVredMax (h : VHdr) (d a : BitVec 5) (ini : Option (BitVec 5)) (f : BitVec 5) (s : State) : Out :=
  runSingle (mVredMax h d a ini) (ini.getD 0) f s

/-- VRED.MIN (R150-R152). -/
def mVredMin (h : VHdr) (d a : BitVec 5) (ini : Option (BitVec 5)) : VM := redVal h d a ini (fun fd => extreme fd false) (redExt minV)
/-- VRED.MIN dispatched on its own. -/
def execVredMin (h : VHdr) (d a : BitVec 5) (ini : Option (BitVec 5)) (f : BitVec 5) (s : State) : Out :=
  runSingle (mVredMin h d a ini) (ini.getD 0) f s

/-- VRED.AND (R150-R152). -/
def mVredAnd (h : VHdr) (d a : BitVec 5) (ini : Option (BitVec 5)) : VM := redRaw h d a ini (fun fd => 2 ^ memWidth fd - 1) (· &&& ·)
/-- VRED.AND dispatched on its own. -/
def execVredAnd (h : VHdr) (d a : BitVec 5) (ini : Option (BitVec 5)) (f : BitVec 5) (s : State) : Out :=
  runSingle (mVredAnd h d a ini) (ini.getD 0) f s

/-- VRED.OR (R150-R152). -/
def mVredOr (h : VHdr) (d a : BitVec 5) (ini : Option (BitVec 5)) : VM := redRaw h d a ini (fun _ => 0) (· ||| ·)
/-- VRED.OR dispatched on its own. -/
def execVredOr (h : VHdr) (d a : BitVec 5) (ini : Option (BitVec 5)) (f : BitVec 5) (s : State) : Out :=
  runSingle (mVredOr h d a ini) (ini.getD 0) f s

/-- VRED.XOR (R150-R152). -/
def mVredXor (h : VHdr) (d a : BitVec 5) (ini : Option (BitVec 5)) : VM := redRaw h d a ini (fun _ => 0) (· ^^^ ·)
/-- VRED.XOR dispatched on its own. -/
def execVredXor (h : VHdr) (d a : BitVec 5) (ini : Option (BitVec 5)) (f : BitVec 5) (s : State) : Out :=
  runSingle (mVredXor h d a ini) (ini.getD 0) f s

end Sys2Proof.Machine
end

