-- ==== Sys2Proof/Machine/Plural.lean ====
section
/-! DEFINITION. Plural instructions (08_memory R191-R199). -/

namespace Sys2Proof.Machine

/-- The element formats of the plural instructions (R194). -/
def isPlural (f : Nat) : Bool := f == 0 || f == 2 || f == 3 || f == 9 || f == 0x0A || (0x10 ≤ f && f ≤ 0x13)

/-- What a plural instruction acts on (R192, R194): its address, the banks of its set, the first row, the rows, the
byte, the width in bits, and the first operand row of the .B form. -/
structure Plur where
  addr  : Word
  banks : List Nat
  first : Nat
  n     : Nat
  byte  : Nat
  w     : Nat
  wide  : Bool
  orow  : Option Nat
  q     : Descr
  deriving DecidableEq, Repr

/-- The banks of a bank set register cut by a mask scalar; no register stands for none (R192). -/
def bankSet (x : Entry) (va : Word) (m : Option Word) : List Nat :=
  let bs := x.cfg.bs[(va.extractLsb' 16 3).toNat]?.getD 0
  let set := match m with
    | some v => bs &&& v.extractLsb' 0 32
    | none => bs
  (List.range 32).filter fun j => set.getLsbD j

/-- The operands of a plural instruction, its scalars read at dispatch (R192-R194). -/
def plurOf (x : Entry) (s : State) (a y : BitVec 5) (run : Option (BitVec 5)) (wide : Bool) (orow : Option Word) : Plur :=
  let va := s.rd a
  { addr := va, banks := bankSet x va (if y = 0 then none else some (s.rd y))
    first := (va.extractLsb' 3 13).toNat, n := if run.isSome then x.sval.toNat else 1
    byte := (va.extractLsb' 0 3).toNat, w := if wide then 64 else memWidth x.fmt.fa, wide := wide
    orow := orow.map fun v => (v.extractLsb' 0 13).toNat, q := x.fmt }

/-- Every row from `r` on lies in the grant (R198). -/
def rowsGranted (k : Hart) (r n : Nat) : Bool :=
  n == 0 || (k.inGrant r && k.inGrant (r + n - 1) && decide (r + n - 1 ≤ 8191))

/-- The first-stage checks, in order (R198); the bits of a .B form's s[B] above the row (R195) are checked with the window.
DESIGN CHOICE, log 85. -/
def Plur.check (p : Plur) (k : Hart) (b : Option Word) : Option (BitVec 8) :=
  let window := match spaceOf p.addr with
    | some (.plural ..) => true
    | _ => false
  if !window || b.any (fun (v : Word) => v >>> 13 != 0) then some 0x12
  else if p.byte % (p.w / 8) ≠ 0 then some 0x08
  else if p.n > 256 then some 0x05
  else if !rowsGranted k p.first p.n || p.orow.any (fun r => !rowsGranted k r p.n) then some 0x13
  else none

/-- The lane-memory word of a bank and row. -/
def bankWord (row bank : Nat) : Nat := row * 32 + bank
/-- The element of a word. -/
def Plur.elem (p : Plur) (v : Word) : Nat := (v.toNat >>> (8 * p.byte)) % 2 ^ p.w
/-- A word with its element replaced. -/
def Plur.put (p : Plur) (v : Word) (e : Nat) : Word :=
  let sh := 8 * p.byte
  BitVec.ofNat 64 (v.toNat - ((v.toNat >>> sh) % 2 ^ p.w) <<< sh + (e % 2 ^ p.w) <<< sh)

/-- What the banks found: the core, the failing rows with their banks, whether some failure was a fresh error, and
the elements read. -/
structure PlurAcc where
  core  : Core
  fails : List (Nat × Nat)
  fresh : Bool
  vals  : List Nat
  deriving DecidableEq, Repr

/-- The words an operation reads in a bank at a row: the element's, and the operand row's (R198). -/
def Plur.reads (p : Plur) (i j : Nat) : List Nat :=
  bankWord (p.first + i) j :: match p.orow with
    | some r => [bankWord (r + i) j]
    | none => []

/-- A bank that reads its words: it fails on a mark or a fresh error, which is then marked (R198); otherwise `f`
gives the new element, if any. A bank that fails on a mark at one row and on a fresh error at another, or on one of each at
a row and its operand row, has met a fresh error. DESIGN CHOICE, log 112. -/
def Plur.bankRead (p : Plur) (f : Nat → Nat → Option Nat) (opnd : Nat) (c : PlurAcc) (ij : Nat × Nat) : PlurAcc :=
  let rs := p.reads ij.1 ij.2
  let bad := rs.filter fun a => smem c.core.lmMarks a || smem c.core.lmLatent a
  if !bad.isEmpty then
    { c with
      core := bad.foldl Core.markLm c.core
      fails := c.fails ++ [(p.first + ij.1, ij.2)]
      fresh := c.fresh || rs.any fun a => !smem c.core.lmMarks a && smem c.core.lmLatent a }
  else
    let i := bankWord (p.first + ij.1) ij.2
    let v := c.core.lmWord i
    let o := match p.orow with
      | some r => p.elem (c.core.lmWord (bankWord (r + ij.1) ij.2))
      | none => opnd
    { c with
      core := match f (p.elem v) o with
        | some e => c.core.setLm i (p.put v e)
        | none => c.core
      vals := c.vals ++ [p.elem v] }

/-- A bank of PST (R198): .W writes whole words; else only a fresh error fails. -/
def Plur.bankStore (p : Plur) (v : Nat) (c : PlurAcc) (ij : Nat × Nat) : PlurAcc :=
  let i := bankWord (p.first + ij.1) ij.2
  if p.wide then { c with core := (c.core.cleanLm i).setLm i (BitVec.ofNat 64 v) }
  else if !smem c.core.lmMarks i && smem c.core.lmLatent i then
    { c with core := c.core.markLm i, fails := c.fails ++ [(p.first + ij.1, ij.2)], fresh := true }
  else { c with core := c.core.setLm i (p.put (c.core.lmWord i) v) }

/-- The rows of a run from `lo` up to `hi` in order, each over the banks of the set. -/
def Plur.places (p : Plur) (lo hi : Nat) : List (Nat × Nat) :=
  (List.range' lo (hi - lo)).flatMap fun i => p.banks.map fun j => (i, j)

/-- PFAULT after a failure (R198): ROW is the lowest failing row of the run, as the row acted on also where the word of
the operand row failed. DESIGN CHOICE, log 76. -/
def plurFault (k : Hart) (fails : List (Nat × Nat)) : Hart :=
  let row := fails.foldl (fun m f => min m f.1) 8191
  let banks := fails.foldl (fun b f => b ||| ((1 : BitVec 32) <<< f.2)) 0
  k.modVec fun v => { v with pfV := true, pfRow := BitVec.ofNat 13 row, pfBanks := banks }

/-- The rows at which banks act, each of which takes a grant of the banks (R197-R199, 05_harts R127); a run that has begun
has passed its checks, which are made once, before any bank acts (R198). -/
def Plur.rows (p : Plur) (k : Hart) (b : Option Word) : Nat :=
  if (k.q.begun.isNone && (p.check k b).isSome) || p.banks.isEmpty then 0 else p.n

/-- A plural instruction (R193, R194, R199): its word must have C = 0; never interrupted. Each row takes a grant of the
banks (05_harts R127). -/
def plurM (c : Bool) (bad : Bool) (wide : Bool) (sd : Option (BitVec 5)) (x : Entry) (rows : Nat)
    (run : State → Nat → Nat → VRes) : VMeaning :=
  { c := c, bad02 := c, alone := true, sdest := sd, memory := true, stores := true
    uses := if rows = 0 then [] else [.banks], span := fun lo => if lo + 1 < rows then some (lo + 1) else none
    whole := true, es0 := true, len := rows
    bad05 := descrReserved x.fval || x.fmt.rm == 5 || x.fmt.scl != 0 || (!wide && !isPlural x.fmt.fa) || bad
    run := run }

/-- A plural instruction over the rows from `lo` up to `hi`, after its checks, which come before the first of them: the
banks act, and past the last row it ends by what they found (R198); before it, what they found is kept. -/
def plurRun (p : Plur) (b : Option Word) (act : PlurAcc → Nat × Nat → PlurAcc) (fin : PlurAcc → State → VRes) (s : State)
    (lo hi : Nat) : VRes :=
  match (if (s.hart.goesOnFrom lo).isNone then p.check s.hart b else none) with
  | some code => .stop code p.addr s
  | none =>
    let r := match s.hart.goesOnFrom lo with
      | some g => (p.places lo hi).foldl act { core := s.core, fails := g.fails, fresh := g.fresh, vals := g.vals }
      | none => (p.places 0 hi).foldl act { core := s.core, fails := [], fresh := false, vals := [] }
    let s := s.setCoreAt s.cc r.core
    if hi < p.rows s.hart b then .ok (s.keepBegun { active := 0, fails := r.fails, fresh := r.fresh, vals := r.vals })
    else fin r s

/-- PST and POP: a failure is a trap after completion (R195, R198). -/
def plurWrite (p : Plur) (b : Option Word) (act : PlurAcc → Nat × Nat → PlurAcc) : State → Nat → Nat → VRes :=
  plurRun p b act fun r s =>
    if r.fails.isEmpty then .ok s else .after 0x18 p.addr (s.modHart fun k => plurFault k r.fails)

/-! ### PST and POP (R195) -/

/-- PST (R195). -/
def mPst (c : Bool) (a b y : BitVec 5) (rn : Option (BitVec 5)) (w : Bool) : VM := fun x s =>
  let p := plurOf x s a y rn w none
  plurM c false w none x (p.rows s.hart none) (plurWrite p none (p.bankStore ((s.rd b).toNat % 2 ^ p.w)))
/-- PST dispatched on its own. -/
def execPst (c : Bool) (a b y f : BitVec 5) (rn : Option (BitVec 5)) (w : Bool) (s : State) : Out :=
  runSingle (mPst c a b y rn w) (rn.getD 0) f s

/-- A 64-bit result: wrapped, or clamped under SAT (R194). -/
def wideResult (q : Descr) (i : Int) : Nat :=
  let i := if q.sat then max (-2 ^ 63) (min (2 ^ 63 - 1) i) else i
  (i % 2 ^ 64).toNat

/-- An arithmetic operator of POP on two elements (R194, R195). -/
def popArith (q : Descr) (wide : Bool) (f : Val → Val → Val) (g : Int → Int → Int) (u v : Nat) : Nat :=
  if wide then wideResult q (g (sintOf 64 u) (sintOf 64 v))
  else round q.fa q.rm q.sat 0 (f (value q.fa u) (value q.fa v))

/-- POP with an operator on elements (R195). -/
def popM (c : Bool) (a b y : BitVec 5) (rn : Option (BitVec 5)) (row w : Bool) (op : Descr → Bool → Nat → Nat → Nat) :
    VM := fun x s =>
  let v := s.rd b
  let p := plurOf x s a y rn w (if row then some v else none)
  plurM c false w none x (p.rows s.hart (if row then some v else none))
    (plurWrite p (if row then some v else none)
      (p.bankRead (fun u o => some (op p.q w u o)) (v.toNat % 2 ^ p.w)))

/-- POP.ADD (R195). -/
def mPopAdd (c : Bool) (a b y : BitVec 5) (rn : Option (BitVec 5)) (row w : Bool) : VM :=
  popM c a b y rn row w (fun q w => popArith q w (fun u v => u.add (q.rm == 2) v) (· + ·))
/-- POP.ADD dispatched on its own. -/
def execPopAdd (c : Bool) (a b y f : BitVec 5) (rn : Option (BitVec 5)) (row w : Bool) (s : State) : Out :=
  runSingle (mPopAdd c a b y rn row w) (rn.getD 0) f s

/-- POP.SUB (R195). -/
def mPopSub (c : Bool) (a b y : BitVec 5) (rn : Option (BitVec 5)) (row w : Bool) : VM :=
  popM c a b y rn row w (fun q w => popArith q w (fun u v => u.add (q.rm == 2) v.negate) (· - ·))
/-- POP.SUB dispatched on its own. -/
def execPopSub (c : Bool) (a b y f : BitVec 5) (rn : Option (BitVec 5)) (row w : Bool) (s : State) : Out :=
  runSingle (mPopSub c a b y rn row w) (rn.getD 0) f s

/-- POP.MIN (R195). -/
def mPopMin (c : Bool) (a b y : BitVec 5) (rn : Option (BitVec 5)) (row w : Bool) : VM :=
  popM c a b y rn row w (fun q w => popArith q w minV min)
/-- POP.MIN dispatched on its own. -/
def execPopMin (c : Bool) (a b y f : BitVec 5) (rn : Option (BitVec 5)) (row w : Bool) (s : State) : Out :=
  runSingle (mPopMin c a b y rn row w) (rn.getD 0) f s

/-- POP.MAX (R195). -/
def mPopMax (c : Bool) (a b y : BitVec 5) (rn : Option (BitVec 5)) (row w : Bool) : VM :=
  popM c a b y rn row w (fun q w => popArith q w maxV max)
/-- POP.MAX dispatched on its own. -/
def execPopMax (c : Bool) (a b y f : BitVec 5) (rn : Option (BitVec 5)) (row w : Bool) (s : State) : Out :=
  runSingle (mPopMax c a b y rn row w) (rn.getD 0) f s

/-- POP.AND (R195). -/
def mPopAnd (c : Bool) (a b y : BitVec 5) (rn : Option (BitVec 5)) (row w : Bool) : VM :=
  popM c a b y rn row w (fun _ _ u v => u &&& v)
/-- POP.AND dispatched on its own. -/
def execPopAnd (c : Bool) (a b y f : BitVec 5) (rn : Option (BitVec 5)) (row w : Bool) (s : State) : Out :=
  runSingle (mPopAnd c a b y rn row w) (rn.getD 0) f s

/-- POP.OR (R195). -/
def mPopOr (c : Bool) (a b y : BitVec 5) (rn : Option (BitVec 5)) (row w : Bool) : VM :=
  popM c a b y rn row w (fun _ _ u v => u ||| v)
/-- POP.OR dispatched on its own. -/
def execPopOr (c : Bool) (a b y f : BitVec 5) (rn : Option (BitVec 5)) (row w : Bool) (s : State) : Out :=
  runSingle (mPopOr c a b y rn row w) (rn.getD 0) f s

/-- POP.XOR (R195). -/
def mPopXor (c : Bool) (a b y : BitVec 5) (rn : Option (BitVec 5)) (row w : Bool) : VM :=
  popM c a b y rn row w (fun _ _ u v => u ^^^ v)
/-- POP.XOR dispatched on its own. -/
def execPopXor (c : Bool) (a b y f : BitVec 5) (rn : Option (BitVec 5)) (row w : Bool) (s : State) : Out :=
  runSingle (mPopXor c a b y rn row w) (rn.getD 0) f s

/-- POP.MOV (R195). -/
def mPopMov (c : Bool) (a b y : BitVec 5) (rn : Option (BitVec 5)) (row w : Bool) : VM :=
  popM c a b y rn row w (fun _ _ _ v => v)
/-- POP.MOV dispatched on its own. -/
def execPopMov (c : Bool) (a b y f : BitVec 5) (rn : Option (BitVec 5)) (row w : Bool) (s : State) : Out :=
  runSingle (mPopMov c a b y rn row w) (rn.getD 0) f s

/-! ### PLD (R196, R197) -/

/-- A scalar extended as PLD writes it (R196). -/
def pldScalar (wide : Bool) (f p : Nat) : Word := if wide then BitVec.ofNat 64 p else redScalar f p

/-- PLD with a combiner on the elements read; with none it gives the identity, and PE is set (R196-R198). -/
def pldM (c : Bool) (d a y : BitVec 5) (rn : Option (BitVec 5)) (w : Bool) (usesFd : Bool)
    (comb : Descr → Bool → Nat → List Nat → Word) : VM := fun x s =>
  let p := plurOf x s a y rn w none
  plurM c (usesFd && !w && !isPlural x.fmt.fd) w (some d) x (p.rows s.hart none)
    (plurRun p none (p.bankRead (fun _ _ => none) 0) fun r s =>
      if !r.fails.isEmpty then
        .stop (if r.fresh then 0x1A else 0x19) p.addr (s.modHart fun k => plurFault k r.fails)
      else
        let s := s.wr d (comb p.q w p.w r.vals)
        .ok (if p.rows s.hart none = 0 then s.modHart fun k => k.modVec fun v => { v with pe := true } else s))

/-- .SUM, .MAX or .MIN (R196, R197): an integer operation for .W, else a value operation with an identity. -/
def pldValue (q : Descr) (wide : Bool) (ident : Nat) (identW : Int) (f : List Val → Val) (g : List Int → Int)
    (ps : List Nat) : Word :=
  match ps with
  | [] => if wide then BitVec.ofInt 64 identW else redScalar q.fd ident
  | ps =>
    if wide then BitVec.ofNat 64 (wideResult q (g (ps.map (sintOf 64))))
    else redScalar q.fd (round q.fd q.rm q.sat 0 (f (ps.map (value q.fa))))

/-- The fold of a non-empty list. -/
def fold1 {α : Type} (f : α → α → α) (d : α) : List α → α
  | [] => d
  | u :: r => r.foldl f u

/-- PLD.SUM (R196). -/
def mPldSum (c : Bool) (d a y : BitVec 5) (rn : Option (BitVec 5)) (w : Bool) : VM :=
  pldM c d a y rn w true (fun q w _ ps => pldValue q w (round q.fd 0 false 0 (.zero false)) 0 (sumV (q.rm == 2)) List.sum ps)
/-- PLD.SUM dispatched on its own. -/
def execPldSum (c : Bool) (d a y f : BitVec 5) (rn : Option (BitVec 5)) (w : Bool) (s : State) : Out :=
  runSingle (mPldSum c d a y rn w) (rn.getD 0) f s

/-- PLD.MAX (R196). -/
def mPldMax (c : Bool) (d a y : BitVec 5) (rn : Option (BitVec 5)) (w : Bool) : VM :=
  pldM c d a y rn w true (fun q w _ ps => pldValue q w (extreme q.fd true) (-2 ^ 63) (fold1 maxV .nan) (fold1 max 0) ps)
/-- PLD.MAX dispatched on its own. -/
def execPldMax (c : Bool) (d a y f : BitVec 5) (rn : Option (BitVec 5)) (w : Bool) (s : State) : Out :=
  runSingle (mPldMax c d a y rn w) (rn.getD 0) f s

/-- PLD.MIN (R196). -/
def mPldMin (c : Bool) (d a y : BitVec 5) (rn : Option (BitVec 5)) (w : Bool) : VM :=
  pldM c d a y rn w true (fun q w _ ps => pldValue q w (extreme q.fd false) (2 ^ 63 - 1) (fold1 minV .nan) (fold1 min 0) ps)
/-- PLD.MIN dispatched on its own. -/
def execPldMin (c : Bool) (d a y f : BitVec 5) (rn : Option (BitVec 5)) (w : Bool) (s : State) : Out :=
  runSingle (mPldMin c d a y rn w) (rn.getD 0) f s

/-- PLD.AND (R196). -/
def mPldAnd (c : Bool) (d a y : BitVec 5) (rn : Option (BitVec 5)) (w : Bool) : VM :=
  pldM c d a y rn w false (fun q w b ps => pldScalar w q.fa (ps.foldl (· &&& ·) (2 ^ b - 1)))
/-- PLD.AND dispatched on its own. -/
def execPldAnd (c : Bool) (d a y f : BitVec 5) (rn : Option (BitVec 5)) (w : Bool) (s : State) : Out :=
  runSingle (mPldAnd c d a y rn w) (rn.getD 0) f s

/-- PLD.OR (R196). -/
def mPldOr (c : Bool) (d a y : BitVec 5) (rn : Option (BitVec 5)) (w : Bool) : VM :=
  pldM c d a y rn w false (fun q w _ ps => pldScalar w q.fa (ps.foldl (· ||| ·) 0))
/-- PLD.OR dispatched on its own. -/
def execPldOr (c : Bool) (d a y f : BitVec 5) (rn : Option (BitVec 5)) (w : Bool) (s : State) : Out :=
  runSingle (mPldOr c d a y rn w) (rn.getD 0) f s

/-- PLD.XOR (R196). -/
def mPldXor (c : Bool) (d a y : BitVec 5) (rn : Option (BitVec 5)) (w : Bool) : VM :=
  pldM c d a y rn w false (fun q w _ ps => pldScalar w q.fa (ps.foldl (· ^^^ ·) 0))
/-- PLD.XOR dispatched on its own. -/
def execPldXor (c : Bool) (d a y f : BitVec 5) (rn : Option (BitVec 5)) (w : Bool) (s : State) : Out :=
  runSingle (mPldXor c d a y rn w) (rn.getD 0) f s

/-- PLD.CNT (R196). -/
def mPldCnt (c : Bool) (d a y : BitVec 5) (rn : Option (BitVec 5)) (w : Bool) : VM :=
  pldM c d a y rn w false (fun q w _ ps => BitVec.ofNat 64
    (ps.filter fun p => if w then p != 0 else !(value q.fa p).isZero).length)
/-- PLD.CNT dispatched on its own. -/
def execPldCnt (c : Bool) (d a y f : BitVec 5) (rn : Option (BitVec 5)) (w : Bool) (s : State) : Out :=
  runSingle (mPldCnt c d a y rn w) (rn.getD 0) f s

end Sys2Proof.Machine
end

