-- ==== Sys2Proof/Machine/VMove.lean ====
section
/-! DEFINITION. Rearrangement instructions (07_rearrange R153-R164). -/

namespace Sys2Proof.Machine

/-- The checks of R154 that every rearrangement instruction makes. -/
def moveBad05 (f : Word) : Bool :=
  descrReserved f || (descr f).scl != 0 || contWidth (descr f).fd != contWidth (descr f).fa

/-- A rearrangement instruction (R153-R156) over groups of VL elements: `step` does one element of its order, or
meets a mark. One whose descriptor has RM = SR counts as the one consumer of its convoy (03_formats R79), though it ignores RM
and takes no step (R154, R158). DESIGN CHOICE, log 119. -/
def moveM (c : Bool) (pm : Option (BitVec 3)) (ring : Bool) (d a : BitVec 5) (step : Entry → Nat → State → Option State) :
    VM := fun x s =>
  let ds := [x.grp d x.fmt.fa]
  let ss := [x.grp a x.fmt.fa]
  { c := c, slots := [.x], moves := true, ring := ring, srcs := ss, dsts := ds, maskR := pmReads pm
    bad05 := moveBad05 x.fval, bad04 := overlapAny s.hart x.cfg ds ss, steps := x.fmt.rm == 5, len := x.vl
    run := elems fun e s =>
      match step x e s with
      | some t => .ok t
      | none => .error (markMet s) }

/-- An element of the source as it stands, under R157; none where its chunk carries a mark. An index past one register and
below VL gives the element of a group of several registers. DEDUCED, log 103. -/
def moveRead (x : Entry) (k : Hart) (a : BitVec 5) (i : Int) : Option Nat :=
  let w := contWidth x.fmt.fa
  if i < 0 ∨ (i ≥ x.vl ∧ i ≥ perReg k x.cfg w) then some 0
  else if k.elemMarked x.cfg a.toNat w i.toNat then none
  else some (k.elem x.cfg a.toNat w i.toNat)

/-- An element of the destination written with a pattern. -/
def moveWrite (x : Entry) (s : State) (d : BitVec 5) (e p : Nat) : State :=
  s.modHart fun k => k.setElem x.cfg d.toNat (contWidth x.fmt.fa) e p

/-- One element copied from a source index. -/
def moveElem (x : Entry) (d a : BitVec 5) (e : Nat) (i : Int) (s : State) : Option State :=
  (moveRead x s.hart a i).map fun p => moveWrite x s d e p

/-! ### Slides (R160) -/

/-- VUP (R160). -/
def mVup (h : VHdr) (d a : BitVec 5) : VM :=
  moveM h.c h.pm false d a fun x e s =>
    if s.hart.active h.pm e && decide (x.sval.toNat ≤ e) then moveElem x d a e (e - x.sval.toNat) s else some s
/-- VUP dispatched on its own. -/
def execVup (h : VHdr) (d a sr f : BitVec 5) (s : State) : Out := runSingle (mVup h d a) sr f s

/-- VDN (R160). -/
def mVdn (h : VHdr) (d a : BitVec 5) : VM :=
  moveM h.c h.pm false d a fun x e s =>
    if s.hart.active h.pm e then moveElem x d a e (e + x.sval.toNat) s else some s
/-- VDN dispatched on its own. -/
def execVdn (h : VHdr) (d a sr f : BitVec 5) (s : State) : Out := runSingle (mVdn h d a) sr f s

/-! ### Gather (R161) -/

/-- VGATHR (R154, R161). -/
def mVgathr (h : VHdr) (d a b : BitVec 5) : VM := fun x s =>
  let m := moveM h.c h.pm true d a (fun x e s =>
    if s.hart.active h.pm e then
      match (Opnd.vec b.toNat x.fmt.fb).pat s.hart x.cfg e with
      | none => none
      | some p => moveElem x d a e (intValue x.fmt.fb p) s
    else some s) x s
  { m with
    srcs := m.srcs ++ [x.grp b x.fmt.fb], bad05 := m.bad05 || !isInt x.fmt.fb
    bad04 := overlapAny s.hart x.cfg m.dsts (m.srcs ++ [x.grp b x.fmt.fb]) }
/-- VGATHR dispatched on its own. -/
def execVgathr (h : VHdr) (d a b f : BitVec 5) (s : State) : Out := runSingle (mVgathr h d a b) 0 f s

/-! ### Compaction and expansion (R162) -/

/-- The selected elements below e. -/
def selectedBelow (k : Hart) (m : BitVec 3) (e : Nat) : Nat :=
  ((List.range e).filter fun i => k.maskBit m.toNat i).length

/-- The destination chunks of a VPACK that hold packed elements from `i` on below `n`, put back. -/
def unpackFrom (x : Entry) (d : BitVec 5) (old : Hart) (i n : Nat) (k : Hart) : Hart :=
  let w := contWidth x.fmt.fa
  ((List.range (n - i)).map (i + ·)).foldl (fun k e => k.setElem x.cfg d.toNat w e (old.elem x.cfg d.toNat w e)) k

/-- VPACK (R158, R162), in source element order. -/
def mVpack (c : Bool) (d a : BitVec 5) (m : BitVec 3) : VM := fun x s =>
  { moveM c none false d a (fun x e s =>
      if s.hart.maskBit m.toNat e then moveElem x d a (selectedBelow s.hart m e) e s else some s) x s with
    maskR := [m.toNat]
    pack := some { made := fun k v => selectedBelow k m v
                   undo := fun old v k => unpackFrom x d old (selectedBelow old m v) (selectedBelow old m x.vl) k } }
/-- VPACK dispatched on its own. -/
def execVpack (c : Bool) (d a : BitVec 5) (m : BitVec 3) (f : BitVec 5) (s : State) : Out :=
  runSingle (mVpack c d a m) 0 f s

/-- VUNPK (R162). -/
def mVunpk (c : Bool) (d a : BitVec 5) (m : BitVec 3) : VM := fun x s =>
  { moveM c none false d a (fun x e s =>
      if s.hart.maskBit m.toNat e then moveElem x d a e (selectedBelow s.hart m e) s else some s) x s with
    maskR := [m.toNat] }
/-- VUNPK dispatched on its own. -/
def execVunpk (c : Bool) (d a : BitVec 5) (m : BitVec 3) (f : BitVec 5) (s : State) : Out :=
  runSingle (mVunpk c d a m) 0 f s

/-! ### Reshape (R163) -/

/-- A shape: rows, columns, panel width. -/
structure Shape where
  rw : Nat
  cl : Nat
  p  : Nat
  deriving DecidableEq, Repr

/-- The shape in S; none where the value is illegal (R163). -/
def shapeOf (v : Word) : Option Shape :=
  let s : Shape := { rw := (v.extractLsb' 0 16).toNat, cl := (v.extractLsb' 16 16).toNat,
                     p := 8 <<< (v.extractLsb' 32 2).toNat }
  if v >>> 34 ≠ 0 ∨ s.rw = 0 ∨ s.cl = 0 then none else some s

/-- The panel index of element (i, j) of a matrix of Rw rows (R163). -/
def Shape.panel (s : Shape) (i j : Nat) : Nat := j / s.p * s.p * s.rw + i * s.p + j % s.p
/-- The plain form's source of a destination element. -/
def Shape.plainSrc (s : Shape) (t : Nat) : Nat :=
  let r := t % (s.p * s.rw)
  r / s.p * s.cl + (t / (s.p * s.rw) * s.p + r % s.p)
/-- The .T form's source of a destination element. -/
def Shape.transSrc (s : Shape) (t : Nat) : Nat :=
  let r := t % (s.p * s.cl)
  (t / (s.p * s.cl) * s.p + r % s.p) * s.cl + r / s.p
/-- The .INV form's source of a destination element. -/
def Shape.invSrc (s : Shape) (t : Nat) : Nat := s.panel (t / s.cl) (t % s.cl)

/-- A reshape: its source index by destination element, and what must be a multiple of the panel width. -/
def reshM (c : Bool) (d a : BitVec 5) (src : Shape → Nat → Nat) (dim : Shape → Nat) : VM := fun x s =>
  let m := moveM c none true d a (fun x e s =>
    match shapeOf x.sval with
    | some sh => moveElem x d a e (src sh e) s
    | none => some s) x s
  { m with
    bad05 := m.bad05 || (match shapeOf x.sval with
      | some sh => sh.rw * sh.cl != x.vl || dim sh % sh.p != 0
      | none => true) }

/-- VRESH (R163). -/
def mVresh (c : Bool) (d a : BitVec 5) : VM := reshM c d a Shape.plainSrc Shape.cl
/-- VRESH dispatched on its own. -/
def execVresh (c : Bool) (d a sr f : BitVec 5) (s : State) : Out := runSingle (mVresh c d a) sr f s
/-- VRESH.T (R163). -/
def mVreshT (c : Bool) (d a : BitVec 5) : VM := reshM c d a Shape.transSrc Shape.rw
/-- VRESH.T dispatched on its own. -/
def execVreshT (c : Bool) (d a sr f : BitVec 5) (s : State) : Out := runSingle (mVreshT c d a) sr f s
/-- VRESH.INV (R163). -/
def mVreshInv (c : Bool) (d a : BitVec 5) : VM := reshM c d a Shape.invSrc Shape.cl
/-- VRESH.INV dispatched on its own. -/
def execVreshInv (c : Bool) (d a sr f : BitVec 5) (s : State) : Out := runSingle (mVreshInv c d a) sr f s

/-! ### Transpose (R164) -/

/-- Eight whole registers as a group. -/
def eightRegs (k : Hart) (x : Entry) (r : BitVec 5) : Grp :=
  let w := contWidth x.fmt.fa
  { base := r.toNat, n := 8 * perReg k x.cfg w, w := w }

/-- A row of a column of the block transpose; none at a mark. -/
def gtrRow (x : Entry) (d a : BitVec 5) (col row : Nat) (s : State) : Option State :=
  let w := contWidth x.fmt.fa
  let src := 8 * (col / 8) + row
  let from_ := a.toNat + col % 8
  let put (p : Nat) : State := s.modHart fun k => k.setElem x.cfg (d.toNat + row) w col p
  if x.vl ≤ src then some (put 0)
  else if s.hart.elemMarked x.cfg from_ w src then none
  else some (put (s.hart.elem x.cfg from_ w src))

/-- VGTR (R164), in column order. -/
def mVgtr (c : Bool) (d a : BitVec 5) : VM := fun x s =>
  let ds := [eightRegs s.hart x d]
  let ss := [eightRegs s.hart x a]
  { moveM c none true d a (fun x col s => (List.range 8).foldlM (fun s row => gtrRow x d a col row s) s) x s with
    srcs := ss, dsts := ds
    bad05 := moveBad05 x.fval || decide (x.vl > perReg s.hart x.cfg (contWidth x.fmt.fa))
    bad04 := overlapAny s.hart x.cfg ds ss }
/-- VGTR dispatched on its own. -/
def execVgtr (c : Bool) (d a f : BitVec 5) (s : State) : Out := runSingle (mVgtr c d a) 0 f s

end Sys2Proof.Machine
end

