-- ==== Sys2Proof/Machine/Vmap.lean ====
section
/-! DEFINITION. The vector and comb words by their meaning and the scalar registers they name (02_stream R41-R46). -/

namespace Sys2Proof.Machine

/-- VSTOP (02_stream R41). -/
def mVstop : VM := fun _ _ => { alone := true, neutral := true }
/-- VSTOP dispatched on its own. -/
def execVstop (s : State) : Out := runSingle mVstop 0 0 s
/-- VNOP (02_stream R42): it does nothing with VL elements, so that it bounds no word after it (14_system R316). -/
def mVnop (c : Bool) : VM := fun x _ => { c := c, neutral := true, len := x.vl }
/-- VNOP dispatched on its own. -/
def execVnop (c : Bool) (s : State) : Out := runSingle (mVnop c) 0 0 s

/-- A word of the queues: its meaning, the registers its S and F fields name, those it reads at dispatch under a
capture hold (02_stream R45), the scalar it writes (R46), and whether it is a comb word. -/
structure VInfo where
  vm    : VM
  sreg  : BitVec 5 := 0
  freg  : BitVec 5 := 0
  held  : List (BitVec 5) := []
  sdest : Option (BitVec 5) := none
  comb  : Bool := false

/-- The stride register of a .K load. -/
def kRegs : KForm → List (BitVec 5)
  | .strided b => [b]
  | _ => []

/-- The information on a word of the queues; none for what is not one. -/
def vinfo : Instr → Option VInfo
  | .vstop => some { vm := mVstop }
  | .vnop c => some { vm := mVnop c }
  | .vadd h d a b f => some { vm := mVadd h d a b, sreg := (srcReg b), freg := f }
  | .vsub h d a b f => some { vm := mVsub h d a b, sreg := (srcReg b), freg := f }
  | .vmul h d a b f => some { vm := mVmul h d a b, sreg := (srcReg b), freg := f }
  | .vfma h d a b y f => some { vm := mVfma h d a b y, sreg := (srcReg b), freg := f }
  | .vfms h d a b y f => some { vm := mVfms h d a b y, sreg := (srcReg b), freg := f }
  | .vfnma h d a b y f => some { vm := mVfnma h d a b y, sreg := (srcReg b), freg := f }
  | .vdiv h d a b f => some { vm := mVdiv h d a b, sreg := (srcReg b), freg := f }
  | .vsqrt h d a f => some { vm := mVsqrt h d a, freg := f }
  | .vmin h d a b f => some { vm := mVmin h d a b, sreg := (srcReg b), freg := f }
  | .vmax h d a b f => some { vm := mVmax h d a b, sreg := (srcReg b), freg := f }
  | .vabs h d a f => some { vm := mVabs h d a, freg := f }
  | .vneg h d a f => some { vm := mVneg h d a, freg := f }
  | .vclamp h d a b f => some { vm := mVclamp h d a b, sreg := (clampReg b), freg := f }
  | .vand h d a b f => some { vm := mVand h d a b, sreg := (srcReg b), freg := f }
  | .vor h d a b f => some { vm := mVor h d a b, sreg := (srcReg b), freg := f }
  | .vxor h d a b f => some { vm := mVxor h d a b, sreg := (srcReg b), freg := f }
  | .vshl h d a b f => some { vm := mVshl h d a b, sreg := (srcReg b), freg := f }
  | .vshr h d a b f => some { vm := mVshr h d a b, sreg := (srcReg b), freg := f }
  | .vshrA h d a b f => some { vm := mVshrA h d a b, sreg := (srcReg b), freg := f }
  | .vcvt h d a f => some { vm := mVcvt h d a, freg := f }
  | .vrcp h d a f => some { vm := mVrcp h d a, freg := f }
  | .vrsqrt h d a f => some { vm := mVrsqrt h d a, freg := f }
  | .vexp2 h d a f => some { vm := mVexp2 h d a, freg := f }
  | .vlog2 h d a f => some { vm := mVlog2 h d a, freg := f }
  | .vsel h d a b m f => some { vm := mVsel h d a b m, sreg := (srcReg b), freg := f }
  | .vmov h d a f => some { vm := mVmov h d a, freg := f }
  | .vsplat h d sr f => some { vm := mVsplat h d, sreg := sr, freg := f }
  | .vindex h d sr f => some { vm := mVindex h d, sreg := sr, freg := f }
  | .vcmp h cc d a b f => some { vm := mVcmp h cc d a b, sreg := (srcReg b), freg := f }
  | .vredSumo h d a ini f => some { vm := mVredSumo h d a ini, sreg := (ini.getD 0), freg := f, sdest := some d }
  | .vredSump h d a ini f => some { vm := mVredSump h d a ini, sreg := (ini.getD 0), freg := f, sdest := some d }
  | .vredMax h d a ini f => some { vm := mVredMax h d a ini, sreg := (ini.getD 0), freg := f, sdest := some d }
  | .vredMin h d a ini f => some { vm := mVredMin h d a ini, sreg := (ini.getD 0), freg := f, sdest := some d }
  | .vredAnd h d a ini f => some { vm := mVredAnd h d a ini, sreg := (ini.getD 0), freg := f, sdest := some d }
  | .vredOr h d a ini f => some { vm := mVredOr h d a ini, sreg := (ini.getD 0), freg := f, sdest := some d }
  | .vredXor h d a ini f => some { vm := mVredXor h d a ini, sreg := (ini.getD 0), freg := f, sdest := some d }
  | .mand h d a b => some { vm := mMand h d a b }
  | .mor h d a b => some { vm := mMor h d a b }
  | .mxor h d a b => some { vm := mMxor h d a b }
  | .mandn h d a b => some { vm := mMandn h d a b }
  | .mnot h d a => some { vm := mMnot h d a }
  | .mpop h d a => some { vm := mMpop h d a, sdest := some d }
  | .mfirst h d a => some { vm := mMfirst h d a, sdest := some d }
  | .msetLt h d sr => some { vm := mMsetLt h d, sreg := sr }
  | .msetGe h d sr => some { vm := mMsetGe h d, sreg := sr }
  | .vqnt h d y a f => some { vm := mVqnt h d y a, freg := f }
  | .vdqnt h d a y f => some { vm := mVdqnt h d a y, freg := f }
  | .vup h d a sr f => some { vm := mVup h d a, sreg := sr, freg := f }
  | .vdn h d a sr f => some { vm := mVdn h d a, sreg := sr, freg := f }
  | .vgathr h d a b f => some { vm := mVgathr h d a b, freg := f }
  | .vpack c d a m f => some { vm := mVpack c d a m, freg := f }
  | .vunpk c d a m f => some { vm := mVunpk c d a m, freg := f }
  | .vresh c d a sr f => some { vm := mVresh c d a, sreg := sr, freg := f }
  | .vreshT c d a sr f => some { vm := mVreshT c d a, sreg := sr, freg := f }
  | .vreshInv c d a sr f => some { vm := mVreshInv c d a, sreg := sr, freg := f }
  | .vgtr c d a f => some { vm := mVgtr c d a, freg := f }
  | .vld h d sr f off => some { vm := mVld h d off, sreg := sr, freg := f }
  | .vlds h d sr b f off => some { vm := mVlds h d b off, sreg := sr, freg := f, held := [b] }
  | .vldx h d sr b f off => some { vm := mVldx h d b off, sreg := sr, freg := f }
  | .vldK c m kf d sr f off => some { vm := mVldK c m kf d off, sreg := sr, freg := f, held := (kRegs kf) }
  | .vldff h dx md sr f off => some { vm := mVldff h dx md off, sreg := sr, freg := f }
  | .vst h a sr f off => some { vm := mVst h a off, sreg := sr, freg := f }
  | .vsts h a sr b f off => some { vm := mVsts h a b off, sreg := sr, freg := f, held := [b] }
  | .vstx h a sr b f off => some { vm := mVstx h a b off, sreg := sr, freg := f }
  | .vstxo h a sr b f off => some { vm := mVstxo h a b off, sreg := sr, freg := f }
  | .vstC c d a sr f off => some { vm := mVstC c d a off, sreg := sr, freg := f }
  | .vldC c d sr f off => some { vm := mVldC c d off, sreg := sr, freg := f }
  | .vamoAdd h d a b sr f off => some { vm := mVamoAdd h d a b off, sreg := sr, freg := f }
  | .vamoSwap h d a b sr f off => some { vm := mVamoSwap h d a b off, sreg := sr, freg := f }
  | .vamoCas h d a b y sr f off => some { vm := mVamoCas h d a b y off, sreg := sr, freg := f }
  | .vamoAnd h d a b sr f off => some { vm := mVamoAnd h d a b off, sreg := sr, freg := f }
  | .vamoOr h d a b sr f off => some { vm := mVamoOr h d a b off, sreg := sr, freg := f }
  | .vamoMax h d a b sr f off => some { vm := mVamoMax h d a b off, sreg := sr, freg := f }
  | .vamoMin h d a b sr f off => some { vm := mVamoMin h d a b off, sreg := sr, freg := f }
  | .vldp h d m sr b f off => some { vm := mVldp h d m b off, sreg := sr, freg := f }
  | .vstp h a m sr b f off => some { vm := mVstp h a m b off, sreg := sr, freg := f }
  | .vstr h a m sr b f off => some { vm := mVstr h a m b off, sreg := sr, freg := f }
  | .vldw c d sr off => some { vm := mVldw c d off, sreg := sr }
  | .vstw c a sr off => some { vm := mVstw c a off, sreg := sr }
  | .vldwM c d sr off => some { vm := mVldwM c d off, sreg := sr }
  | .vstwM c a sr off => some { vm := mVstwM c a off, sreg := sr }
  | .pst c a b y f rn w => some { vm := mPst c a b y rn w, sreg := (rn.getD 0), freg := f, held := [a, b, y] }
  | .popAdd c a b y f rn row w =>
    some { vm := mPopAdd c a b y rn row w, sreg := (rn.getD 0), freg := f, held := [a, b, y] }
  | .popSub c a b y f rn row w =>
    some { vm := mPopSub c a b y rn row w, sreg := (rn.getD 0), freg := f, held := [a, b, y] }
  | .popMin c a b y f rn row w =>
    some { vm := mPopMin c a b y rn row w, sreg := (rn.getD 0), freg := f, held := [a, b, y] }
  | .popMax c a b y f rn row w =>
    some { vm := mPopMax c a b y rn row w, sreg := (rn.getD 0), freg := f, held := [a, b, y] }
  | .popAnd c a b y f rn row w =>
    some { vm := mPopAnd c a b y rn row w, sreg := (rn.getD 0), freg := f, held := [a, b, y] }
  | .popOr c a b y f rn row w =>
    some { vm := mPopOr c a b y rn row w, sreg := (rn.getD 0), freg := f, held := [a, b, y] }
  | .popXor c a b y f rn row w =>
    some { vm := mPopXor c a b y rn row w, sreg := (rn.getD 0), freg := f, held := [a, b, y] }
  | .popMov c a b y f rn row w =>
    some { vm := mPopMov c a b y rn row w, sreg := (rn.getD 0), freg := f, held := [a, b, y] }
  | .pldSum c d a y f rn w =>
    some { vm := mPldSum c d a y rn w, sreg := (rn.getD 0), freg := f, held := [a, y], sdest := some d }
  | .pldMax c d a y f rn w =>
    some { vm := mPldMax c d a y rn w, sreg := (rn.getD 0), freg := f, held := [a, y], sdest := some d }
  | .pldMin c d a y f rn w =>
    some { vm := mPldMin c d a y rn w, sreg := (rn.getD 0), freg := f, held := [a, y], sdest := some d }
  | .pldAnd c d a y f rn w =>
    some { vm := mPldAnd c d a y rn w, sreg := (rn.getD 0), freg := f, held := [a, y], sdest := some d }
  | .pldOr c d a y f rn w =>
    some { vm := mPldOr c d a y rn w, sreg := (rn.getD 0), freg := f, held := [a, y], sdest := some d }
  | .pldXor c d a y f rn w =>
    some { vm := mPldXor c d a y rn w, sreg := (rn.getD 0), freg := f, held := [a, y], sdest := some d }
  | .pldCnt c d a y f rn w =>
    some { vm := mPldCnt c d a y rn w, sreg := (rn.getD 0), freg := f, held := [a, y], sdest := some d }
  | .vwait h m d a sr => some { vm := mVwait h m d a, sreg := sr }
  | .ctri d a b y f sa sb => some { vm := mCtri d a b y sa sb, freg := f, comb := true }
  | .czero d => some { vm := mCzero d, comb := true }
  | .cget d a sr f i0 nr j0 nc => some { vm := mCget d a i0 nr j0 nc, sreg := sr, freg := f, comb := true }
  | .cgetc d a sr f i0 nr j0 nc => some { vm := mCgetc d a i0 nr j0 nc, sreg := sr, freg := f, comb := true }
  | .cput d a sr f i0 nr j0 nc => some { vm := mCput d a i0 nr j0 nc, sreg := sr, freg := f, comb := true }
  | .cshp sr => some { vm := mCshp, sreg := sr, comb := true }
  | .tsave a sr off => some { vm := mTsave a off, sreg := sr, comb := true }
  | .tload d sr off => some { vm := mTload d off, sreg := sr, comb := true }
  | .route h fr a b y sr => some { vm := mRoute h fr a b y, sreg := sr }
  | .rrecv c d y a sr => some { vm := mRrecv c d y a, sreg := sr, sdest := some a }
  | .rret h a y => some { vm := mRret h a y }
  | .fwait c d fr => some { vm := mFwait c d fr, sdest := some d }
  | .fread c d y fr => some { vm := mFread c d y fr }
  | .rtset c a sr => some { vm := mRtset c a, sreg := sr }
  | .enqStk h d y a => some { vm := mEnqStk h d y a }
  | .enqCpy h d y a => some { vm := mEnqCpy h d y a }
  | .cwpw c n sr => some { vm := mCwpw c n, sreg := sr }
  | _ => none

end Sys2Proof.Machine
end

