-- ==== Sys2Proof/Machine/Fetch.lean ====
section
/-! DEFINITION. Fetching words, and the blocks of vector and comb words that they stand in: the instruction cache, the scan
of a block and the capture of its words (02_stream R31, R37-R46). -/

namespace Sys2Proof.Machine

/-! ### Words -/

/-- A comb word (02_stream R37). -/
def isCombWord (w : Word) : Bool := decide (0x70 ≤ (vopOf w).toNat) && decide ((vopOf w).toNat ≤ 0x77)
/-- The instruction of a word; none for an illegal one. -/
def instrOf (w : Word) : Option Instr :=
  match decode64 w with
  | .ok i => some i
  | .error _ => none
/-- The information on a word; none for an illegal one. -/
def wordInfo (w : Word) : Option VInfo := (instrOf w).bind vinfo
/-! ### Fetch (02_stream R31) -/

/-- A word kept in the instruction cache of 64 KiB (01_machine R15, R16); where it is full, some word leaves it first. -/
def Core.cacheWord (y : Core) (tick pa : Nat) (w : BitVec 32) : Core :=
  { y with icache := mset (if y.icache.length < 16384 then y.icache else y.icache.eraseIdx (Config.victim tick % 16384)) pa w }

/-- A 32-bit word fetched through the instruction cache, or its fault. DEDUCED, log 48. -/
def State.fetch32 (s : State) (va : Word) : Except (Failure × State) (BitVec 32 × State) :=
  match spaceOf va with
  | some .translated =>
    match s.walkStage s.cc s.hart .fetch va.toNat with
    | .error e => .error ((e, va), s)
    | .ok (l, t) =>
      if s.permFails s.hart .fetch 4 l t then .error ((0x12, va), s)
      else match s.core.icache.find? fun p => p.1 == t.pa with
        | some p => .ok (p.2, s)
        | none =>
          if s.marked (.mem t.pa) then .error ((0x19, va), s)
          else if s.hasError (.mem t.pa) then .error ((0x1A, va), s.mark (.mem t.pa))
          else
            let w := BitVec.ofNat 32 (s.readMem t.pa 4)
            .ok (w, (s.touch s.cc s.hart va).modCore fun y => y.cacheWord s.tick t.pa w)
  | _ => .error ((0x12, va), s)

/-- A block word fetched; a fault names the word's address (02_stream R38). -/
def State.fetch64 (s : State) (va : Word) : Except (Failure × State) (Word × State) :=
  match s.fetch32 va with
  | .error e => .error e
  | .ok (lo, s) =>
    match s.fetch32 (va + 4) with
    | .error (f, s) => .error ((f.1, va), s)
    | .ok (hi, s) => .ok ((hi.setWidth 64 <<< 32) ||| lo.setWidth 64, s)

/-! ### The scan (R38) -/

/-- The registers that a word names as scalar sources; s0 is none (R44). DEDUCED, logs 42 and 43. -/
def wordSources (w : Word) : List (BitVec 5) :=
  match wordInfo w with
  | some i => (i.sreg :: i.freg :: i.held).filter fun r => r != 0
  | none => []
/-- The register that a word names as a scalar destination. -/
def wordDest (w : Word) : Option (BitVec 5) := ((wordInfo w).bind VInfo.sdest).filter fun r => r != 0

/-- A scanned block: its words up to and with the VSTOP, and the state after the fetches; or the trap. -/
abbrev Scan := Except (Failure × State) (List Word × State)

/-- The words of a block from an address on, `fuel` of them at most, after words that name `dests` as destinations
(R38). -/
def State.scan (s : State) (block : Word) : Nat → Word → List (BitVec 5) → Scan
  | 0, _, _ => .error ((0x24, block), s)
  | fuel + 1, va, dests =>
    match s.fetch64 va with
    | .error e => .error e
    | .ok (w, s) =>
      if vopOf w = 0 then .ok ([w], s)
      else if (wordSources w).any dests.contains then .error ((0x02, va), s)
      else match s.scan block fuel (va + 8) (dests ++ (wordDest w).toList) with
        | .error e => .error e
        | .ok (ws, t) => .ok (w :: ws, t)

/-! ### Capture (R43, R44) -/

/-- A word captured: its S and F registers and the hart's configuration (R43, R44), and the hart's level. DEDUCED,
logs 43 and 109. -/
def Hart.capture (k : Hart) (va w : Word) : Entry :=
  { word := w, addr := va, sval := k.rd (sOf w), fval := k.rd (fOf w), cfg := k.cfg, seq := 0, pre := false, prog := !k.trap.system }

/-- The entries of a block's words in order. -/
def Hart.captureAll (k : Hart) : Word → List Word → List Entry
  | _, [] => []
  | va, w :: r => k.capture va w :: k.captureAll (va + 8) r

/-! ### A block that has been placed in part (R40) -/

/-- The address of the block of a VBLK, and of a VBLKR (R37). -/
def Hart.vblkBase (k : Hart) (off : BitVec 21) : Word := (k.pc &&& ~~~(7 : Word)) + (off.signExtend 64 <<< 3)
def Hart.vblkrBase (k : Hart) (a : BitVec 5) (imm : BitVec 16) : Word := k.rd a + imm.signExtend 64

/-- The words from BPC on of the block of the VBLK at an address; none where no VBLK stands there. -/
def State.cutBlock (s : State) (pc : Word) : Option (List Entry) :=
  let k := { s.hart with pc := pc }
  match s.fetch32 pc with
  | .error _ => none
  | .ok (w, _) =>
    let base : Option Word := match decode32 w with
      | .ok (.vblk off) => some (k.vblkBase off)
      | .ok (.vblkr a imm) => some (k.vblkrBase a imm)
      | _ => none
    match base.map fun b => (b, s.scan b 256 b []) with
    | some (b, .ok (ws, _)) => some ((k.captureAll b ws).drop k.vec.bpc.toNat)
    | _ => none

/-- The words of a block still to be placed: those that the hart's VBLK is placing, or, where a trap has cut it at BPC and it
is to run again, those from BPC on (R37, R40): it stands at the PC, or, while the trap is handled, where the hart is to
return to. -/
def State.restOfBlock (s : State) : List Entry :=
  let k := s.hart
  match k.wait with
  | .placing es => es
  | _ =>
    if k.vec.bpc = 0 then []
    else ((s.cutBlock k.pc).orElse fun _ => if k.trap.system then s.cutBlock k.trap.sepc else none).getD []

end Sys2Proof.Machine
end

