-- ==== Sys2Proof/Machine/Queue.lean ====
section
/-! DEFINITION. The vector and comb queues: convoys at dispatch, comb words at issue, waiting words and their
releases (02_stream R45, R50-R57, 10_comb R236-R238, 09_order R210, 14_system R316). -/

namespace Sys2Proof.Machine

/-! ### Queue entries -/

/-- How a run of a word ends, with the state that it leaves changed. -/
def VRes.map (f : State → State) : VRes → VRes
  | .ok s => .ok (f s)
  | .fault e code tval s => .fault e code tval (f s)
  | .stop code tval s => .stop code tval (f s)
  | .wait e s => .wait e (f s)
  | .after code tval s => .after code tval (f s)

/-- The meaning of a word that acts at program level on a hart at system level: the level shows while it runs alone. -/
def VMeaning.atProgram (m : VMeaning) : VMeaning :=
  { m with run := fun s lo hi => (m.run (s.asLevel false) lo hi).map fun t => t.asLevel true }

/-- The meaning of an entry; an illegal word raises cause 0x02 at its dispatch (02_stream R36). A word placed at program
level that runs while its hart is at system level, as after the return from a nested trap (14_system R321), acts at program
level (00_scope R5). DEDUCED, log 109. -/
def Entry.meaning (x : Entry) (s : State) : VMeaning :=
  match wordInfo x.word with
  | some i => if x.prog && s.hart.trap.system then (i.vm x (s.asLevel false)).atProgram else i.vm x s
  | none => { c := x.word.getLsbD 55, bad02 := true }
/-- An entry with its meaning. -/
def Entry.cword (s : State) (x : Entry) : CWord := (x, x.meaning s)

/-- The convoy at the head of the vector queue (02_stream R50): a word with C = 1 joins the next vector word of the block,
whatever comb words stand between them (10_comb R225). None until its last word is placed. -/
def headRun : List Entry → Option (List Entry)
  | [] => none
  | x :: r => if !x.word.getLsbD 55 || vopOf x.word == 0 then some [x] else (headRun r).map (x :: ·)

/-! ### Scalar registers that words hold (02_stream R45, R46) -/

/-- The words of the queues that are not stopped by a trap. DEDUCED, log 44. -/
def Hart.liveWords (k : Hart) : List Entry := (k.q.vq ++ k.q.cq).filter fun x => !x.pre
/-- A register is pending (R46). DEDUCED, log 42. -/
def Hart.pending (k : Hart) (r : BitVec 5) : Bool :=
  r != 0 && k.liveWords.any fun x => (wordInfo x.word).any fun i => i.sdest == some r
/-- A register is under a capture hold (R45): a word that has not dispatched is to read it. DEDUCED, log 42. -/
def Hart.heldReg (k : Hart) (r : BitVec 5) : Bool :=
  r != 0 && k.liveWords.any fun x => x.bval.isNone && (wordInfo x.word).any fun i => i.held.contains r
/-- A word that has dispatched: it has read the register that it holds (R45). -/
def Entry.dispatched (k : Hart) (x : Entry) : Entry :=
  { x with bval := some (x.bval.getD (k.rd (((wordInfo x.word).bind fun i => i.held.head?).getD 0))) }
/-- A word that accesses memory stands in the queues (09_order R210). DEDUCED, log 44. -/
def State.memoryQueued (s : State) : Bool := s.hart.liveWords.any fun x => (x.meaning s).memory

/-! ### Order between the queues (10_comb R237, R238) -/

/-- Register groups of two words share a register. -/
def groupsMeet (k : Hart) (c : Cfg) (gs : List Grp) (c' : Cfg) (hs : List Grp) : Bool :=
  gs.any fun g => hs.any fun h =>
    decide (g.base < h.base + h.size k c') && decide (h.base < g.base + g.size k c)

/-- The words of the comb queue with the groups they hold: CTRI's follow the shape that the CSHP words before it
set (R237, R223). -/
def combHolds : List Entry → State → List CWord
  | [], _ => []
  | x :: r, s =>
    x.cword s :: combHolds r (match instrOf x.word with
      | some (.cshp _) => if cshapeLegal x.sval then s.modHart fun k => k.modVec fun v => { v with cshape := x.sval } else s
      | _ => s)

/-- A comb word holds a vector word back that is placed after it (R237, R238, 11_route R261). -/
def combBlocks (k : Hart) (w x : CWord) : Bool :=
  groupsMeet k x.1.cfg x.2.srcs w.1.cfg w.2.dsts || groupsMeet k x.1.cfg x.2.dsts w.1.cfg (w.2.srcs ++ w.2.dsts)
    || (x.2.memory && (w.2.memory || w.2.sync))

/-- A queued vector word with the groups it holds against comb words. The groups of an FREAD with a ROUTE before it in
the queue are those of a frame that is still to be set: up to eight registers from each base (R237, 11_route R259). -/
def vectorHolds (s : State) : Bool → List Entry → List CWord
  | _, [] => []
  | routed, x :: r =>
    let m := x.meaning s
    let wide := match instrOf x.word with
      | some (.fread ..) => routed
      | _ => false
    let m := if wide then { m with dsts := m.dsts.map fun g => { g with n := 8 * perReg s.hart x.cfg g.w } } else m
    (x, m) :: vectorHolds s (routed || (match instrOf x.word with
      | some (.route ..) => true
      | _ => false)) r

/-- FENCE.VV holds back what was placed after it while a memory word placed before it stands in the other queue
(09_order R210). -/
def fenceBlocks (fences : List Nat) (others : List CWord) (seq : Nat) : Bool :=
  fences.any fun f => decide (f ≤ seq) && others.any fun o => decide (o.1.seq < f) && o.2.memory

/-- Nothing in the comb queue holds a convoy back: no comb word placed before the word of the convoy that it holds
against. DEDUCED, log 78. -/
def State.convoyFree (s : State) (ws : List CWord) : Bool :=
  let k := s.hart
  let seq := ((ws.head?).map fun w => w.1.seq).getD 0
  let combs := combHolds k.q.cq s
  !(combs.any fun x => ws.any fun w => decide (x.1.seq < w.1.seq) && combBlocks k w x) && !fenceBlocks k.q.vv combs seq

/-- Nothing placed before a comb word in the vector queue holds it back. -/
def State.combFree (s : State) (x : CWord) : Bool :=
  let k := s.hart
  let vs := vectorHolds s false k.q.vq
  !(vs.any fun v => decide (v.1.seq < x.1.seq) &&
      (groupsMeet k v.1.cfg v.2.dsts x.1.cfg (x.2.srcs ++ x.2.dsts) || groupsMeet k v.1.cfg v.2.srcs x.1.cfg x.2.dsts
        || (x.2.memory && (v.2.memory || v.2.sync))))
    && !fenceBlocks k.q.vv vs x.1.seq

/-! ### Convoys (02_stream R50-R56) -/

/-- The queues may start or go on with words: the hart is placed, not halted, VS is not OFF (14_system R330), the
words do not stand from before a trap (02_stream R45), and no machine check and no trap of the vector queue that it left
pending waits (14_system R314), unless an instruction that has begun completes before it (05_harts R120, 14_system R316).
DEDUCED, logs 44, 47 and 49. -/
def Hart.queuesRun (k : Hart) (xs : List Entry) : Bool :=
  k.place.placed && !k.halted && !(xs.any Entry.pre) && !k.owing
    && ((k.sequencing && xs.take 1 == k.q.vq.take 1) || (k.vec.vs != 0 && (k.trap.checks.isEmpty || k.wait == .begun)))

/-- FENCE.VV marks that hold nothing back any more go. -/
def Queues.prune (q : Queues) : Queues :=
  { q with vv := q.vv.filter fun f => (q.vq ++ q.cq).any fun x => decide (x.seq < f) }

/-- The head comb word has completed. -/
def Hart.popComb (k : Hart) : Hart := k.modQ fun q => Queues.prune { q with cq := q.cq.drop 1, comb := none }
/-- A tile that has begun to move is moved to its end (14_system R316); one that can no longer be read has not begun: its comb
word stays, and meets that when it is issued again. DESIGN CHOICE, log 7. -/
def State.finishComb (s : State) : State :=
  match s.hart.q.comb, s.hart.q.cq with
  | some b, x :: _ =>
    let m := x.meaning s
    match m.run s b.line m.len with
    | .ok t => t.modHart Hart.popComb
    | _ => s.modHart fun k => k.modQ fun q => { q with comb := none }
  | _, _ => s
/-- A trap of the vector queue, before which a comb word that has begun completes (10_comb R236). -/
def State.trapVector (s : State) (code : BitVec 8) (tval : Word) (es : List Nat) (vtpc : Word) (e : Option Nat) : State :=
  s.finishComb.vectorTrap code tval es vtpc e

/-- The first words of the vector queue have completed. -/
def Hart.popWords (k : Hart) (n : Nat) : Hart :=
  (k.modQ fun q => Queues.prune { q with vq := q.vq.drop n, flight := none, stall := .none, begun := none }).showLanded

/-- The vector word after one that has completed (14_system R364): the next of the vector queue, or of the block whose
words are still being placed or are to be placed again; where neither has one, what follows the word and the comb words
behind it that are queued or still to be placed. DESIGN CHOICE, log 98. -/
def State.nextVector (s : State) (last : Word) : Word :=
  let coming := s.restOfBlock
  match s.hart.q.vq, coming.find? fun x => !isCombWord x.word with
  | x :: _, _ | [], some x => x.addr
  | [], none => (s.hart.q.cq ++ coming).foldl (fun a x => if x.addr = a then a + 8 else a) (last + 8)

/-- The address of the last of the first `n` words. -/
def lastAddr (xs : List Entry) (n : Nat) : Word :=
  (((xs.drop (n - 1)).head?).map Entry.addr).getD (((xs.head?).map Entry.addr).getD 0)
/-- How a run of a convoy of the vector queue leaves the hart (14_system R313, R316); the words of one that goes on later
have dispatched, which ends their capture holds (R45). -/
def endConvoy (xs : List Entry) (r : CRes) : State :=
  let addr := ((xs.head?).map Entry.addr).getD 0
  match r with
  | .done t => t.modHart fun k => k.popWords xs.length
  | .stopped es t | .wait es t => t.modHart fun k => k.modQ fun q =>
    { q with flight := some es, vq := (q.vq.take xs.length).map (Entry.dispatched k) ++ q.vq.drop xs.length }
  | .fault es e code tval t => t.trapVector code tval es addr e
  | .after n code tval t =>
    let t := t.modHart fun k => k.popWords n
    t.trapVector code tval [] (t.nextVector (lastAddr xs n)) none

/-- A head word requests the route unit now: an RRECV whose rows are there or whose timeout is 0, an FWAIT whose frame
has closed, and any other word (20_prog_moe R366). -/
def State.routeAsked (s : State) (x : Entry) : Bool :=
  match instrOf x.word with
  | some (.rrecv ..) => decide (rrecvWant x s.hart ≤ s.hart.inbox.count.toNat) || x.sval == 0
  | some (.fwait _ _ fr) => (s.core.frame fr).st == 2 || (s.core.frame fr).st == 3
  | _ => true
/-- The shared resources that the words at the head of the vector queue use now (05_harts R126); a word that has begun keeps
what it has taken. -/
def State.headUses (s : State) (xs : List Entry) : List Resource :=
  (xs.flatMap fun x => (x.meaning s).uses)
    ++ (if xs.all s.routeAsked ∧ !s.hart.sequencing then xs.flatMap fun x => (x.meaning s).takes else [])
/-- The shared resources that the head comb word uses now: the Comb with its first grant, or, for a TLOAD, with its last
(10_comb R239). -/
def State.combUses (s : State) (m : VMeaning) : List Resource :=
  let lo := (s.hart.q.comb.map TileMove.line).getD 0
  (if m.takes.isEmpty then (if lo = 0 then [.comb] else []) else if (m.span lo).isNone then m.takes else []) ++ m.uses

/-- Where the grant ends that the head words take next, where more of them follow (05_harts R127). A word that a marked
chunk of a mask stops takes none (06_varith R134). -/
def Hart.nextPiece (k : Hart) (ws : List CWord) : Option (VMeaning × Nat × Nat) :=
  let lo := if k.q.begun.isSome then (k.q.flight.getD []).headD 0 else 0
  if k.q.stall != .none then none
  else ws.findSome? fun w =>
    if k.q.begun.isNone && (maskMark w.2 k 0 w.2.len).isSome then none else (w.2.span lo).map fun hi => (w.2, lo, hi)

/-- The head convoy started or continued up to an element (R55, R316), with a grant of what it uses (05_harts R126);
what a word asks for only once it no longer waits is granted when it goes on (20_prog_moe R366). A word that takes a grant
for each command or row does the work of one with each (05_harts R127), and keeps the route unit, where it takes it, from the
first; its dispatch checks come before the first. DEDUCED, log 46. -/
def dispatchHead (xs : List Entry) (upTo : Nat) (s : State) : State :=
  let k := s.hart
  let addr := ((xs.head?).map Entry.addr).getD 0
  let ws := xs.map (Entry.cword s)
  let took (t : State) : State := if k.sequencing then t else t.grant (ws.flatMap fun w => w.2.takes)
  match (if k.q.stall = .none ∧ !k.sequencing then dispatchCheck k (resumedWords ws (k.q.flight.getD [])) else none) with
  | some (code, tval, e) => s.trapVector code tval [] addr e
  | none =>
    let s := (if k.q.flight.isNone then s.trace 1 addr else s).grant (ws.flatMap fun w => w.2.uses)
    match k.nextPiece ws with
    | some (m, lo, hi) => took ((m.run s lo hi).state.modHart fun k => k.modQ fun q => { q with flight := some [hi] })
    | none =>
      let r := runConvoy s ws (k.q.flight.getD []) upTo
      let t := endConvoy xs r
      match r with
      | .wait .. => t
      | _ => took t

/-- A word that waits goes on by itself only at VLD.C's own chunk; the others have events of their own. -/
def VStall.open_ : VStall → Bool
  | .none | .vldC 0 _ => true
  | _ => false

/-- CONVOY_DISPATCH (R50, R55). -/
def execConvoyDispatch (upTo : BitVec 32) (s : State) : Out :=
  let k := s.hart
  match headRun k.q.vq with
  | none => .next s
  | some xs =>
    .next (if k.queuesRun xs ∧ k.q.stall.open_ ∧ s.convoyFree (xs.map (Entry.cword s)) then dispatchHead xs upTo.toNat s
      else s)

/-- A run of a convoy ends in a trap. -/
def CRes.traps : CRes → Bool
  | .fault .. | .after .. => true
  | _ => false

/-- The convoy in flight, and how it ends where it completes (14_system R316); a word that waits is left to
`Hart.stopQueues`. -/
def State.flightEnd (s : State) : Option (List Entry × CRes) :=
  match headRun s.hart.q.vq, s.hart.q.flight, s.hart.q.stall with
  | some xs, some es, .none =>
    if xs.any Entry.pre then none else some (xs, runConvoy s (xs.map (Entry.cword s)) es (2 ^ 32))
  | _, _, _ => none

/-- The convoy in flight completes before a trap of the scalar stream or of the comb queue (14_system R316). Answers whether
it trapped itself, which comes first (R314). DEDUCED, log 47. -/
def State.finishFlight (s : State) : Bool × State :=
  match s.flightEnd with
  | some (xs, r) => (r.traps, endConvoy xs r)
  | none => (false, s)

/-- The convoy in flight completes before a machine check of a tile (14_system R316); a trap that it ends in stays pending, for
the machine check is first (R314). DEDUCED, log 47. -/
def State.oweFlight (s : State) : State :=
  let owe (o : Owed) (k : Hart) : Hart := k.modQ fun q => { q with flight := none, begun := none, owed := some o }
  match s.flightEnd with
  | some (_, .fault es e code tval t) =>
    t.modHart (owe { es := es, e := e, code := code, tval := tval, last := none, pre := false })
  | some (xs, .after n code tval t) =>
    t.modHart fun k => owe { es := [], e := none, code := code, tval := tval, last := some (lastAddr xs n), pre := false } (k.popWords n)
  | some (xs, r) => endConvoy xs r
  | none => s

/-- The trap of the vector queue that a machine check left pending is taken (14_system R314): ES0-ES5 and VTPC as its own row
of R316 gives them. -/
def State.takeOwed (s : State) (o : Owed) : State :=
  (s.modHart fun k => k.modQ fun q => { q with owed := none }).trapVector o.code o.tval o.es (match o.last with
    | some a => s.nextVector a
    | none => ((s.hart.q.vq.head?).map Entry.addr).getD 0) o.e

/-- A debug halt of the hart whose turn it is: a word of several grants that has begun completes first (14_system R316,
R333). -/
def State.haltHart (s : State) : State :=
  (if s.hart.sequencing then s.finishFlight.2 else s).finishComb.modHart Hart.halt

/-! ### Comb words (02_stream R57, 10_comb R236) -/

/-- A comb word traps: the convoy in flight completes first, and a trap of its own is taken instead (R236). What it had begun
it has not done. DEDUCED, log 47. -/
def combStop (code : BitVec 8) (tval addr : Word) (e : Option Nat) (s : State) : Out :=
  let f := (s.modHart fun k => k.modQ fun q => { q with comb := none }).finishFlight
  .next (if f.1 then f.2 else f.2.combTrap code tval addr e)

/-- The work of one grant of a comb word from a line on, or all of it; past the last it leaves the queue. -/
def combPiece (x : Entry) (m : VMeaning) (lo : Nat) (s : State) : Out :=
  match m.run (s.grant (s.combUses m)) lo ((m.span lo).getD m.len) with
  | .ok t | .wait _ t => .next (if (m.span lo).isSome then t else t.modHart Hart.popComb)
  | .fault e code tval t => combStop code tval x.addr (some e) t
  | .stop code tval t | .after code tval t => combStop code tval x.addr none t

/-- COMB_WORD_ISSUE (R57). A tile that has begun to move goes on whatever trap is due (R236). -/
def execCombWordIssue (s : State) : Out :=
  let k := s.hart
  match k.q.cq with
  | [] => .next s
  | x :: _ =>
    let m := x.meaning s
    match k.q.comb with
    | some b => if k.place.placed ∧ !k.halted then combPiece x m b.line s else .next s
    | none =>
    if !k.queuesRun [x] ∨ !s.combFree (x, m) then .next s
    else match dispatchCheck k [(x, m)] with
      | some (code, tval, e) => combStop code tval x.addr e s
      | none => combPiece x m 0 (s.trace 2 x.addr)

/-! ### Waiting words -/

/-- The head convoy goes on after a release, where it waits as `ok` says. -/
def resumeHead (ok : VStall → Bool) (s : State) : State :=
  let k := s.hart
  match headRun k.q.vq with
  | none => s
  | some xs => if k.queuesRun xs && ok k.q.stall then dispatchHead xs (2 ^ 32) s else s

/-- The head word ends with a result given by its release. -/
def endHead (s : State) (r : Instr → Entry → Option VRes) : State :=
  let k := s.hart
  match k.q.vq with
  | [] => s
  | x :: _ =>
    if !k.queuesRun [x] then s
    else match (instrOf x.word).bind fun i => r i x with
      | some (.ok t) => endConvoy [x] (.done t)
      | some (.fault _ code tval t) => t.trapVector code tval [] x.addr none
      | _ => s

/-- A sleeping VWAIT reads its unmet elements again: a line was written (05_harts R124). -/
def execVwaitWake (s : State) : Out :=
  .next (resumeHead (fun t => match t with
    | .vwait _ => true
    | _ => false) s)
/-- A sleeping VWAIT reads again after 1,024 clocks (05_harts R124). DESIGN CHOICE, log 5. -/
def execVwaitPoll (s : State) : Out :=
  .next (resumeHead (fun t => match t with
    | .vwait _ => true
    | _ => false) s)
/-- A sleeping VWAIT's clocks have been counted: it ends with no further read (05_harts R124).
DESIGN CHOICE, log 5. -/
def execVwaitTimeout (s : State) : Out :=
  .next (match s.hart.q.stall with
    | .vwait met => endHead s fun i x => match i with
      | .vwait h m _ _ _ => some (.ok (vwaitResult h m x met s))
      | _ => none
    | _ => s)

/-- RRECV's rows or its timeout: the take, or its first grant where it takes several (01_machine R23), with the element of a
fault (11_route R254). -/
def rrecvEnd (enough : Bool) (s : State) : State :=
  let k := s.hart
  match k.q.stall, k.q.vq with
  | .rrecv, x :: _ =>
    if !k.queuesRun [x] || (enough && decide (k.inbox.count.toNat < rrecvWant x k)) then s
    else match instrOf x.word with
      | some (.rrecv _ d y a _) =>
        let n := rrecvRows x k
        match rowSpan (rrecvPieces k n) 0 with
        | some hi => ((s.readRows (rrecvPieces k n) 0 hi (Partway.start n)).modHart fun k => k.modQ fun q => { q with stall := .none, flight := some [hi] }).grant [.route, .banks]
        | none =>
          match rrecvTake d y a x s with
          | .ok t => (endConvoy [x] (.done t)).grant [.route, .banks]
          | .fault e code tval t => (t.trapVector code tval [] x.addr (some e)).grant [.route, .banks]
          | _ => s
      | _ => s
  | _, _ => s
/-- RRECV_TAKE: the inbox holds the rows wanted (11_route R254). -/
def execRrecvTake (s : State) : Out := .next (rrecvEnd true s)
/-- RRECV_TIMEOUT: the clocks have passed (11_route R254). DESIGN CHOICE, log 5. -/
def execRrecvTimeout (s : State) : Out := .next (rrecvEnd false s)

/-- FWAIT_RELEASE: the frame has closed (11_route R258). -/
def execFwaitRelease (s : State) : Out := .next (resumeHead (fun t => t == .fwait) s)
/-- CWPW_RELEASE: the write pointer has reached the target (12_engines R286). -/
def execCwpwRelease (s : State) : Out := .next (resumeHead (fun t => t == .cwpw) s)

end Sys2Proof.Machine
end

