-- ==== Sys2Proof/Machine/Trap.lean ====
section
/-! DEFINITION. Taking the traps of the scalar stream, the end of a scalar instruction, the rules by which one may
issue, instruction fetch, and the machine's asynchronous traps (14_system R309-R314, R330-R334, 04_scalar R87,
02_stream R31). -/

namespace Sys2Proof.Machine

/-! ### The end of a scalar instruction -/

/-- A debug step, or a halt that waited for an instruction, ends (14_system R333): the hart halts, and the debug port's
command is done (15_device R358). -/
def State.settleStep (s : State) : State :=
  if s.hart.dbgStep then
    s.haltHart.modMgr fun m => if m.busy = some (s.cc, s.ch) then { m with dbgres := 1, busy := none } else m
  else s

/-- A scalar instruction completes and the PC moves on: its trace record (15_device R358), BPC kept or cleared, a single
step noted (14_system R332), a debug step's halt (R333). -/
def State.retireTo (s : State) (keepBpc : Bool) (pc : Word) : State :=
  ((s.trace 0 s.hart.pc).modHart fun k =>
    { k.granted [.issue] with
      pc := pc
      wait := .none
      vec := { k.vec with bpc := if keepBpc then k.vec.bpc else 0 }
      trap := { k.trap with stepped := if k.trap.step && !k.trap.system then some k.pc else k.trap.stepped } }).settleStep

/-- An instruction other than a VBLK completes: at program level it clears BPC (02_stream R40). -/
def State.complete (s : State) (pc : Word) : State := s.retireTo s.hart.trap.system pc

/-- The common end: the next word follows. -/
def State.advance (s : State) : State := s.complete (s.hart.pc + 4)

/-- An instruction that completes before any asynchronous trap of its hart has begun, and waits (05_harts R120,
09_order R214). -/
def State.begin (s : State) : State := s.modHart fun k => { k with wait := .begun }

/-- A synchronous trap of the scalar stream (14_system R313, R316): the convoy in flight and the comb word that has begun
complete first; a trap of the convoy's own is taken instead, after which the instruction issues again. -/
def State.syncTrap (s : State) (code : BitVec 8) (tval : Word) : State :=
  let f := s.finishFlight
  (if f.1 then f.2 else f.2.finishComb.enterTrap 0 code tval).settleStep

/-- A synchronous trap as an outcome; an error that the walk met leaves its mark (08_memory R174). DEDUCED, log 47. -/
def trap (code : BitVec 8) (tval : Word) (s : State) : Out :=
  .next ((s.markWalk s.cc s.hart.ptroot code tval).syncTrap code tval)

/-- A scalar result written and the instruction done. -/
def finish (d : BitVec 5) (v : Word) (s : State) : Out := .next ((s.wr d v).advance)

/-! ### Issue (04_scalar R87, R89, 02_stream R45, R46, 14_system R330) -/

/-- The scalar registers an instruction of the scalar stream reads, and those it writes. -/
def scalarUse : Instr → List (BitVec 5) × List (BitVec 5)
  | .add d a b | .sub d a b | .and d a b | .or d a b | .xor d a b | .shl d a b | .shr d a b | .sar d a b
  | .slt d a b | .sltu d a b | .mul d a b | .mulh d a b | .div d a b | .divu d a b | .rem d a b | .min d a b
  | .max d a b | .setlen d a b | .cset d a b => ([a, b], [d])
  | .addi d a _ | .andi d a _ | .ori d a _ | .xori d a _ | .slti d a _ | .shli d a _ | .shri d a _ | .sari d a _
  | .ld d a _ | .lw d a _ | .lwu d a _ | .lh d a _ | .lhu d a _ | .lb d a _ | .lbu d a _ | .jalr d a _
  | .setleni d a _ | .vqsave d a | .farm d a | .fnext d a | .hlaunch d a => ([a], [d])
  | .csrr d _ _ => ([], [d])
  | .csrw d a _ | .csrs d a _ | .csrc d a _ => ([a], [d])
  | .lhi d _ | .addpc d _ | .jal d _ => ([], [d])
  | .sd d a _ | .sw d a _ | .sh d a _ | .sb d a _ => ([d, a], [])
  | .beq a b _ | .bne a b _ | .blt a b _ | .bge a b _ | .bltu a b _ | .bgeu a b _ | .vqload a b | .cwb a b
  | .cinv a b => ([a, b], [])
  | .amoAdd d a b .. | .amoSwap d a b .. | .amoAnd d a b .. | .amoOr d a b .. | .amoMax d a b .. | .amoMin d a b .. =>
    ([a, b], [d])
  | .amoCas d a b .. => ([a, b, d], [d])
  | .vblkr a _ | .vdecl a | .tlbinvPg _ a => ([a], [])
  | _ => ([], [])

/-- The instruction waits for a register (R45, R46). -/
def Hart.hazard (k : Hart) (i : Instr) : Bool :=
  let u := scalarUse i
  (u.1 ++ u.2).any k.pending || u.2.any k.heldReg

/-- An asynchronous trap must be taken at this boundary (14_system R314, R331, R332, R334). -/
def TrapRegs.due (t : TrapRegs) : Bool := !t.checks.isEmpty || t.stepped.isSome || (t.pend && (!t.system || t.sie))
/-- The same, or a trap of the vector queue that a machine check left pending (14_system R314). -/
def Hart.due (k : Hart) : Bool := k.trap.due || k.owing
/-- A word that is never interrupted has begun (14_system R316). -/
def Hart.busy (k : Hart) : Bool := k.sequencing || k.q.comb.isSome

/-- The hart's scalar stream may issue (04_scalar R87): it is placed, not halted, waits for nothing, and no trap is
due; an instruction that has begun and waits is tried again whatever trap is due (05_harts R120, 09_order R214).
DEDUCED, log 49. -/
def Hart.mayIssue (k : Hart) : Bool :=
  k.place.placed && !k.halted && match k.wait with
    | .begun => true
    | .none | .csr _ => !k.due
    | _ => false

/-- An instruction that completes before any asynchronous trap, from the time it waits for its registers on
(05_harts R120). -/
def holdsTraps : Instr → Bool
  | .farm .. | .fnext .. | .hlaunch .. => true
  | _ => false

/-- An instruction that never traps, whatever VS holds (05_harts R111). -/
def neverTraps : Instr → Bool
  | .setlen .. | .setleni .. => true
  | _ => false

/-- What comes in place of an instruction that may not issue now: it waits, or, for a register that a word of the
queues holds while VS is OFF, cause 0x07 (14_system R330); SETLEN and SETLENI never trap (05_harts R111), and wait.
DEDUCED, log 82. -/
def State.gate (s : State) (i : Instr) : Option Out :=
  let k := s.hart
  if !k.mayIssue then some (.next s)
  else if k.hazard i then some (if k.vec.vs = 0 ∧ !neverTraps i then trap 0x07 0 s else .next (if holdsTraps i then s.begin else s))
  else none

/-- A wait for vector or comb work: it holds the instruction back, and raises cause 0x07 while VS is OFF (R330). -/
def waitFor (busy : Bool) (s : State) (go : Out) : Out :=
  if busy then (if s.hart.vec.vs = 0 then trap 0x07 0 s else .next s) else go

/-! ### Asynchronous traps (14_system R314, R331-R334) -/

/-- The unit code that STVAL gives (R334); a tile has the number by which the hart names it (10_comb R222).
DEDUCED, log 95. -/
def mcCode (u : MCUnit) : Word :=
  match u with
  | .tile t => 1 + (t.setWidth 64 <<< 8)
  | .queues => 2
  | .core => 3

/-- The words of the queues are lost (R334). -/
def Hart.loseQueues (k : Hart) : Hart :=
  ({ k with q := { k.q with vq := [], cq := [], vv := [], flight := none, stall := .none, begun := none, comb := none, owed := none } }).showLanded

/-- Free values for numbered storage that is lost. -/
def lostWords (tick base n : Nat) : List (Nat × Word) :=
  (List.range n).filterMap fun i =>
    let v := Config.lost tick (base + i)
    if v = 0 then none else some (base + i, v)

/-- The vector, mask and tile registers are lost: every value of them is free (R334, log 23). -/
def Hart.loseRegisters (k : Hart) (tick : Nat) : Hart :=
  k.modStore fun t => { t with
    chunks := lostWords tick 0 (k.lanes * 16384)
    poison := []
    masks := (List.range 8).flatMap fun m => lostWords tick (maskIndex m 0) (k.lanes * 512)
    tiles := (List.range (1024 * (8 / k.place.h.toNat))).filterMap fun i =>
      let v := (Config.lost tick (2 ^ 40 + i)).setWidth 32
      if v = 0 then none else some (i, v) }

/-- MACHINE_CHECK: what the unit loses, and the trap that is due (R334). -/
def execMachineCheck (u : MCUnit) (s : State) : Out :=
  if !s.hart.place.placed then .next s
  else
    let s := match u with
      | .tile t => s.modHart fun k => k.modStore fun x => { x with
          tiles := (List.range 1024).foldl (fun m i => mset m (t.toNat * 1024 + i) 0x7FC00000) x.tiles }
      | .queues => s.modHart Hart.loseQueues
      | .core => s.modHart fun k => (k.loseQueues).loseRegisters s.tick
    .next (s.modHart fun k => k.modTrap fun t => { t with checks := t.checks ++ [u] })

/-- The machine check at the front is taken (R313, R316, R334). For a tile the convoy in flight completes, and ES0-ES5 and
VTPC are as at a trap from the comb queue; a trap that the convoy ends in stays pending, for the machine check is first
(R314). VTPC is 0 where no comb word stands in the queue. DESIGN CHOICE, log 123. For the other units the words that a VBLK
under way has placed since are lost with the queues. DEDUCED, log 47. -/
def State.takeCheck (s : State) (u : MCUnit) : State :=
  let pop (s : State) : State := s.modHart fun k => k.modTrap fun t => { t with checks := t.checks.drop 1 }
  match u with
  | .tile _ =>
    let s := s.oweFlight
    let es := s.hart.combEs
    let s := pop (s.modHart Hart.stopQueues)
    (s.modHart fun k => k.modVec fun v => { v with
      vp := true, es := es
      vtpc := match k.q.cq with
        | x :: _ => x.addr &&& ~~~7
        | [] => 0 }).enterTrap 3 0x30 (mcCode u)
  | _ => ((pop s).modHart Hart.loseQueues).enterTrap 3 0x30 (mcCode u)

/-- TRAP_TAKE: the first asynchronous trap that is due (R314); a halted hart takes none, nor one whose instruction or word
has begun and completes first (05_harts R120, 09_order R214, R316). DEDUCED, log 49. -/
def execTrapTake (s : State) : Out :=
  let k := s.hart
  if !k.place.placed ∨ k.halted ∨ k.wait = .begun ∨ k.busy then .next s
  else match k.trap.checks, (if k.owing then k.q.owed else none), k.trap.stepped with
  | u :: _, _, _ => .next (s.takeCheck u)
  | [], some o, _ => .next (s.takeOwed o)
  | [], none, some a => .next (s.enterTrap 3 0x21 a)
  | [], none, none =>
    if k.trap.pend ∧ (!k.trap.system ∨ k.trap.sie) then
      .next ((s.modHart fun k => k.modTrap fun t => { t with pend := false }).enterTrap 3 0x20 0)
    else .next s

end Sys2Proof.Machine
end

