-- ==== Sys2Proof/Machine/Alu.lean ====
section
/-! DEFINITION. Integer instructions, branches and jumps (04_scalar R90-R94, R99-R101). -/

namespace Sys2Proof.Machine

/-! ### ALU (R90, R91) -/

/-- A truth value as a register value. -/
def bitWord (b : Bool) : Word := if b then 1 else 0

/-- ADD (R90). -/
def execAdd (d a b : BitVec 5) (s : State) : Out := finish d (s.rd a + s.rd b) s
/-- SUB (R90). -/
def execSub (d a b : BitVec 5) (s : State) : Out := finish d (s.rd a - s.rd b) s
/-- AND (R90). -/
def execAnd (d a b : BitVec 5) (s : State) : Out := finish d (s.rd a &&& s.rd b) s
/-- OR (R90). -/
def execOr (d a b : BitVec 5) (s : State) : Out := finish d (s.rd a ||| s.rd b) s
/-- XOR (R90). -/
def execXor (d a b : BitVec 5) (s : State) : Out := finish d (s.rd a ^^^ s.rd b) s
/-- SHL (R90). -/
def execShl (d a b : BitVec 5) (s : State) : Out := finish d (s.rd a <<< ((s.rd b).toNat % 64)) s
/-- SHR (R90). -/
def execShr (d a b : BitVec 5) (s : State) : Out := finish d (s.rd a >>> ((s.rd b).toNat % 64)) s
/-- SAR (R90). -/
def execSar (d a b : BitVec 5) (s : State) : Out := finish d ((s.rd a).sshiftRight ((s.rd b).toNat % 64)) s
/-- SLT (R90). -/
def execSlt (d a b : BitVec 5) (s : State) : Out := finish d (bitWord ((s.rd a).slt (s.rd b))) s
/-- SLTU (R90). -/
def execSltu (d a b : BitVec 5) (s : State) : Out := finish d (bitWord ((s.rd a).ult (s.rd b))) s
/-- MUL (R90). -/
def execMul (d a b : BitVec 5) (s : State) : Out := finish d (s.rd a * s.rd b) s
/-- MULH (R90). -/
def execMulh (d a b : BitVec 5) (s : State) : Out := finish d ((((s.rd a).signExtend 128 * (s.rd b).signExtend 128) >>> 64).setWidth 64) s
/-- DIV (R91). -/
def execDiv (d a b : BitVec 5) (s : State) : Out := finish d (if s.rd b = 0 then BitVec.allOnes 64 else (s.rd a).sdiv (s.rd b)) s
/-- DIVU (R91). -/
def execDivu (d a b : BitVec 5) (s : State) : Out := finish d (if s.rd b = 0 then BitVec.allOnes 64 else s.rd a / s.rd b) s
/-- REM (R91). -/
def execRem (d a b : BitVec 5) (s : State) : Out := finish d (if s.rd b = 0 then s.rd a else (s.rd a).srem (s.rd b)) s
/-- MIN (R90). -/
def execMin (d a b : BitVec 5) (s : State) : Out := finish d (if (s.rd a).slt (s.rd b) then s.rd a else s.rd b) s
/-- MAX (R90). -/
def execMax (d a b : BitVec 5) (s : State) : Out := finish d (if (s.rd a).slt (s.rd b) then s.rd b else s.rd a) s

/-! ### Immediate forms (R92-R94) -/

/-- ADDI (R92). -/
def execAddi (d a : BitVec 5) (imm : BitVec 16) (s : State) : Out := finish d (s.rd a + imm.signExtend 64) s
/-- ANDI (R92). -/
def execAndi (d a : BitVec 5) (imm : BitVec 16) (s : State) : Out := finish d (s.rd a &&& imm.setWidth 64) s
/-- ORI (R92). -/
def execOri (d a : BitVec 5) (imm : BitVec 16) (s : State) : Out := finish d (s.rd a ||| imm.setWidth 64) s
/-- XORI (R92). -/
def execXori (d a : BitVec 5) (imm : BitVec 16) (s : State) : Out := finish d (s.rd a ^^^ imm.setWidth 64) s
/-- SLTI (R92). -/
def execSlti (d a : BitVec 5) (imm : BitVec 16) (s : State) : Out := finish d (bitWord ((s.rd a).slt (imm.signExtend 64))) s
/-- SHLI (R93). -/
def execShli (d a : BitVec 5) (n : BitVec 6) (s : State) : Out := finish d (s.rd a <<< n.toNat) s
/-- SHRI (R93). -/
def execShri (d a : BitVec 5) (n : BitVec 6) (s : State) : Out := finish d (s.rd a >>> n.toNat) s
/-- SARI (R93). -/
def execSari (d a : BitVec 5) (n : BitVec 6) (s : State) : Out := finish d ((s.rd a).sshiftRight n.toNat) s
/-- LHI (R94). -/
def execLhi (d : BitVec 5) (imm : BitVec 16) (s : State) : Out := finish d (imm.signExtend 64 <<< 16) s
/-- ADDPC (R94). -/
def execAddpc (d : BitVec 5) (imm : BitVec 16) (s : State) : Out := finish d (s.hart.pc + (imm.signExtend 64 <<< 16)) s

/-! ### Branches and jumps (R99-R101) -/

/-- A branch: the PC moves by the word offset where the condition holds (R99). -/
def branch (taken : Bool) (off : BitVec 16) (s : State) : Out :=
  .next (if taken then s.complete (s.hart.pc + (off.signExtend 64 <<< 2)) else s.advance)

/-- BEQ (R99). -/
def execBeq (a b : BitVec 5) (off : BitVec 16) (s : State) : Out := branch (s.rd a == s.rd b) off s
/-- BNE (R99). -/
def execBne (a b : BitVec 5) (off : BitVec 16) (s : State) : Out := branch (s.rd a != s.rd b) off s
/-- BLT (R99). -/
def execBlt (a b : BitVec 5) (off : BitVec 16) (s : State) : Out := branch ((s.rd a).slt (s.rd b)) off s
/-- BGE (R99). -/
def execBge (a b : BitVec 5) (off : BitVec 16) (s : State) : Out := branch (!(s.rd a).slt (s.rd b)) off s
/-- BLTU (R99). -/
def execBltu (a b : BitVec 5) (off : BitVec 16) (s : State) : Out := branch ((s.rd a).ult (s.rd b)) off s
/-- BGEU (R99). -/
def execBgeu (a b : BitVec 5) (off : BitVec 16) (s : State) : Out := branch (!(s.rd a).ult (s.rd b)) off s
/-- JAL (R100). -/
def execJal (d : BitVec 5) (off : BitVec 21) (s : State) : Out :=
  .next ((s.wr d (s.hart.pc + 4)).complete (s.hart.pc + (off.signExtend 64 <<< 2)))
/-- JALR (R101): a target that is not 4-aligned is cause 0x08 (02_stream R25). -/
def execJalr (d a : BitVec 5) (imm : BitVec 16) (s : State) : Out :=
  let t := s.rd a + imm.signExtend 64
  if t.toNat % 4 ≠ 0 then trap 0x08 t s else .next ((s.wr d (s.hart.pc + 4)).complete t)
/-- A scalar word that is no instruction: cause 0x01, STVAL the word (02_stream R28). -/
def execIllegalInstruction (w : BitVec 32) (s : State) : Out := trap 0x01 (w.setWidth 64) s

end Sys2Proof.Machine
end

