-- ==== Sys2Proof/Machine/Csr.lean ====
section
/-! DEFINITION. The control registers as numbers, their access by level, their field rules, the CSR instructions, and
SETLEN (04_scalar R102, R103, 05_harts R110-R113, 13_collective R292, R293, 14_system R310, R311, R318). -/

namespace Sys2Proof.Machine

/-! ### Vector length (05_harts R110-R113) -/

/-- The container width that VTYPE.EW gives (03_formats R69). -/
def ewBits (ew : Nat) : Nat := [4, 6, 8, 16, 32].getD ew 32
/-- A VTYPE value that names reserved bits or widths (03_formats R69, 05_harts R111). -/
def vtypeReserved (v : Word) : Bool := v >>> 5 != 0 || decide ((v.extractLsb' 0 3).toNat > 4)
/-- VTYPE with ILL set (05_harts R111). -/
def vtypeIll : Word := (1 : Word) <<< 63
/-- VLMAX of a VTYPE under the current NREG (05_harts R110, 03_formats R69). -/
def Hart.vlmax (k : Hart) (vt : Word) : Nat := perReg k k.cfg (ewBits (vt.extractLsb' 0 3).toNat)

/-- The length that SETLEN grants (05_harts R111). -/
def Hart.grant (k : Hart) (vgrant avl : Nat) (vt : Word) : Nat :=
  let epg := epgOf k (ewBits (vt.extractLsb' 0 3).toNat)
  let max := k.vlmax vt
  let cap := max * vgrant / 8 / epg * epg
  let vl := min avl (min max cap)
  let blk := (vt.extractLsb' 3 2).toNat
  if blk = 0 then vl else vl / (8 <<< blk) * (8 <<< blk)

/-- The configuration of a hart changed. -/
def Hart.modCfg (k : Hart) (f : Cfg → Cfg) : Hart := { k with cfg := f k.cfg }

/-- SETLEN's effect with its AVL and VTYPE (05_harts R111). -/
def setlen (d : BitVec 5) (avl vt : Word) (s : State) : Out :=
  if vtypeReserved vt then
    finish d 0 (s.modHart fun k => k.modCfg fun c => { c with vl := 0, vtype := vtypeIll })
  else
    let vl : Word := BitVec.ofNat 64 (s.hart.grant s.core.vgrant.toNat avl.toNat vt)
    finish d vl (s.modHart fun k => k.modCfg fun c => { c with vl := vl, vtype := vt })
/-- SETLEN (05_harts R111). -/
def execSetlen (d a b : BitVec 5) (s : State) : Out := setlen d (s.rd a) (s.rd b) s
/-- SETLENI (05_harts R111). -/
def execSetleni (d a : BitVec 5) (imm : BitVec 16) (s : State) : Out := setlen d (s.rd a) (imm.setWidth 64) s

/-! ### Access by level (04_scalar R103) -/

/-- A number lies in one of some closed ranges. -/
def inRanges (l : List (Nat × Nat)) (n : Nat) : Bool := l.any fun p => decide (p.1 ≤ n) && decide (n ≤ p.2)
/-- A CSR may be read at a level. -/
def csrReads (system : Bool) (n : Nat) : Bool :=
  inRanges [(0x010, 0x015), (0x018, 0x01F), (0x020, 0x029), (0x030, 0x033), (0x038, 0x03B), (0x040, 0x044),
    (0x048, 0x048), (0x050, 0x054), (0x058, 0x058), (0x05A, 0x05A)] n
  || (system && inRanges [(0x100, 0x108)] n)
/-- A CSR may be written at a level. -/
def csrWrites (system : Bool) (n : Nat) : Bool :=
  inRanges [(0x014, 0x014), (0x020, 0x029), (0x048, 0x048), (0x050, 0x054), (0x05A, 0x05A)] n
  || (system && inRanges [(0x010, 0x012), (0x015, 0x015), (0x018, 0x01F), (0x030, 0x033), (0x043, 0x044),
    (0x058, 0x058), (0x100, 0x106), (0x108, 0x108)] n)
/-- A CSR that the vector side changes, whose access waits for the queues (02_stream R47). -/
def csrWaits (n : Nat) : Bool :=
  inRanges [(0x014, 0x015), (0x018, 0x01F), (0x028, 0x029), (0x038, 0x03B), (0x048, 0x048), (0x050, 0x054),
    (0x058, 0x058), (0x05A, 0x05A)] n

/-! ### Values -/

/-- A truth value as a bit of a register. -/
def boolWord (b : Bool) : Word := (BitVec.ofBool b).setWidth 64

/-- The value of a CSR of a hart of a core (the tables of each register's own rule). -/
def State.csr (s : State) (c h n : Nat) : Word :=
  let k := s.hartAt c h
  let y := s.coreAt c
  if 0x018 ≤ n ∧ n ≤ 0x01D then (k.vec.es.toList.getD (n - 0x018) 0).setWidth 64
  else if 0x020 ≤ n ∧ n ≤ 0x027 then (k.cfg.bs.toList.getD (n - 0x020) 0).setWidth 64
  else if 0x038 ≤ n ∧ n ≤ 0x03B then (y.chan (BitVec.ofNat 2 (n - 0x038))).cwp
  else if 0x050 ≤ n ∧ n ≤ 0x053 then (y.frames.toList.getD (n - 0x050) Frame.init).word
  else match n with
    | 0x010 => k.cfg.vl
    | 0x011 => k.cfg.vtype
    | 0x012 => k.cfg.nreg
    | 0x013 => y.vgrant.setWidth 64
    | 0x014 => k.vec.vstat
    | 0x015 => k.vec.vdirty
    | 0x01E => k.vec.vtpc
    | 0x01F => k.vec.vtelem.setWidth 64
    | 0x028 => k.vec.seed
    | 0x029 => k.vec.pfault
    | 0x030 => k.cfg.cgrp.setWidth 64
    | 0x031 => k.cfg.copr.setWidth 64
    | 0x032 => k.cfg.cstr.setWidth 64
    | 0x033 => k.cfg.cstep
    | 0x040 => BitVec.ofNat 64 h
    | 0x041 => BitVec.ofNat 64 c
    | 0x042 => k.part h
    | 0x043 => k.lmbase.setWidth 64
    | 0x044 => k.lmsize.setWidth 64
    | 0x048 => k.inbox.word
    | 0x054 => y.fstat
    | 0x058 => k.vec.cshape
    | 0x05A => k.ecapWord
    | 0x100 => k.trap.sepc
    | 0x101 => k.trap.scause.setWidth 64
    | 0x102 => k.trap.stval
    | 0x103 => k.trap.stvec
    | 0x104 => k.trap.sstatus
    | 0x105 => k.trap.sscratch
    | 0x106 => k.ptroot
    | 0x107 => k.place.ten.setWidth 64
    | 0x108 => boolWord k.trap.pend
    | _ => 0

/-! ### Writes -/

/-- VTYPE written at system level (05_harts R113). -/
def Cfg.putVtype (c : Cfg) (v : Word) : Cfg :=
  if vtypeReserved v then { c with vl := 0, vtype := vtypeIll } else { c with vtype := v }
/-- VL written at system level (05_harts R113). -/
def Hart.putVl (k : Hart) (v : Word) : Hart :=
  k.modCfg fun c => { c with
    vl := if c.vtype.getLsbD 63 then 0 else BitVec.ofNat 64 (min v.toNat (k.vlmax c.vtype)) }
/-- NREG written at system level (05_harts R113). -/
def Cfg.putNreg (c : Cfg) (v : Word) : Cfg := if v = 8 ∨ v = 16 ∨ v = 32 then { c with nreg := v } else c
/-- COPR written at system level: OP = 3 is not stored (13_collective R293). -/
def Cfg.putCopr (c : Cfg) (v : Word) : Cfg :=
  { c with copr := (v.extractLsb' 8 5 ++ (0 : BitVec 6)) ++ (if v.extractLsb' 0 2 = 3 then c.copr.extractLsb' 0 2 else v.extractLsb' 0 2) }
/-- A chunk size that CSTR may hold (13_collective R293). -/
def strideGood (n : Nat) : Bool := n != 0 && n % 256 == 0 && decide (n ≤ 2 ^ 24)
/-- CSTR written at system level (13_collective R293). -/
def Cfg.putCstr (c : Cfg) (v : Word) : Cfg :=
  if strideGood (v.extractLsb' 0 25).toNat then { c with cstr := v.extractLsb' 0 25 } else c
/-- LMBASE and LMSIZE with a value in place of one (08_memory R370). -/
def Hart.putGrant (k : Hart) (base : BitVec 13) (size : BitVec 14) : Hart :=
  if size.toNat > 8192 ∨ base.toNat + size.toNat > 8192 then k else { k with lmbase := base, lmsize := size }
/-- INBOX written (11_route R243). -/
def Hart.putInbox (k : Hart) (v : Word) : Hart :=
  let i := Inbox.ofWord v
  { k with inbox := if i.legal k then i else { i with cap := 0 } }
/-- FDESC written: only an idle frame takes it (11_route R246). -/
def Frame.put (f : Frame) (v : Word) : Frame :=
  if f.st ≠ 0 then f
  else { f with timeout := v.extractLsb' 33 24, w := v.extractLsb' 22 11, maxr := v.extractLsb' 13 9, base := v.extractLsb' 0 13 }
/-- VSTAT written: at program level PE only (14_system R328). DEDUCED, log 57. -/
def VecRegs.putVstat (x : VecRegs) (system : Bool) (v : Word) : VecRegs :=
  if system then { x with bpc := v.extractLsb' 12 8, vp := v.getLsbD 4, pe := v.getLsbD 3, vs := v.extractLsb' 0 2 }
  else { x with pe := v.getLsbD 3 }
/-- SSTATUS written; DBG is read-only (14_system R310). DEDUCED, log 57. -/
def TrapRegs.putSstatus (t : TrapRegs) (v : Word) : TrapRegs :=
  { t with step := v.getLsbD 4, spie := v.getLsbD 3, sie := v.getLsbD 2, spp := v.getLsbD 0 }
/-- SEED written; it never holds 0 (03_formats R78). -/
def seedOf (v : Word) : Word := if v = 0 then 0x9E3779B97F4A7C15 else v

/-- The part of a CSR's write that lies in the hart (each register's own rule). DEDUCED, log 57. -/
def Hart.putCsr (k : Hart) (system : Bool) (n : Nat) (v : Word) : Hart :=
  if 0x018 ≤ n ∧ n ≤ 0x01D then
    k.modVec fun x => { x with es := Vector.ofFn fun (i : Fin 6) => if 0x018 + i.val = n then v.setWidth 32 else x.es[i] }
  else if 0x020 ≤ n ∧ n ≤ 0x027 then
    k.modCfg fun c => { c with bs := Vector.ofFn fun (i : Fin 8) => if 0x020 + i.val = n then v.setWidth 32 else c.bs[i] }
  else match n with
    | 0x010 => k.putVl v
    | 0x011 => k.modCfg fun c => c.putVtype v
    | 0x012 => k.modCfg fun c => c.putNreg v
    | 0x014 => k.modVec fun x => x.putVstat system v
    | 0x015 => k.modVec fun x => { x with dirtyT := v.extractLsb' 40 8, dirtyM := v.extractLsb' 32 8, dirtyV := v.setWidth 32 }
    | 0x01E => k.modVec fun x => { x with vtpc := v &&& ~~~7 }
    | 0x01F => k.modVec fun x => { x with vtelem := v.setWidth 32 }
    | 0x028 => k.modVec fun x => { x with seed := seedOf v }
    | 0x029 => k.modVec fun x => { x with pfV := v.getLsbD 63, pfRow := v.extractLsb' 32 13, pfBanks := v.setWidth 32 }
    | 0x030 => k.modCfg fun c => { c with cgrp := v.setWidth 16 }
    | 0x031 => k.modCfg fun c => c.putCopr v
    | 0x032 => k.modCfg fun c => c.putCstr v
    | 0x033 => k.modCfg fun c => { c with cstep := v }
    | 0x043 => k.putGrant (v.setWidth 13) k.lmsize
    | 0x044 => k.putGrant k.lmbase (v.setWidth 14)
    | 0x048 => k.putInbox v
    | 0x058 => k.modVec fun x => if cshapeLegal v then { x with cshape := v } else x
    | 0x05A => if 1 ≤ (v.extractLsb' 0 7).toNat ∧ (v.extractLsb' 0 7).toNat ≤ 64 then { k with ecap := v.extractLsb' 0 7 } else k
    | 0x100 => k.modTrap fun t => { t with sepc := v }
    | 0x101 => k.modTrap fun t => { t with scause := v.setWidth 10 }
    | 0x102 => k.modTrap fun t => { t with stval := v }
    | 0x103 => k.modTrap fun t => { t with stvec := v &&& ~~~3 }
    | 0x104 => k.modTrap fun t => t.putSstatus v
    | 0x105 => k.modTrap fun t => { t with sscratch := v }
    | 0x106 => { k with ptroot := v &&& ~~~0xFFFF }
    | 0x108 => k.modTrap fun t => { t with pend := v.getLsbD 0 }
    | _ => k

/-- The part of a CSR's write that lies in the core (11_route R246, R247). -/
def Core.putCsr (y : Core) (n : Nat) (v : Word) : Core :=
  if 0x050 ≤ n ∧ n ≤ 0x053 then
    { y with frames := Vector.ofFn fun (i : Fin 4) => if 0x050 + i.val = n then y.frames[i].put v else y.frames[i] }
  else if n = 0x054 then
    { y with lost := v.extractLsb' 32 16, stale := v.extractLsb' 16 16, late := v.extractLsb' 0 16 }
  else y

/-- A CSR of a hart of a core written, as its own rule says; a read-only register does not change. -/
def State.putCsr (s : State) (system : Bool) (c h n : Nat) (v : Word) : State :=
  if csrWrites system n then (s.modHartAt c h fun k => k.putCsr system n v).modCoreAt c fun y => y.putCsr n v else s

/-! ### The instructions (04_scalar R102) -/

/-- BPC as a value of VSTAT holds it (14_system R328). -/
def bpcOf (v : Word) : BitVec 8 := v.extractLsb' 12 8
/-- VSTAT with a BPC. -/
def withBpc (v : Word) (b : BitVec 8) : Word := (v &&& ~~~((0xFF : Word) <<< 12)) ||| (b.setWidth 64 <<< 12)

/-- The old value that a CSR access reads: of VSTAT, the BPC that it read before it waited (02_stream R47). -/
def State.csrOld (s : State) (n : Nat) : Word :=
  match s.hart.wait with
  | .csr b => if n = 0x014 then withBpc (s.csr s.cc s.ch n) b else s.csr s.cc s.ch n
  | _ => s.csr s.cc s.ch n

/-- A CSR access that waits for the queues: BPC of VSTAT is read, and written at system level, at once (02_stream R47). -/
def State.csrHeld (s : State) (n : Nat) (v : Option Word) : State :=
  if n = 0x014 then s.modHart fun k => { k with
    wait := .csr (bpcOf (s.csrOld n))
    vec := { k.vec with bpc := match v with
      | some w => if k.trap.system then bpcOf w else k.vec.bpc
      | none => k.vec.bpc } }
  else s

/-- A CSR access: cause 0x01 where the level has none, the wait of 02_stream R47, the old value into s[d], and the
value that `f` gives of it, where it gives one. -/
def csrAccess (writes : Bool) (f : Word → Option Word) (i : Instr) (d : BitVec 5) (n : Nat) (s : State) : Out :=
  let system := s.hart.trap.system
  if !csrReads system n || (writes && !csrWrites system n) then trap 0x01 (((encode32 i).getD 0).setWidth 64) s
  else
    let old := s.csrOld n
    if csrWaits n && !s.hart.liveWords.isEmpty then
      (if s.hart.vec.vs = 0 then trap 0x07 0 s else .next (s.csrHeld n (f old)))
    else finish d old (match f old with
      | some v => s.putCsr system s.cc s.ch n v
      | none => s)

/-- CSRR (R102): the a field is not used. -/
def execCsrr (d a : BitVec 5) (csr : BitVec 12) (s : State) : Out :=
  csrAccess false (fun _ => none) (.csrr d a csr) d csr.toNat s
/-- CSRW (R102). -/
def execCsrw (d a : BitVec 5) (csr : BitVec 12) (s : State) : Out :=
  csrAccess true (fun _ => some (s.rd a)) (.csrw d a csr) d csr.toNat s
/-- CSRS (R102); with s[a] = 0 it writes nothing. -/
def execCsrs (d a : BitVec 5) (csr : BitVec 12) (s : State) : Out :=
  csrAccess true (fun old => if s.rd a = 0 then none else some (old ||| s.rd a)) (.csrs d a csr) d csr.toNat s
/-- CSRC (R102); with s[a] = 0 it writes nothing. -/
def execCsrc (d a : BitVec 5) (csr : BitVec 12) (s : State) : Out :=
  csrAccess true (fun old => if s.rd a = 0 then none else some (old &&& ~~~s.rd a)) (.csrc d a csr) d csr.toNat s

end Sys2Proof.Machine
end

