-- ==== Sys2Proof/Machine/Hub.lean ====
section
/-! DEFINITION. A tenancy's register block, the launch queue's pushes, attestation and Propolis (15_device R337-R342,
R352, 13_collective R304-R308). -/

namespace Sys2Proof.Machine

/-! ### Small parts -/

/-- `n` words of a list, zeros past its end. -/
def padTo (n : Nat) (l : List Word) : List Word := (List.range n).map fun i => l.getD i 0
/-- Some bytes of a register replaced: `n` bytes from byte `sh` on. DEDUCED, log 51. -/
def mergeBytes (old : Word) (sh n : Nat) (v : Word) : Word :=
  let m : Word := BitVec.ofNat 64 ((2 ^ (8 * n) - 1) <<< (8 * sh))
  (old &&& ~~~m) ||| ((v <<< (8 * sh)) &&& m)
/-- The harts of a tenancy that are placed: core and hart. -/
def State.hartsOf (s : State) (t : Nat) : List (Nat × Nat) :=
  s.cores.flatMap fun p => (p.2.harts.filter fun h => h.2.place.placed && h.2.place.ten.toNat == t).map fun h => (p.1, h.1)
/-- The launches of a tenancy. -/
def State.launchesOf (s : State) (t : Nat) : List Launch := s.launches.filter fun l => l.ten.toNat == t

/-! ### Attestation (R352) -/

/-- A core's power state as the report codes it (R348): 0 FULL, 1 CAPPED, 2 IDLE-RETAINED. -/
def Core.power (y : Core) : Nat :=
  if !(y.harts.any fun p => p.2.place.placed) && y.chans.toList.all fun n => n.cmds.isEmpty then 2
  else if y.vgrant = 8 ∧ !y.halfRate then 0 else 1

/-- The 64-byte digest that is the device identity (R353). -/
def State.identity (s : State) : List Word := padTo 8 (Config.shake256 (Config.deviceKey s.mgr.boots) 8)

/-- DBGSTAT (R338). -/
def Ten.dbgstat (x : Ten) : Word := (if x.session then 2 else 0) + (if x.token then 1 else 0)

/-- Bytes 0 to 255 of a report (R352). The two bits of a core number that the tenancy does not hold are 0. DESIGN CHOICE,
log 115. -/
def State.reportBody (s : State) (t : Nat) : List Word :=
  let x := s.tenAt t
  let power (i : Nat) : Nat := ((s.physCore t i).map fun c => (s.coreAt c).power).getD 0
  let powers := (List.range 4).map fun w =>
    BitVec.ofNat 64 ((List.range 32).foldr (fun i a => power (32 * w + i) + 4 * a) 0)
  x.attnonce.toList ++ padTo 8 (Config.imageDigest s.mgr.image) ++ [s.mgr.devnum.setWidth 64]
    ++ [BitVec.ofNat 64 ((if s.mgr.sec then 1 else 0) + 2 ^ 8 * t) ||| (x.dbgstat <<< 16)] ++ powers ++ s.identity
    ++ List.replicate 6 0
/-- A report built in ATTREP (R352). DESIGN CHOICE, log 7. -/
def State.attest (s : State) (t : Nat) : State :=
  let b := s.reportBody t
  s.modTenAt t fun x => { x with attrep := b ++ padTo 160 (Config.falconSign s.mgr.boots b) }

/-! ### Propolis (13_collective R304-R308) -/

/-- The leaves below a node: page base, entry and where the entry lies, by rising address. A node outside the windows has
none, as for a walk. DESIGN CHOICE, log 68. -/
def State.leavesFrom (s : State) (ws : List (Nat × Nat × Nat)) : Nat → Nat → Nat → Nat → List (Nat × Leaf)
  | 0, _, _, _ => []
  | fuel + 1, level, node, va =>
    let sh := levelShift level
    if !inWindows ws (node % 2 ^ 47) then [] else
    (List.range (2 ^ sh.2)).flatMap fun i =>
      let pa := (node + 8 * i) % 2 ^ 47
      let pte : Word := BitVec.ofNat 64 (s.readMem pa 8)
      let a := va + i * 2 ^ sh.1
      if !pte.getLsbD 0 then []
      else if pte.extractLsb' 1 3 = 0 then
        let next := (pte >>> 8).toNat * 256
        if level = 3 ∨ pte.extractLsb' 4 4 ≠ 0 ∨ next % nodeSize (level + 1) ≠ 0 then []
        else s.leavesFrom ws fuel (level + 1) next a
      else [(a, { pte := pte, level := level, at_ := pa })]

/-- The 64 KiB units of the SN leaves under a root (R305): memory of this device in the tenancy's windows; what lies
outside them is skipped (00_scope R5). DESIGN CHOICE, log 90. -/
def State.snUnits (s : State) (ten : Nat) (root : Word) : List PUnit :=
  (s.leavesFrom (s.tenAt ten).wins 4 0 ((root >>> 16).toNat * 65536) 0).flatMap fun l =>
    match leafApply ten l.1 l.2 with
    | none => []
    | some t =>
      if !l.2.pte.getLsbD 6 || t.dev != s.mgr.devnum.toNat || decide (regionOf t.pa > 1) then []
      else ((List.range (2 ^ pageBits l.2.level / 65536)).filter fun i => s.windowOpen ten (t.pa + 65536 * i)).map fun i =>
        { unit := t.pa / 65536 + i, page := l.1 / 65536 + i, root := root, leafAt := l.2.at_, image := none, drained := false }

/-- The units that a launch adds: those already noted are one with them, and one that is copied already, under another
root or page, has that copy as its image (R307). -/
def Propolis.note (p : Propolis) (us : List PUnit) : Propolis :=
  { p with units := us.foldl (fun l u =>
      if l.any fun x => x.unit == u.unit && x.page == u.page && x.root == u.root then l
      else l ++ [{ u with image := (l.find? fun x => x.unit == u.unit && x.image.isSome).bind PUnit.image }]) p.units }

/-- PAREA names an area of this device's LPDDR-6 region (R304), all of which, its end too, lies in the region and in
some windows (00_scope R5). DESIGN CHOICE, log 90. -/
def State.areaIn (s : State) (ws : List (Nat × Nat × Nat)) (parea : Word) : Bool :=
  let pa := (parea >>> 16).toNat * 65536
  regionOf pa == 1 && pa / 2 ^ 47 == s.mgr.devnum.toNat
    && decide (offsetOf pa + (parea.toNat % 65536) * 2 ^ 20 ≤ 2 ^ 42)
    && (List.range (max 1 (parea.toNat % 65536 * 16))).all fun i => inWindows ws (pa % 2 ^ 47 + 65536 * i)
/-- PAREA is good for a tenancy: its windows hold the area (R304). -/
def State.areaGood (s : State) (t : Nat) (parea : Word) : Bool := s.areaIn (s.tenAt t).wins parea
/-- A snapshot that runs stays inside some windows: its area, and the units still to be drained with their leaves
(00_scope R5). DESIGN CHOICE, log 90. -/
def State.snapshotIn (s : State) (t : Nat) (ws : List (Nat × Nat × Nat)) : Bool :=
  let p := (s.tenAt t).prop
  decide (p.st ≠ 1 ∧ p.st ≠ 2 ∧ p.st ≠ 3) || (s.areaIn ws p.area
    && p.units.all fun u => u.drained || (inWindows ws (65536 * u.unit) && inWindows ws u.leafAt))

/-- Arming for step N (R305). DEDUCED, log 50. -/
def State.arm (s : State) (t : Nat) : State :=
  let p := (s.tenAt t).prop
  let n := p.step
  let hs := s.hartsOf t
  let s := s.modTenAt t fun x => { x with prop := { x.prop with
    n := n, area := p.parea, reason := 0, copied := 0, drained := 0, units := [], uncut := [] } }
  if !s.areaGood t p.parea then s.failSnapshot t 4
  else if hs.any fun h => decide (n.toNat < (s.hartAt h.1 h.2).cfg.cstep.toNat) then s.failSnapshot t 1
  else
    let units := (s.launchesOf t).flatMap fun l => s.snUnits t l.ptroot
    s.modTenAt t fun x => { x with prop := { x.prop.note units with st := 1, uncut := hs } }

/-- A hart's cut: the CSET that passes N, or the end of its work (R305). -/
def Propolis.cut (p : Propolis) (h : Nat × Nat) : Propolis :=
  if (p.st = 1 ∨ p.st = 2) ∧ p.uncut.contains h then { p with st := 2, uncut := p.uncut.filter fun x => x != h } else p

/-- A message that is to write memory for a tenancy: a contribution or a train. -/
def Msg.writesFor (t : Nat) (pre : Word → Bool) : Msg → Bool
  | .contrib m => m.ten.toNat == t && pre m.step
  | .train m => m.ten.toNat == t && pre m.step
  | _ => false

/-- A store of a step at most N is still to be performed (R307): a buffered scalar store, a queued word that stores, a
card, a copy command, a staged contribution, a packet, or a contribution or train that the fabric holds.
DEDUCED, log 50. -/
def State.preCutLeft (s : State) (t : Nat) (n : BitVec 48) : Bool :=
  let pre (k : Word) : Bool := decide (k.toNat ≤ n.toNat)
  ((s.hartsOf t).any fun h =>
      let k := s.hartAt h.1 h.2
      k.sbuf.any (fun b => pre b.step) || (k.q.vq ++ k.q.cq).any fun x =>
        pre x.cfg.cstep && (x.meaning (s.at h.1 h.2)).stores)
    || (s.engines.any fun e => (e.2.ofTen t).any (fun c => pre c.step)
        || e.2.rq.any fun r => r.ten.toNat == t && pre r.step)
    || (s.cores.any fun (c : Nat × Core) => (c.2.chans.toList.any fun ch => ch.cmds.any fun m => m.ten.toNat == t && pre m.step)
        || c.2.staged.any fun m => m.ten.toNat == t && pre m.step)
    || s.fabric.any (Msg.writesFor t pre)

/-- A buffered scalar store of a step past N waits to be performed in a unit (R307, 04_scalar R97). -/
def State.storeAwaits (s : State) (n : BitVec 48) (u : Nat) : Bool :=
  s.cores.any fun c => c.2.harts.any fun h => h.2.sbuf.any fun b =>
    afterCut (some b.step) n && match b.loc with
      | .mem pa => pa / 65536 == u || (pa + b.n - 1) / 65536 == u
      | _ => false
/-- PROPOLIS_UNIT_COPY: a unit not yet copied or drained is copied for a store past the cut that waits (R307), as it is
for any other such store just before it is performed; once the area is full and every hart has cut, the store waits for the
drain of its unit. -/
def execPropolisUnitCopy (t : BitVec 6) (u : BitVec 32) (s : State) : Out :=
  let p := (s.tenAt t.toNat).prop
  match p.units[u.toNat]? with
  | none => .next s
  | some x =>
    .next (if (p.st = 2 ∨ p.st = 3) ∧ x.image = none ∧ !x.drained ∧ s.storeAwaits p.n x.unit ∧ (!p.full ∨ !p.uncut.isEmpty)
      then s.copyUnit t.toNat x.unit else s)

/-- PROPOLIS_LAST_CUT: every hart has cut and every store before the cut is performed (R307): every uncopied leaf has
CW set, and the drain begins. DEDUCED, log 50. -/
def execPropolisLastCut (t : BitVec 6) (s : State) : Out :=
  let p := (s.tenAt t.toNat).prop
  if (p.st = 1 ∨ p.st = 2) ∧ p.uncut.isEmpty ∧ !s.preCutLeft t.toNat p.n then
    let s := p.units.foldl (fun s u => if u.image = none then (s.setCw u.leafAt true).dropLeaf u.leafAt else s) s
    .next (s.modTenAt t.toNat fun x => { x with prop := { x.prop with st := 3 } })
  else .next s

/-- The device that PDEST names (R304). -/
def Propolis.destDev (p : Propolis) : Nat := (p.pdest >>> 47).toNat

/-- The record of a unit, the next after those already drained (R307). DESIGN CHOICE, log 41. -/
def State.drainRecord (s : State) (p : Propolis) (u : PUnit) : Drain :=
  { place := p.pdest + BitVec.ofNat 64 (p.drained.toNat * 65600), va := BitVec.ofNat 64 (u.page * 65536), root := u.root
    n := p.n.setWidth 64
    image := ((match u.image with
      | some i => s.imageOf p i
      | none => s.unitImage u.unit) : List (Nat × Byte)).map fun c => (c.1 % 65536, c.2) }

/-- PROPOLIS_DRAIN_UNIT: the next unit is written to PDEST; CW goes from a leaf whose units are all drained; after the
last unit STATE is DONE (R307). DESIGN CHOICE, log 65. -/
def execPropolisDrainUnit (t : BitVec 6) (s : State) : Out :=
  let p := (s.tenAt t.toNat).prop
  if p.st ≠ 3 ∨ !s.reachable p.destDev then .next s
  else
    let s := match p.units.findIdx? fun u => !u.drained with
      | none => s
      | some i =>
        match p.units[i]? with
        | none => s
        | some u =>
          let units := p.units.set i { u with drained := true, image := none }
          let s := { s with drains := s.drains ++ [s.drainRecord p u] }
          let s := if units.all fun x => x.leafAt != u.leafAt || x.drained then s.setCw u.leafAt false else s
          s.modTenAt t.toNat fun x => { x with prop := { x.prop with units := units, drained := x.prop.drained + 1 } }
    if (s.tenAt t.toNat).prop.units.all PUnit.drained then
      .next ((s.raise t.toNat 1).modTenAt t.toNat fun x => { x with prop := { x.prop with st := 4, units := [] } })
    else .next s

/-- PROPOLIS_DRAIN_REFUSED: PDEST refuses the drain (R308). -/
def execPropolisDrainRefused (t : BitVec 6) (s : State) : Out :=
  .next (if (s.tenAt t.toNat).prop.st = 3 then s.failSnapshot t.toNat 3 else s)

/-! ### The launch queue (R340) -/

/-- A staging is discarded (R340). DEDUCED, log 51. -/
def State.dropStaging (s : State) (t : Nat) : State := (s.modTenAt t fun x => { x with staging := [] }).raise t 0

/-- A descriptor appended (R340, R122): false where the queue is full. -/
def State.push (s : State) (t : Nat) (d : Desc) : Bool × State :=
  if 64 ≤ (s.tenAt t).lq.length then (false, s) else (true, s.modTenAt t fun x => { x with lq := x.lq ++ [d] })

/-- Sixteen words as a descriptor. -/
def descOf (ws : List Word) (src : Word) : Desc := { words := Vector.ofFn fun (i : Fin 16) => ws.getD i.val 0, src := src }

/-- An 8-byte write to LQPUSH at a word (R340). DEDUCED, log 51. -/
def State.stage (s : State) (t i : Nat) (v : Word) : State :=
  let n := (s.tenAt t).staging.length
  if i = 0 then
    let s := if n ≠ 0 then s.dropStaging t else s
    s.modTenAt t fun x => { x with staging := [v] }
  else if n = 0 ∨ i ≠ n then s.dropStaging t
  else if i < 15 then s.modTenAt t fun x => { x with staging := x.staging ++ [v] }
  else
    let d := descOf ((s.tenAt t).staging ++ [v]) (BitVec.allOnes 64)
    let p := (s.modTenAt t fun x => { x with staging := [] }).push t d
    if p.1 then p.2 else p.2.raise t 0

/-! ### Register block (R338) -/

/-- A class register (08_memory R176). -/
def SliceClass.word (c : SliceClass) : Word :=
  (c.pol.setWidth 64 <<< 22) ||| (c.age.setWidth 64 <<< 20) ||| c.ways.setWidth 64
/-- A class register written (08_memory R176). -/
def SliceClass.write (c : SliceClass) (v : Word) : SliceClass :=
  { pol := if v.extractLsb' 22 2 = 3 then c.pol else v.extractLsb' 22 2, age := v.extractLsb' 20 2, ways := v.extractLsb' 0 16 }
/-- PARM (R304). -/
def Propolis.parm (p : Propolis) : Word := ((BitVec.ofBool p.arm).setWidth 64 <<< 63) ||| p.step.setWidth 64
/-- PSTAT (R304). -/
def Propolis.pstat (p : Propolis) : Word :=
  (p.st.setWidth 64 <<< 61) ||| (p.reason.setWidth 64 <<< 56) ||| (p.copied.setWidth 64 <<< 32) ||| p.drained.setWidth 64

/-- A register of a tenancy's block, by its 8-aligned offset; undefined offsets and write-only registers read 0. -/
def State.tenReg (s : State) (t off : Nat) : Word :=
  let x := s.tenAt t
  if 0x100 ≤ off ∧ off < 0x140 then (x.classes.toList.getD ((off - 0x100) / 8) { pol := 0, age := 0, ways := 0 }).word
  else if 0x1000 ≤ off ∧ off < 0x1600 then x.attrep.getD ((off - 0x1000) / 8) 0
  else match off with
    | 0x80 => BitVec.ofNat 64 x.lq.length
    | 0x88 => x.trapvec
    | 0x90 => x.intstat.setWidth 64
    | 0x98 => x.intmask
    | 0xA8 => BitVec.ofNat 64 (s.groupsOf t).length
    | 0xB0 => x.erraddr
    | 0xB8 => s.mgr.devnum.setWidth 64
    | 0x200 => x.prop.parm
    | 0x208 => x.prop.parea
    | 0x210 => x.prop.pdest
    | 0x218 => x.prop.pstat
    | 0x300 => x.dbgstat
    | _ => 0

/-- Bytes of a tenancy's block read. -/
def State.readReg (s : State) (t off n : Nat) : Nat :=
  ((s.tenReg t (off / 8 * 8)).toNat >>> (8 * (off % 8))) % 256 ^ n

/-- PREQ.PEND set by a write to PREEMPT (R342). -/
def State.preempt (s : State) (t : Nat) (v : Word) : State :=
  let hs := s.hartsOf t
  let hs := if v.getLsbD 31 then hs
    else hs.filter fun h => s.physCore t (v.extractLsb' 8 7).toNat == some h.1 && h.2 == (v.extractLsb' 0 3).toNat
  hs.foldl (fun s h => s.modHartAt h.1 h.2 fun k => k.modTrap fun r => { r with pend := true }) s

/-- PARM written (R304): ARM = 1 counts only in STATE IDLE, DONE or FAILED. DEDUCED, log 50. -/
def State.writeParm (s : State) (t : Nat) (v : Word) : State :=
  let st := (s.tenAt t).prop.st
  let set (s : State) : State :=
    s.modTenAt t fun x => { x with prop := { x.prop with arm := v.getLsbD 63, step := v.extractLsb' 0 48 } }
  if !v.getLsbD 63 then set s
  else if st = 0 ∨ st = 4 ∨ st = 5 then (set s).arm t
  else s

/-- A write of `n` bytes to a tenancy's block, within one register (R338): partial writes keep the other bytes.
DEDUCED, log 51. It is taken in every STATE of the module. DESIGN CHOICE, log 117. -/
def State.writeReg (s : State) (t off n : Nat) (v : Word) : State :=
  let base := off / 8 * 8
  let sh := off % 8
  let low := mergeBytes 0 sh n v
  let all := mergeBytes (s.tenReg t base) sh n v
  if base < 0x80 then (if n = 8 then s.stage t (base / 8) v else s.dropStaging t)
  else if 0x100 ≤ base ∧ base < 0x140 then
    s.modTenAt t fun x => { x with classes := Vector.ofFn fun (i : Fin 8) =>
      if 0x100 + 8 * i.val = base then x.classes[i].write all else x.classes[i] }
  else if 0x400 ≤ base ∧ base < 0x420 then
    s.modTenAt t fun x => { x with attnonce := Vector.ofFn fun (i : Fin 4) =>
      if 0x400 + 8 * i.val = base then mergeBytes x.attnonce[i] sh n v else x.attnonce[i] }
  else match base with
    | 0x88 => s.modTenAt t fun x => { x with trapvec := all &&& ~~~3 }
    | 0x90 => s.modTenAt t fun x => { x with intstat := x.intstat &&& ~~~(low.setWidth 3) }
    | 0x98 => s.modTenAt t fun x => { x with intmask := all }
    | 0xA0 => if sh = 0 ∧ 4 ≤ n then s.preempt t low else s
    | 0x200 => s.writeParm t all
    | 0x208 => s.modTenAt t fun x => { x with prop := { x.prop with parea := all } }
    | 0x210 => s.modTenAt t fun x => { x with prop := { x.prop with pdest := all &&& ~~~0xFFFF } }
    | 0x420 => if low = 1 then s.attest t else s
    | _ => s

/-! ### Events of the block -/

/-- LQPUSH (R340). -/
def execLqpush (t : BitVec 6) (n : BitVec 4) (v : BitVec 64) (s : State) : Out :=
  .next (s.writeReg t.toNat (8 * n.toNat) 8 v)
/-- INTSTAT_CLEAR (R338, R341). -/
def execIntstatClear (t : BitVec 6) (v : BitVec 64) (s : State) : Out := .next (s.writeReg t.toNat 0x90 8 v)
/-- PREEMPT (R342). -/
def execPreempt (t : BitVec 6) (v : BitVec 64) (s : State) : Out := .next (s.writeReg t.toNat 0xA0 8 v)
/-- ATTREQ (R352). -/
def execAttreq (t : BitVec 6) (v : BitVec 64) (s : State) : Out := .next (s.writeReg t.toNat 0x420 8 v)
/-- PROPOLIS_ARM: a write of PARM (13_collective R304, R305). -/
def execPropolisArm (t : BitVec 6) (v : BitVec 64) (s : State) : Out := .next (s.writeReg t.toNat 0x200 8 v)

end Sys2Proof.Machine
end

