-- ==== Sys2Proof/Machine/Mem.lean ====
section
/-! DEFINITION. Scalar loads, stores, atomics, fences and cache operations (04_scalar R96-R98, 09_order R210-R214,
14_system R322-R324). -/

namespace Sys2Proof.Machine

/-! ### Addresses and checks (R96, R97) -/

/-- The effective address of a load or store (R96). -/
def State.ea (s : State) (a : BitVec 5) (imm : BitVec 16) : Word := s.rd a + imm.signExtend 64

/-- Checks 1 to 5 of an access of `n` bytes (R97): the one part that an aligned access is, or cause and STVAL. -/
def State.checkScalar (s : State) (k : AccessKind) (n : Nat) (ea : Word) : Except Failure Part :=
  if ea.toNat % n ≠ 0 then .error (0x08, ea)
  else match s.checkParts s.cc s.hart k n [(ea, n)] with
    | .error f => .error (f.1, ea)
    | .ok ps => match ps with
      | p :: _ => .ok p
      | [] => .error (0x12, ea)

/-- The place is a register of a tenancy's block. -/
def Loc.isReg : Loc → Bool
  | .reg .. => true
  | _ => false

/-- The class of a part's page. -/
def Part.cls (p : Part) : BitVec 3 := (p.tr.map Tr.cls).getD 0

/-- A number of `n` bytes as a register value (R96). -/
def extendLoad (n : Nat) (signed : Bool) (v : Nat) : Word :=
  if signed then ((BitVec.ofNat 64 v) <<< (64 - 8 * n)).sshiftRight (64 - 8 * n) else BitVec.ofNat 64 v

/-! ### The store buffer (R97) -/

/-- A buffered store performed: a register through the tenancy's block, any other place as a write.
DESIGN CHOICE, log 9. -/
def State.perform (s : State) (b : SBuf) : State :=
  match b.loc with
  | .reg t off => s.writeReg t.toNat off b.n b.data
  | loc => s.writeAll { through := s.writesThrough s.hart.place.ten b.cls, step := some b.step }
      [Acc.ofNat loc b.n (b.data.toNat % 256 ^ b.n)]

/-- The state as a hart's own loads see it: with its buffered stores performed (R97). DESIGN CHOICE, log 9. -/
def State.forwarded (s : State) : State := s.hart.sbuf.foldl State.perform s

/-- Two accesses share a byte. -/
def locsMeet (a : Loc) (n : Nat) (b : Loc) (m : Nat) : Bool :=
  match a, b with
  | .mem x, .mem y => decide (x < y + m) && decide (y < x + n)
  | .lm c x, .lm d y => c == d && decide (x < y + m) && decide (y < x + n)
  | .reg .., .reg .. => true
  | _, _ => false

/-- STORE_BUFFER_WRITE: the oldest buffered store is performed (R97). DESIGN CHOICE, log 9. -/
def execStoreBufferWrite (s : State) : Out :=
  match s.hart.sbuf with
  | [] => .next s
  | b :: r => .next ((s.modHart fun k => { k with sbuf := r }).perform b)

/-! ### Loads (R96-R98) -/

/-- A load's issue: checks 1 to 5, then the hart waits for the data (R97). -/
def load (n : Nat) (signed : Bool) (d a : BitVec 5) (imm : BitVec 16) (s : State) : Out :=
  let ea := s.ea a imm
  match s.checkScalar .load n ea with
  | .error f => trap f.1 f.2 s
  | .ok p => .next ((s.touch s.cc s.hart ea).modHart fun k =>
      { k with wait := .load { d := d, n := n, signed := signed, ea := ea, loc := p.loc } })

/-- SCALAR_LOAD_DATA: checks 6 and 7, then the register (R97). A register of the block, and anything after a buffered
store to one, keeps program order (R98). DESIGN CHOICE, log 9. -/
def execScalarLoadData (s : State) : Out :=
  match s.hart.wait with
  | .load r =>
    if r.loc.isReg then
      match r.loc with
      | .reg t off =>
        if s.hart.sbuf.isEmpty then finish r.d (extendLoad r.n r.signed (s.readReg t.toNat off r.n)) s else .next s
      | _ => .next s
    else if s.hart.sbuf.any fun b => b.loc.isReg then .next s
    else
      let v := s.forwarded
      if v.marked r.loc then trap 0x19 r.ea s
      else if v.hasError r.loc then trap 0x1A r.ea (s.mark r.loc)
      else finish r.d (extendLoad r.n r.signed (v.readLoc r.loc r.n)) s
  | _ => .next s

/-- LD (R96). -/
def execLd (d a : BitVec 5) (imm : BitVec 16) (s : State) : Out := load 8 false d a imm s
/-- LW (R96). -/
def execLw (d a : BitVec 5) (imm : BitVec 16) (s : State) : Out := load 4 true d a imm s
/-- LWU (R96). -/
def execLwu (d a : BitVec 5) (imm : BitVec 16) (s : State) : Out := load 4 false d a imm s
/-- LH (R96). -/
def execLh (d a : BitVec 5) (imm : BitVec 16) (s : State) : Out := load 2 true d a imm s
/-- LHU (R96). -/
def execLhu (d a : BitVec 5) (imm : BitVec 16) (s : State) : Out := load 2 false d a imm s
/-- LB (R96). -/
def execLb (d a : BitVec 5) (imm : BitVec 16) (s : State) : Out := load 1 true d a imm s
/-- LBU (R96). -/
def execLbu (d a : BitVec 5) (imm : BitVec 16) (s : State) : Out := load 1 false d a imm s

/-! ### Stores (R96-R98) -/

/-- A store's issue: checks 1 to 5, D set (08_memory R171), then the store buffer of 16 entries, which it waits for
where it is full (R97). -/
def store (n : Nat) (d a : BitVec 5) (imm : BitVec 16) (s : State) : Out :=
  let ea := s.ea a imm
  match s.checkScalar .put n ea with
  | .error f => trap f.1 f.2 s
  | .ok p =>
    if 16 ≤ s.hart.sbuf.length then .next s
    else
      let b : SBuf := { loc := p.loc, cls := p.cls, n := n, data := s.rd d, step := s.hart.cfg.cstep }
      .next ((((s.touch s.cc s.hart ea).setDirty [p]).modHart fun k => { k with sbuf := k.sbuf ++ [b] }).advance)

/-- SD (R96). -/
def execSd (d a : BitVec 5) (imm : BitVec 16) (s : State) : Out := store 8 d a imm s
/-- SW (R96). -/
def execSw (d a : BitVec 5) (imm : BitVec 16) (s : State) : Out := store 4 d a imm s
/-- SH (R96). -/
def execSh (d a : BitVec 5) (imm : BitVec 16) (s : State) : Out := store 2 d a imm s
/-- SB (R96). -/
def execSb (d a : BitVec 5) (imm : BitVec 16) (s : State) : Out := store 1 d a imm s

/-! ### Atomics (09_order R212-R214) -/

/-- What an AMO waits for: a release for the whole store buffer, any for buffered stores that it meets or that keep
program order with it (R213, 04_scalar R98). DESIGN CHOICE, log 9. -/
def Hart.amoWaits (k : Hart) (rel : Bool) (loc : Loc) (n : Nat) : Bool :=
  !k.sbuf.isEmpty && (rel || loc.isReg || k.sbuf.any fun b => b.loc.isReg || locsMeet b.loc b.n loc n)

/-- An AMO (R213): checks 1 to 7, the last two on the data that it will find once the hart's buffered stores are performed,
then its waits; `f` gives what it writes from the old value, s[b] and s[d], all sign-extended; none writes
nothing, and sets no D. While it waits for the store buffer no asynchronous trap is taken (R214). DEDUCED, log 54. -/
def amo (f : Word → Word → Word → Option Word) (d a b : BitVec 5) (l rel : Bool) (s : State) : Out :=
  let n := if l then 8 else 4
  let ea := s.rd a
  match s.checkScalar .amo n ea with
  | .error e => trap e.1 e.2 s
  | .ok p =>
    let v := s.forwarded
    if v.marked p.loc then trap 0x19 ea s
    else if v.hasError p.loc then trap 0x1A ea (s.mark p.loc)
    else if s.hart.amoWaits rel p.loc n then .next s.begin
    else
      let old := extendLoad n true (match p.loc with
        | .reg t off => s.readReg t.toNat off n
        | loc => s.readLoc loc n)
      let s := s.touch s.cc s.hart ea
      match f old (extendLoad n true ((s.rd b).toNat % 256 ^ n)) (extendLoad n true ((s.rd d).toNat % 256 ^ n)) with
      | none => finish d old s
      | some v => finish d old ((s.setDirty [p]).perform
          { loc := p.loc, cls := p.cls, n := n, data := v, step := s.hart.cfg.cstep })

/-- AMO_ADD (R213): the order and scope show only in its waits. -/
def execAmoAdd (d a b : BitVec 5) (l _acq rel : Bool) (_sc : Scope) (s : State) : Out :=
  amo (fun o v _ => some (o + v)) d a b l rel s
/-- AMO_SWAP (R213): the order and scope show only in its waits. -/
def execAmoSwap (d a b : BitVec 5) (l _acq rel : Bool) (_sc : Scope) (s : State) : Out :=
  amo (fun _ v _ => some v) d a b l rel s
/-- AMO_CAS (R213): the order and scope show only in its waits. -/
def execAmoCas (d a b : BitVec 5) (l _acq rel : Bool) (_sc : Scope) (s : State) : Out :=
  amo (fun o v e => if o = e then some v else none) d a b l rel s
/-- AMO_AND (R213): the order and scope show only in its waits. -/
def execAmoAnd (d a b : BitVec 5) (l _acq rel : Bool) (_sc : Scope) (s : State) : Out :=
  amo (fun o v _ => some (o &&& v)) d a b l rel s
/-- AMO_OR (R213): the order and scope show only in its waits. -/
def execAmoOr (d a b : BitVec 5) (l _acq rel : Bool) (_sc : Scope) (s : State) : Out :=
  amo (fun o v _ => some (o ||| v)) d a b l rel s
/-- AMO_MAX (R213): the order and scope show only in its waits. -/
def execAmoMax (d a b : BitVec 5) (l _acq rel : Bool) (_sc : Scope) (s : State) : Out :=
  amo (fun o v _ => some (if o.slt v then v else o)) d a b l rel s
/-- AMO_MIN (R213): the order and scope show only in its waits. -/
def execAmoMin (d a b : BitVec 5) (l _acq rel : Bool) (_sc : Scope) (s : State) : Out :=
  amo (fun o v _ => some (if o.slt v then o else v)) d a b l rel s

/-! ### Fences (09_order R210, R211) -/

/-- The acknowledgements of VSTR or VST.C are outstanding. -/
def VStall.acks : VStall → Bool
  | .vstC .. | .vstr .. => true
  | _ => false

/-- Vector work that a fence waits for: words that access memory, and at pod scope acknowledgements (R210, R211).
DEDUCED, log 29. -/
def State.vectorBusy (s : State) (pod : Bool) : Bool := s.memoryQueued || (pod && s.hart.q.stall.acks)

/-- What a fence waits for is still to come. DEDUCED, log 29. -/
def State.fenceBusy (s : State) (sv vs pod : Bool) : Bool :=
  (sv && !s.hart.sbuf.isEmpty) || (vs && s.vectorBusy pod)

/-- A fence that the scalar stream may wait at (R210); with VS OFF a wait for vector work is cause 0x07 (R211). -/
def fence (sv vs : Bool) (sc : Scope) (s : State) : Out :=
  let pod := sc == .P
  if vs && s.vectorBusy pod && decide (s.hart.vec.vs = 0) then trap 0x07 0 s
  else .next (if s.fenceBusy sv vs pod then s.modHart fun k => { k with wait := .fence sv vs pod } else s.advance)

/-- FENCE_SV (R210). -/
def execFenceSv (sc : Scope) (s : State) : Out := fence true false sc s
/-- FENCE_VS (R210). DEDUCED, log 29. -/
def execFenceVs (sc : Scope) (s : State) : Out := fence false true sc s
/-- FENCE_ALL (R210). -/
def execFenceAll (sc : Scope) (s : State) : Out := fence true true sc s
/-- FENCE_VV (R210): the scalar stream goes on; what is placed later waits in the queues. DEDUCED, log 45. -/
def execFenceVv (_sc : Scope) (s : State) : Out :=
  .next (s.modHart fun k => k.modQ fun q => Queues.prune { q with vv := q.vv ++ [q.nextSeq] }).advance

/-- FENCE_RELEASE: what the fence waits for has been performed (R210). -/
def execFenceRelease (s : State) : Out :=
  match s.hart.wait with
  | .fence sv vs pod => .next (if s.fenceBusy sv vs pod then s else s.advance)
  | _ => .next s

/-! ### Instruction cache and translations (14_system R322, R323) -/

/-- Words stand in the hart's queues. DEDUCED, log 44. -/
def Hart.queued (k : Hart) : Bool := !(k.q.vq.isEmpty && k.q.cq.isEmpty)

/-- IFLUSH (R322). DEDUCED, log 48. -/
def execIflush (s : State) : Out :=
  waitFor s.hart.queued s
    (.next (if s.hart.sbuf.isEmpty then (s.modCore fun y => { y with icache := [] }).advance else s))

/-- The cores whose MMUs a TLBINV reaches (R323, 01_machine R10). DEDUCED, log 55. -/
def mmuScope (sc : Scope) (c i : Nat) : Bool :=
  match sc with
  | .H | .C => i == c
  | .D => i / 16 == c / 16
  | .M | .P => true

/-- The stores of a VSTR are on their way: they carry places that its core has translated (13_collective R301). -/
def VStall.trains : VStall → Bool
  | .vstr .. => true
  | _ => false
/-- A train that a core of this device has sent for a tenancy. -/
def State.trainFrom (s : State) (c : Nat) (ten : BitVec 6) : Msg → Bool
  | .train m => m.ten == ten && decide (m.sdev = s.mgr.devnum.toNat) && s.physCore m.ten.toNat m.score == some c
  | _ => false
/-- An access of a tenancy under way on a core, which may have used one of its translations: a buffered store, a load, the
trains of a VSTR, or a reduction packet of the core's port. Accesses of another tenancy have used none of them
(00_scope R5). DEDUCED, log 55. -/
def State.accessing (s : State) (c : Nat) (ten : BitVec 6) : Bool :=
  ((s.coreAt c).harts.any fun p => p.2.place.ten == ten && (!p.2.sbuf.isEmpty || p.2.q.stall.trains || (match p.2.wait with
    | .load _ => true
    | _ => false)))
  || s.fabric.any (s.trainFrom c ten) || s.engines.any fun e => e.2.rq.any fun p => p.core == c && p.ten == ten

/-- TLBINV: it waits for the accesses under way in its scope, then the entries go (R323). DEDUCED, log 55. -/
def tlbinv (sc : Scope) (gone : TlbEnt → Bool) (s : State) : Out :=
  let c := s.cc
  if s.cores.any (fun p => mmuScope sc c p.1 && s.accessing p.1 s.hart.place.ten) then .next s
  else
    let cores := s.cores.map fun p =>
      if mmuScope sc c p.1 then (p.1, { p.2 with tlb := p.2.tlb.filter fun e => !gone e }) else p
    .next ({ s with cores := cores }).advance

/-- TLBINV_PG (R323): the page that holds s[a] under the hart's PTROOT. -/
def execTlbinvPg (sc : Scope) (a : BitVec 5) (s : State) : Out :=
  if !s.hart.trap.system then trap 0x01 ((encode32 (.tlbinvPg sc a)).getD 0 |>.setWidth 64) s
  else
    let va := (s.rd a).toNat
    tlbinv sc (fun e => e.root == s.hart.ptroot && e.page * 65536 / 2 ^ pageBits e.level == va / 2 ^ pageBits e.level) s
/-- TLBINV_ALL (R323): every translation of the hart's tenancy. -/
def execTlbinvAll (sc : Scope) (s : State) : Out :=
  if !s.hart.trap.system then trap 0x01 ((encode32 (.tlbinvAll sc)).getD 0 |>.setWidth 64) s
  else tlbinv sc (fun e => e.ten == s.hart.place.ten) s

/-! ### Cache operations (14_system R324) -/

/-- The lines of a physical range written back: DRAM holds what is coherent. -/
def State.writeBack (s : State) (lo hi : Nat) : State :=
  { s with dram := s.dram.filter fun p => !(decide (lo ≤ lineOf p.1) && decide (lineOf p.1 ≤ hi)) }

/-- The lines of a physical range discarded: each byte that was dirty takes the value that DRAM holds, as a store. -/
def State.discard (s : State) (lo hi : Nat) : State :=
  let bs := s.dram.filter fun p => decide (lo ≤ lineOf p.1) && decide (lineOf p.1 ≤ hi)
  (bs.foldl (fun s p =>
    let b := s.dramByte p.1
    let s := s.beforeStore (some s.hart.cfg.cstep) p.1 b 0xFF
    { s with mem := mput memDefault s.mem p.1 b }) s).writeBack lo hi

/-- The pieces of a range in 64 KiB units of addresses, which no page boundary cuts. -/
def unitPieces : Nat → Word → Nat → List (Word × Nat)
  | 0, _, _ => []
  | fuel + 1, a, n =>
    let m := 65536 - a.toNat % 65536
    if n ≤ m then [(a, n)] else (a, m) :: unitPieces fuel (a + BitVec.ofNat 64 m) (n - m)

/-- A row of own lane memory in a piece that lies outside the grant: the first address there. -/
def Hart.pieceOutside (k : Hart) (a : Word) (n : Nat) : Option Word :=
  match spaceOf a with
  | some (.own b) =>
    ((List.range (n / 256 + 2)).find? fun i => decide (b / 256 + i ≤ (b + n - 1) / 256) && !k.inGrant (b / 256 + i)).map fun i =>
      if i = 0 then a else a + BitVec.ofNat 64 (256 * i - b % 256)
  | _ => none

/-- The pieces acted on in increasing order; a fault is precise, and earlier pieces stay acted on (R324). No piece is checked
for a mark or an error of its lines (checks 6 and 7 of R97), since nothing of them is loaded. DESIGN CHOICE, log 114. -/
def cachePieces (k : AccessKind) (act : State → Nat → Nat → State) : List (Word × Nat) → State → Out
  | [], s => .next s.advance
  | (a, n) :: r, s =>
    match s.checkParts s.cc s.hart k 8 [(a, n)] with
    | .error f => trap f.1 f.2 s
    | .ok ps =>
      match s.hart.pieceOutside a n with
      | some f => trap 0x13 f s
      | none =>
        let s := s.touch s.cc s.hart a
        cachePieces k act r (match ps with
          | p :: _ => match p.loc with
            | .mem pa => act s (lineOf pa) (lineOf (pa + n - 1))
            | _ => s
          | [] => s)

/-- CWB and CINV (R324): the range, and the stores before it in program order. DEDUCED, log 54. -/
def cacheOp (k : AccessKind) (act : State → Nat → Nat → State) (a b : BitVec 5) (w : Word) (s : State) : Out :=
  let n := (s.rd b).toNat
  if n > 2 ^ 32 then trap 0x01 w s
  else if n = 0 then .next s.advance
  else if !s.hart.sbuf.isEmpty then .next s
  else cachePieces k act (unitPieces 65538 (s.rd a) n) s

/-- CWB (R324). -/
def execCwb (a b : BitVec 5) (s : State) : Out :=
  cacheOp .load State.writeBack a b ((encode32 (.cwb a b)).getD 0 |>.setWidth 64) s
/-- CINV (R324). -/
def execCinv (a b : BitVec 5) (s : State) : Out :=
  cacheOp .put State.discard a b ((encode32 (.cinv a b)).getD 0 |>.setWidth 64) s

end Sys2Proof.Machine
end

