-- ==== Sys2Proof/Machine/Harts.lean ====
section
/-! DEFINITION. The HART instructions: declaration, farms, barrier, child launches, exit, and CSET (05_harts
R116-R123, 13_collective R292). -/

namespace Sys2Proof.Machine

/-! ### VDECL and CSET (R117, 13_collective R292) -/

/-- The mask binding records that stay: a binding under way ends only with its last chunk or with the hart
(12_engines R284). -/
def boundOnly (bs : List (Nat × BindRec)) : List (Nat × BindRec) := bs.filter fun b => b.2.bound

/-- VDECL's clearing (R117): registers and masks are 0, their marks gone; bindings under way stay (12_engines R284).
DEDUCED, log 79. -/
def Hart.declare (k : Hart) (n : Word) : Hart :=
  { k with
    cfg := { k.cfg with nreg := n, vl := 0 }
    vec := { k.vec with dirtyT := 0, dirtyM := 0, dirtyV := 0, vs := 1 }
    store := { k.store with chunks := [], poison := [], masks := [], binds := boundOnly k.store.binds } }

/-- VDECL (R117). -/
def execVdecl (a : BitVec 5) (s : State) : Out :=
  let n := s.rd a
  if s.hart.vec.vs = 0 then trap 0x07 0 s
  else if n ≠ 8 ∧ n ≠ 16 ∧ n ≠ 32 then trap 0x01 n s
  else if s.hart.queued then .next s
  else .next (s.modHart fun k => k.declare n).advance

/-- The hart's tenancy takes note of a cut (13_collective R305): a CSET whose old CSTEP is N. -/
def State.cutAt (s : State) (old : Word) : State :=
  s.modTenAt s.hart.place.ten.toNat fun x =>
    if x.prop.n.setWidth 64 = old then { x with prop := x.prop.cut (s.cc, s.ch) } else x

/-- CSET (13_collective R292). -/
def execCset (d a b : BitVec 5) (s : State) : Out :=
  let x := s.rd a
  let y := s.rd b
  if x >>> 29 ≠ 0 ∨ (x.extractLsb' 16 8).toNat > 2 then trap 0x01 x s
  else if !strideGood y.toNat then trap 0x01 y s
  else
    let old := s.hart.cfg.cstep
    finish d old ((s.cutAt old).modHart fun k => k.modCfg fun c => { c with
      cgrp := x.setWidth 16, copr := (x.extractLsb' 24 5 ++ (0 : BitVec 6)) ++ x.extractLsb' 16 2
      cstr := y.setWidth 25, cstep := old + 1 })

/-! ### Farms (R118, R119) -/

/-- A launch. -/
def State.launchOf (s : State) (id : Nat) : Option Launch := s.launches.find? fun l => l.id == id
/-- A launch changed. -/
def State.modLaunch (s : State) (id : Nat) (f : Launch → Launch) : State :=
  { s with launches := s.launches.map fun l => if l.id = id then f l else l }

/-- FARM k reaches the launcher: it is created with its count, or joined (R118). -/
def Launch.farm (l : Launch) (k count : Nat) : Launch :=
  if k < l.farms.length then l else { l with farms := l.farms ++ [(count, 0)] }
/-- A farm's next index is claimed (R119). -/
def Launch.claim (l : Launch) (k : Nat) : Option Nat × Launch :=
  match l.farms[k]? with
  | none => (none, l)
  | some (count, next) =>
    if next < count then (some next, { l with farms := l.farms.set k (count, next + 1) }) else (none, l)

/-- FARM (R118). -/
def execFarm (d a : BitVec 5) (s : State) : Out :=
  let k := s.hart.farms
  let count := (s.rd a).toNat % 2 ^ 32
  let s := s.modHart fun h => { h with farms := k + 1 }
  if 16 ≤ k then finish d (BitVec.allOnes 64) s
  else finish d (BitVec.ofNat 64 k) (s.modLaunch s.hart.place.launch fun l => l.farm k count)

/-- FNEXT (R119). -/
def execFnext (d a : BitVec 5) (s : State) : Out :=
  let k := (s.rd a).toNat
  let id := s.hart.place.launch
  if min s.hart.farms 16 ≤ k then finish d (BitVec.ofInt 64 (-2)) s
  else match (s.launchOf id).bind fun l => (l.claim k).1 with
    | none => finish d (BitVec.allOnes 64) s
    | some i => finish d (BitVec.ofNat 64 i) (s.modLaunch id fun l => (l.claim k).2)

/-! ### HBAR (R121) -/

/-- HBAR: the hart arrives once its earlier accesses are performed (R121). -/
def execHbar (s : State) : Out :=
  waitFor s.memoryQueued s
    (.next (if s.hart.sbuf.isEmpty then s.modHart fun k => { k with wait := .hbar } else s))

/-- Every hart of the launch on the core has arrived. -/
def Core.barrierFull (y : Core) (launch : Nat) : Bool :=
  y.harts.all fun p => !(p.2.place.placed && p.2.place.launch == launch) || p.2.wait == .hbar

/-- HBAR_RELEASE: every participant goes on (R121). -/
def execHbarRelease (s : State) : Out :=
  let id := s.hart.place.launch
  if s.hart.place.placed && s.hart.wait == .hbar && s.core.barrierFull id then
    let hs := (s.core.harts.filter fun p => p.2.place.placed && p.2.place.launch == id).map Prod.fst
    let t := hs.foldl (fun t h => (t.at s.cc h).advance) s
    .next (t.at s.cc s.ch)
  else .next s

/-! ### HLAUNCH (R122) -/

/-- The number at a part: a register of the block, or memory. -/
def State.readPart (s : State) (p : Part) (n : Nat) : Nat :=
  match p.loc with
  | .reg t off => s.readReg t.toNat off n
  | loc => s.readLoc loc n

/-- `n` 8-byte words read and checked in increasing order as scalar loads (04_scalar R97): they may name what a scalar
load may, a register of the block or own lane memory too. DESIGN CHOICE, log 73. -/
def State.readWords (s : State) : Nat → Word → Except (Failure × State) (List Word)
  | 0, _ => .ok []
  | n + 1, va =>
    match s.checkScalar .load 8 va with
    | .error f => .error (f, s)
    | .ok p =>
      match s.checkRead [p] with
      | some e => .error e
      | none => match s.readWords n (va + 8) with
        | .error e => .error e
        | .ok r => .ok (BitVec.ofNat 64 (s.readPart p 8) :: r)

/-- What HLAUNCH puts into the descriptor of a program-level hart (R122). -/
def hlaunchWords (k : Hart) (prio : BitVec 2) (ws : List Word) : List Word :=
  if k.trap.system then ws
  else
    let w := ws.getD 1 0
    let p := w.extractLsb' 16 2
    (ws.set 3 k.ptroot).set 1 ((w &&& ~~~((3 : Word) <<< 16)) ||| ((if p.ule prio then p else prio).setWidth 64 <<< 16))

/-- HLAUNCH (R122): while it waits no asynchronous trap is taken (R120). DEDUCED, log 54. -/
def execHlaunch (d a : BitVec 5) (s : State) : Out :=
  let va := s.rd a
  if va.toNat % 128 ≠ 0 then trap 0x08 va s
  else waitFor s.memoryQueued s.begin (
    if !s.hart.sbuf.isEmpty then .next s.begin
    else match s.readWords 16 va with
      | .error (f, t) => trap f.1 f.2 t
      | .ok ws =>
        let s := s.touch s.cc s.hart va
        let p := s.push s.hart.place.ten.toNat (descOf (hlaunchWords s.hart s.hart.place.prio ws) va)
        finish d (if p.1 then 0 else 1) p.2)

/-! ### HEXIT (R123) -/

/-- HEXIT: the hart issues nothing more (R123). -/
def execHexit (s : State) : Out :=
  waitFor s.hart.queued s (.next (s.modHart fun k => { k with wait := .hexit }))

/-- The launch's last hart has exited: its cores become idle (R106). -/
def State.endLaunch (s : State) (id : Nat) : State :=
  match s.launchOf id with
  | some l => if l.left = 0 then l.cores.foldl State.settleCore s else s
  | none => s

/-- A freed context: the hart runs nothing more, and what it held stays until the next placement (R123). Its mask
bindings end (12_engines R284). DEDUCED, log 80. -/
def Hart.freed (k : Hart) : Hart :=
  { k with
    place := { k.place with placed := false, levels := [] }
    store := { k.store with binds := k.store.binds.map fun b => (b.1, { b.2 with bound := false }) }
    wait := .none
    halted := false
    dbgStep := false }

/-- HEXIT_FREE: queues empty and stores performed, the context is freed (R123); the hart counts as cut
(13_collective R305). -/
def execHexitFree (s : State) : Out :=
  let k := s.hart
  if k.place.placed && k.wait == .hexit && k.q.vq.isEmpty && k.q.cq.isEmpty && k.sbuf.isEmpty then
    let id := k.place.launch
    let s := (s.trace 0 k.pc).settleStep
    let s := s.modTenAt k.place.ten.toNat fun x => { x with prop := x.prop.cut (s.cc, s.ch) }
    let s := s.modHart Hart.freed
    .next ((s.modLaunch id fun l => { l with left := l.left - 1 }).endLaunch id)
  else .next s

end Sys2Proof.Machine
end

