-- ==== Sys2Proof/Machine/Arrive.lean ====
section
/-! DEFINITION. What the fabric delivers: rows, returns, refusals, contributions, fetches, trains and their answers, and
what ports do with them (11_route R245, R253, R256, 12_engines R279, 13_collective R297-R302). -/

namespace Sys2Proof.Machine

/-! ### Messages in flight -/

/-- The stream of a message, within which order is kept (11_route R245, R253, 13_collective R303): its kind, where it
comes from and where it goes. The spec orders rows for each inbox and says nothing of returns and refusals, nor of contributions from one core to another
and the other messages of collectives; the model orders them by their streams. DESIGN CHOICE, log 96. -/
def Msg.stream : Msg → List Nat
  | .row m => [0, m.sdev, m.score, m.ddev, m.dcore]
  | .ret m => [1, m.score, m.ddev, m.dcore]
  | .refusal m => [2, m.score, m.ddev, m.dcore]
  | .contrib m => [3, m.sdev, m.score, m.odev, m.ocore]
  | .contribAck _ core hart id _ _ => [4, core, hart, id]
  | .fetch m => [5, m.sdev, m.score, m.shart, m.id]
  | .fetched _ core hart id _ _ _ => [6, core, hart, id]
  | .train m => [7, m.sdev, m.score, m.ddev]
  | .trainAck ten _ core hart id from_ _ => [8, ten.toNat, core, hart, id, from_]

/-- The earliest message of the stream of message `k`. -/
def State.earliest (s : State) (k : Nat) : Option (Nat × Msg) :=
  (s.fabric[k]?).bind fun m =>
    (s.fabric.findIdx? fun x => x.stream == m.stream).bind fun i => (s.fabric[i]?).map fun x => (i, x)

/-- A message taken out of the fabric. -/
def State.takeMsg (s : State) (i : Nat) : State := { s with fabric := s.fabric.eraseIdx i }

/-- An event on the message that `k` names: `f` answers what its delivery leaves, or that it cannot be delivered now. -/
def deliver (k : BitVec 16) (f : Msg → State → Option State) (s : State) : Out :=
  match s.earliest k.toNat with
  | none => .next s
  | some (i, m) => .next ((f m (s.takeMsg i)).getD s)

/-! ### Rows (11_route R245) -/

/-- The launch that runs on a core. -/
def State.runningOn (s : State) (c : Nat) : Option Launch := ((s.coreAt c).launch).bind s.launchOf

/-- A row belongs to the launch that runs at its destination: always from another device; from this one, its OCORE
names a core of the launch and its LTAG is that core's (R245, R241). DEDUCED, log 60. -/
def State.sameLaunch (s : State) (l : Launch) (m : RowMsg) : Bool :=
  m.sdev != s.mgr.devnum.toNat || ((s.physCore m.ten.toNat (m.h0.extractLsb' 39 8).toNat).any fun oc =>
    l.tags.any fun t => t.1 == oc && t.2 == m.h1.extractLsb' 8 56)

/-- The refusal of a row, on its way to the origin frame (R245). DEDUCED, log 60. -/
def State.refuse (s : State) (m : RowMsg) (full : Bool) : State :=
  s.send m.sdev (.refusal { ten := m.ten, score := m.dcore, ddev := m.sdev, dcore := (m.h0.extractLsb' 39 8).toNat, h0 := m.h0
                            h1 := m.h1, w := (m.h0.extractLsb' 15 11).toNat, data := [], full := full })

/-- A row at its destination (R245). DEDUCED, log 60. -/
def rowArrives (m : RowMsg) (s : State) : State :=
  match s.physCore m.ten.toNat m.dcore with
  | none => s.refuse m false
  | some c =>
    match s.runningOn c with
    | none => s.refuse m false
    | some l =>
      if l.ten ≠ m.ten then s.refuse m false
      else if !s.sameLaunch l m then s
      else
        let k := s.hartAt c m.dhart
        let i := k.inbox
        let w := (m.h0.extractLsb' 15 11).toNat
        if !k.place.placed ∨ k.place.launch ≠ l.id ∨ i.cap = 0 ∨ i.w.toNat ≠ w then s.refuse m false
        else if i.cap.toNat ≤ i.count.toNat then s.refuse m true
        else
          let slot := i.slot ((i.head.toNat + i.count.toNat) % i.cap.toNat)
          let pre := bytesOf 8 m.h0.toNat ++ bytesOf 8 m.h1.toNat
          (s.modCoreAt c fun y => y.putRow slot pre m.data).modHartAt c m.dhart fun k =>
            { k with inbox := { i with count := i.count + 1 } }

/-- ROW_ARRIVAL (R245). -/
def execRowArrival (k : BitVec 16) (s : State) : Out :=
  deliver k (fun m s => match m with
    | .row m => some (rowArrives m s)
    | _ => none) s

/-! ### Returns and refusals (11_route R256) -/

/-- A frame whose last contribution has been resolved closes (R256). -/
def Frame.settle (f : Frame) : Frame := if f.pending then f else f.close

/-- A return or a refusal at its origin core (R256). -/
def Core.answer (y : Core) (m : RetMsg) (refusal : Bool) : Core :=
  let fr : BitVec 2 := m.h0.extractLsb' 37 2
  let f := y.frame fr
  let row := (m.h0.extractLsb' 27 8).toNat
  let c := (m.h0.extractLsb' 26 1).toNat
  let i := 2 * row + c
  if m.h1.extractLsb' 8 56 ≠ y.ltag then y
  else if m.h0.extractLsb' 35 2 ≠ f.gen then { y with stale := satInc y.stale }
  else if f.st ≠ 1 then { y with late := satInc y.late }
  else if row ≥ f.nrow ∨ f.stat.getD i (some stNone) ≠ none then { y with stale := satInc y.stale }
  else if refusal then
    y.modFrame fr fun f => { f with stat := f.stat.set i (some (if m.full then stFull else stDest)) }.settle
  else if m.w ≠ f.w.toNat then { y with stale := satInc y.stale }
  else (y.putRow (f.contrib row c) [] m.data).modFrame fr fun f => { f with stat := f.stat.set i (some stOk) }.settle

/-- A return or a refusal delivered: without a core of the tenancy it is discarded. -/
def answerArrives (m : RetMsg) (refusal : Bool) (s : State) : State :=
  match s.physCore m.ten.toNat m.dcore with
  | none => s
  | some c => s.modCoreAt c fun y => y.answer m refusal

/-- RETURN_ARRIVAL (R256). -/
def execReturnArrival (k : BitVec 16) (s : State) : Out :=
  deliver k (fun m s => match m with
    | .ret m => some (answerArrives m false s)
    | _ => none) s
/-- REFUSAL_ARRIVAL (R256). -/
def execRefusalArrival (k : BitVec 16) (s : State) : Out :=
  deliver k (fun m s => match m with
    | .refusal m => some (answerArrives m true s)
    | _ => none) s
/-- FRAME_TIMEOUT: an open frame with a timeout closes (R256); on a core whose clocks are stopped no time passes
(01_machine R13, 15_device R348). DESIGN CHOICE, log 5. -/
def execFrameTimeout (fr : BitVec 2) (s : State) : Out :=
  let f := s.core.frame fr
  .next (if f.st = 1 ∧ f.timeout ≠ 0 ∧ s.core.power ≠ 2 then s.modCore fun y => y.modFrame fr Frame.close else s)

/-! ### Contributions (13_collective R297, R298) -/

/-- Bytes that a staged contribution takes. -/
def Contrib.size (m : Contrib) : Nat := m.elems.length * (memWidth m.fa.toNat / 8)
/-- Two contributions are of one chunk and step. -/
def Contrib.sameChunk (a b : Contrib) : Bool := a.handle == b.handle && a.step == b.step && a.chunk == b.chunk

/-- The core and hart that own a chunk, where they run a launch of the tenancy (R297). -/
def State.ownerHart (s : State) (ten : BitVec 6) (core hart : Nat) : Option Nat :=
  (s.physCore ten.toNat core).filter fun c =>
    (s.runningOn c).any (fun l => l.ten == ten) && (s.hartAt c hart).place.placed

/-- A reduction packet is for the record of a chunk that a core keeps for the launch it runs (R298). -/
def State.packetFor (s : State) (core handle chunk : Nat) (p : Packet) : Bool :=
  p.core == core && p.launch == (s.coreAt core).launch && p.handle == handle && p.chunk == chunk
/-- The reduction packet of a chunk's step waits in some stack. -/
def State.packetOf (s : State) (core : Nat) (m : Contrib) : Bool :=
  s.engines.any fun e => e.2.rq.any fun p => s.packetFor core m.handle m.chunk p && p.step == m.step

/-- The port of a core has taken this contribution, or is past its step (R298). DEDUCED, log 59. -/
def State.hasContrib (s : State) (c : Nat) (m : Contrib) : Bool :=
  let y := s.coreAt c
  let r := y.chunkRec m.handle m.chunk
  (y.staged.any fun x => x.sameChunk m && x.rank == m.rank) || r.ready m.step || r.failed.contains m.step || s.packetOf c m

/-- The staged contributions of a chunk and step in rank order, where every rank's is there. -/
def Core.allRanks (y : Core) (m : Contrib) : Option (List Contrib) :=
  (List.range m.ranks).mapM fun r => y.staged.find? fun x => x.sameChunk m && x.rank == r

/-- A reduction packet for the record waits in some stack. -/
def State.packetWaits (s : State) (core handle chunk : Nat) : Bool :=
  s.engines.any fun e => e.2.rq.any (s.packetFor core handle chunk)

/-- Every rank's contribution to an earlier step of the chunk is staged too: that step is combined first (R298). -/
def Core.earlierWaits (y : Core) (m : Contrib) : Bool :=
  y.staged.any fun x =>
    x.handle == m.handle && x.chunk == m.chunk && decide (x.step.toNat < m.step.toNat) && (y.allRanks x).isSome

/-- The contributions of a chunk that its port may combine now: every rank's is there, no earlier step is to come first
or still under way, and of a GATHER chunk the fetches of the last step have been served (R298). DEDUCED, log 59. -/
def State.combinable (s : State) (c : Nat) (m : Contrib) : Option (List Contrib) :=
  let y := s.coreAt c
  let r := y.chunkRec m.handle m.chunk
  if y.earlierWaits m || s.packetWaits c m.handle m.chunk || (m.gather && r.ls.isSome && decide (r.served + 1 < m.ranks))
  then none else y.allRanks m

/-- A contribution at its owner: staged, or discarded as a second one, and acknowledged, or refused (R297, R298). While
staging has no room it waits for a staged chunk that can be combined; where none can, what is held back would wait for
ever, and full staging adds only time. DEDUCED, log 59. -/
def contribArrives (m : Contrib) (s : State) : Option State :=
  let ack (s : State) (ok : Bool) : State :=
    s.send m.sdev (.contribAck m.sdev m.score m.shart m.id (m.chunk % m.ranks) ok)
  match s.ownerHart m.ten m.ocore m.ohart with
  | none => some (ack s false)
  | some c =>
    if s.hasContrib c m then some (ack s true)
    else if 2 ^ 21 < (((s.coreAt c).staged.map Contrib.size).sum + m.size)
        ∧ (s.coreAt c).staged.any (fun x => (s.combinable c x).isSome) then none
    else some (ack (s.modCoreAt c fun y => { y with staged := y.staged ++ [m] }) true)

/-- CONTRIBUTION_ARRIVAL (R298). -/
def execContributionArrival (k : BitVec 16) (s : State) : Out :=
  deliver k (fun m s => match m with
    | .contrib m => contribArrives m s
    | _ => none) s

/-! ### Combination (R298, 12_engines R279) -/

/-- Element `e` combined in ascending rank order, from the value of rank 0 as it is (R298). Where the contributions carry
different OP, FA, RM or SAT, those of rank 0 rule. DEDUCED, log 59. -/
def combineElem (ms : List Contrib) (e : Nat) : Nat :=
  match ms with
  | [] => 0
  | m :: r =>
    let fa := m.fa.toNat
    let rm := m.rm.toNat
    let at_ (x : Contrib) : Nat := (x.elems.getD e 0).toNat
    round fa 0 false 0 (r.foldl (fun acc x =>
      let v := value fa (at_ x)
      value fa (round fa rm m.sat 0 (if m.op = 0 then acc.add (rm == 2) v else (if m.op = 1 then maxV else minV) acc v)))
      (value fa (at_ m)))

/-- What a port records of a chunk, changed. -/
def Core.modRec (y : Core) (handle chunk : Nat) (f : ChunkRec → ChunkRec) : Core :=
  let r := f (y.chunkRec handle chunk)
  { y with recs := r :: y.recs.filter fun x => !(x.handle == handle && x.chunk == chunk) }

/-- The combined result of a step has been written (R298). -/
def ChunkRec.wrote (r : ChunkRec) (step : Word) : ChunkRec := { r with ls := some step, served := 0 }

/-- The bytes of a combined chunk. -/
def combineBytes (m : Contrib) (ms : List Contrib) : List Byte :=
  (List.range m.elems.length).flatMap fun e => bytesOf (memWidth m.fa.toNat / 8) (combineElem ms e)

/-- A combined chunk written by the port of a core, or handed to the stack it lies in as a reduction packet (R298,
12_engines R279); none where the packet queue is full. DEDUCED, log 52. -/
def State.putCombined (s : State) (c : Nat) (m : Contrib) (ms : List Contrib) (segs : List Seg) : Option State :=
  let bs := combineBytes m ms
  let bad := ms.any Contrib.marked
  match segs.find? fun g => regionOf g.pa == 0 with
  | some g =>
    let st := stackOf g.pa
    if 64 ≤ (s.stackAt st).rq.length then none
    else some (s.modStackAt st fun e => { e with rq := e.rq ++
      [{ segs := segs, bytes := bs, marks := bs.map fun _ => bad, ten := m.ten, core := c, launch := (s.coreAt c).launch
         handle := m.handle, chunk := m.chunk, step := m.step }] })
  | none =>
    some ((s.putRuns (fun g => s.writesThrough m.ten g.cls) m.step (runsOf segs) bs (bs.map fun _ => bad)).1.modCoreAt c
      fun y => y.modRec m.handle m.chunk fun r => r.wrote m.step)

/-- The port of a core combines the chunk of a staged contribution, step after step (R298); the place of the chunk and its
owner are those of that contribution. DESIGN CHOICE, log 7. DEDUCED, log 59. It writes at the lowest level of the harts
that contribute, so that no program reaches a page of the system level through it (00_scope R5). DESIGN CHOICE, log 108. -/
def combine (c : Nat) (m : Contrib) (s : State) : State :=
  match s.combinable c m with
  | none => s
  | some ms =>
    let clear (s : State) : State := s.modCoreAt c fun y => { y with staged := y.staged.filter fun x => !x.sameChunk m }
    let t := s.at c m.ohart
    let ps := checkRange { r := false, w := true, lpd := true, lane := false } (t.asLevel (ms.all Contrib.system)) (BitVec.ofNat 64 (m.chunk * m.stride))
      (m.elems.length * (memWidth m.fa.toNat / 8))
    match rangeReason [(0, ps)] with
    | some _ => clear (s.modCoreAt c fun y => y.modRec m.handle m.chunk fun r => { r with failed := r.failed ++ [m.step] })
    | none => match (t.dirtyPieces ps).putCombined c m ms (segsOf ps) with
      | none => s
      | some u => clear (u.at s.cc s.ch)

/-- COLLECTIVE_COMBINE at the core of the turn (R298). -/
def execCollectiveCombine (k : BitVec 16) (s : State) : Out :=
  match s.core.staged[k.toNat]? with
  | none => .next s
  | some m => .next (combine s.cc m s)

/-- The DRAM rows of 2 KiB that a packet writes (12_engines R279). -/
def Packet.rows (p : Packet) : List Nat :=
  p.segs.flatMap fun g => (List.range ((g.pa + g.n + 2047) / 2048 - g.pa / 2048)).map (g.pa / 2048 + ·)
/-- A packet written to memory, and to the DRAM row itself under a write-through class alone, as any store (08_memory R176).
DESIGN CHOICE, log 122. -/
def State.putPacket (s : State) (p : Packet) : State :=
  (s.putRuns (fun g => s.writesThrough p.ten g.cls) p.step (runsOf p.segs) p.bytes p.marks).1
/-- The oldest packet that can be applied, with the others in order: not one whose store waits for a drain (13_collective
R307), nor one that follows such a one in a row (12_engines R279); `held` are those passed over. DEDUCED, log 50. -/
def State.nextPacket (s : State) (held : List Packet) : List Packet → Option (Packet × List Packet)
  | [] => none
  | p :: r =>
    if (held.any fun h => h.rows.any p.rows.contains) || (s.putPacket p).storeWaits then s.nextPacket (held ++ [p]) r
    else some (p, held ++ r)

/-- REDUCTION_PACKET: the oldest packet of a stack that can be is applied between sub-operations of its cards (12_engines
R279). The record goes with the launch: the core may run another one by now, of another tenancy even (00_scope R5). -/
def execReductionPacket (st : BitVec 4) (s : State) : Out :=
  match s.nextPacket [] (s.stackAt st.toNat).rq with
  | none => .next s
  | some (p, r) =>
    let s := (s.modStackAt st.toNat fun e => { e with rq := r }).putPacket p
    .next (if s.packetFor p.core p.handle p.chunk p then
      s.modCoreAt p.core fun y => y.modRec p.handle p.chunk fun r => r.wrote p.step else s)

/-! ### Acknowledgements of VST.C (R297) -/

/-- The hart that a waiting word belongs to goes on, whatever has stopped its queues since (log 21). -/
def resumeAt (c h : Nat) (s : State) : State :=
  let t := s.at c h
  let k := t.hart
  let t := match headRun k.q.vq with
    | some xs => dispatchHead xs (2 ^ 32) t
    | none => t
  t.at s.cc s.ch

/-- CONTRIBUTION_ACK (R297). -/
def execContributionAck (k : BitVec 16) (s : State) : Out :=
  deliver k (fun m s => match m with
    | .contribAck _ c h id rank ok =>
      some (match (s.hartAt c h).q.stall with
        | .vstC i left refused =>
          if i ≠ id then s
          else
            let refused := if ok then refused else refused ++ [rank]
            let s := s.modHartAt c h fun k => k.modQ fun q => { q with stall := .vstC i (left - 1) refused }
            if left ≤ 1 then resumeAt c h s else s
        | _ => s)
    | _ => none) s

/-! ### Fetches of VLD.C (R299) -/

/-- A chunk read for a fetch through its owner's translation, at the level of the hart that fetches it (00_scope R5,
DESIGN CHOICE, log 108): the bytes, or why not. DEDUCED, log 33. -/
def State.chunkBytes (s : State) (c h : Nat) (system : Bool) (va : Word) (n : Nat) : Except (BitVec 8 × State) (List Byte × State) :=
  let t := (s.at c h).asLevel system
  let ps := checkRange { r := true, w := false, lpd := true, lane := false } t va n
  match rangeReason [(0, ps)] with
  | some (3, _) => .error (0x10, s)
  | some _ => .error (0x12, s)
  | none =>
    let rs := runsOf (segsOf ps)
    let locs := rs.flatMap Run.locs
    if locs.any s.marked then .error (0x19, s)
    else match locs.find? s.hasError with
      | some l => .error (0x1A, s.mark l)
      | none => .ok (locs.map (s.byteAt false), s)

/-- A fetch served by the chunk's owner (R299): not before the step's result is written.
DEDUCED, logs 33 and 59. -/
def fetchArrives (m : FetchMsg) (s : State) : Option State :=
  let answer (s : State) (bs : List Byte) (cause : BitVec 8) : State :=
    s.send m.sdev (.fetched m.sdev m.score m.shart m.id m.chunk bs cause)
  match s.ownerHart m.ten m.ocore m.ohart with
  | none => none
  | some c =>
    let r := (s.coreAt c).chunkRec m.handle m.chunk
    if r.failed.contains m.step then some (answer s [] 0x2A)
    else if !r.ready m.step then none
    else
      let s := s.modCoreAt c fun y => y.modRec m.handle m.chunk fun r =>
        { r with served := if r.ls = some m.step then r.served + 1 else r.served }
      match s.chunkBytes c m.ohart m.system (BitVec.ofNat 64 (m.chunk * m.stride)) m.stride with
      | .ok (bs, s) => some (answer s bs 0)
      | .error (cause, s) => some (answer s [] cause)

/-- A fetched chunk at the hart that waits for it: its elements, or its element fault (R299). DEDUCED, log 33. -/
def fetchedArrives (h id chunk : Nat) (bs : List Byte) (cause : BitVec 8) (s : State) : State :=
  let k := s.hart
  match k.q.stall, headRun k.q.vq with
  | .vldC i j, some xs =>
    match (xs.zipIdx.filterMap fun x => match instrOf x.1.word with
        | some (.vldC _ d _ _ off) => some (x.1, x.2, d, off)
        | _ => none).head? with
    | none => s
    | some (x, at_, d, off) =>
      let w := winOf x off
      let e0 := (chunk - w.first) * w.per
      let n := memWidth x.fmt.fa / 8
      if i ≠ id ∨ j ≠ chunk ∨ s.ch ≠ h then s
      else
        let s := s.modHart fun k => k.modQ fun q => { q with stall := .none }
        let es := k.q.flight.getD []
        if cause ≠ 0 then endConvoy xs (.fault es e0 cause (BitVec.ofNat 64 (chunk * w.str)) s)
        else
          let s := s.modHart fun k => (List.range w.per).foldl (fun k e =>
            k.setElem x.cfg d.toNat (contWidth x.fmt.fa) (e0 + e) (numAt bs n e)) k
          dispatchHead xs (2 ^ 32) (s.modHart fun k => k.modQ fun q => { q with
            flight := some ((List.range xs.length).map fun i => if i = at_ then e0 + w.per else es.getD i 0) })
  | _, _ => s

/-- CHUNK_FETCH: a fetch is served at the owner, or what was fetched reaches the hart that asked (R299). -/
def execChunkFetch (k : BitVec 16) (s : State) : Out :=
  deliver k (fun m s => match m with
    | .fetch m => fetchArrives m s
    | .fetched _ c h id chunk bs cause => some ((fetchedArrives h id chunk bs cause (s.at c h)).at s.cc s.ch)
    | _ => none) s

/-! ### Element trains (R302) -/

/-- An element at the destination: written, or the failure that stops the train (R302). -/
def trainElem (m : TrainMsg) (e : TrainElem) (s : State) : Option State × State :=
  let open_ := (List.range e.n).all fun i => memExists (e.pa + i) && s.windowOpen m.ten.toNat (e.pa + i)
  if !open_ then (none, s)
  else if s.hasError (.mem e.pa) then (none, s.markLine (lineOf e.pa))
  else if s.hasError (.mem (e.pa + e.n - 1)) then (none, s.markLine (lineOf (e.pa + e.n - 1)))
  else (some (s.writeAll { through := s.writesThrough m.ten e.cls, step := some m.step }
    [Acc.ofNat (.mem e.pa) e.n (e.data.toNat % 256 ^ e.n)]), s)

/-- The elements of a train in order up to the first that fails: the count written (R302). -/
def trainRun (m : TrainMsg) : List TrainElem → Nat → State → Nat × State
  | [], c, s => (c, s)
  | e :: r, c, s =>
    match trainElem m e s with
    | (some t, _) => trainRun m r (c + 1) t
    | (none, t) => (c, t)

/-- TRAIN_ARRIVAL (R302). -/
def execTrainArrival (k : BitVec 16) (s : State) : Out :=
  deliver k (fun m s => match m with
    | .train m =>
      let r := trainRun m m.elems 0 s
      some (r.2.send m.sdev (.trainAck m.ten m.sdev m.score m.shart m.id s.mgr.devnum.toNat r.1))
    | _ => none) s

/-- The result mask of the VSTR at the head of a hart's vector queue. -/
def Hart.vstrMask (k : Hart) : Option (BitVec 3) :=
  (headRun k.q.vq).bind fun xs => (xs.filterMap fun x => match instrOf x.word with
    | some (.vstr _ _ m _ _ _ _) => some m
    | _ => none).head?

/-- TRAIN_ACK, at the core that its number names in the tenancy (15_device R343): mask bits of elements at the count or later are cleared; after the last train VSTR ends (R302). -/
def execTrainAck (k : BitVec 16) (s : State) : Out :=
  deliver k (fun m s => match m with
    | .trainAck ten _ core h id from_ n =>
      let c := (s.physCore ten.toNat core).getD 128
      some (match (s.hartAt c h).q.stall with
        | .vstr i left f =>
          if i ≠ id then s
          else
            let lost := (left.filter fun p => p.1 == from_).flatMap fun p => p.2.drop n
            let rest := left.filter fun p => p.1 != from_
            let clear (k : Hart) : Hart := match k.vstrMask with
              | some m => lost.foldl (fun (k : Hart) e => k.setMaskBit m.toNat e false) k
              | none => k
            let s := s.modHartAt c h fun k => (clear k).modQ fun q => { q with stall := .vstr i rest f }
            if rest.isEmpty then resumeAt c h s else s
        | _ => s)
    | _ => none) s

end Sys2Proof.Machine
end

