-- ==== Sys2Proof/Machine/Launcher.lean ====
section
/-! DEFINITION. The launcher and the power controller: descriptors checked, launches placed and completed, grants and
levels (05_harts R104-R108, R114, R126, 11_route R241). -/

namespace Sys2Proof.Machine

/-! ### Descriptors (R104) -/

/-- A word of a descriptor. -/
def Desc.w (d : Desc) (i : Nat) : Word := d.words.toList.getD i 0
/-- Bits of a word of a descriptor as a number. -/
def Desc.f (d : Desc) (i lo len : Nat) : Nat := ((d.w i).extractLsb' lo len).toNat
/-- H. -/
def Desc.h (d : Desc) : Nat := d.f 1 0 8
/-- CORES. -/
def Desc.cores (d : Desc) : Nat := d.f 1 32 16
/-- LMBASE. -/
def Desc.lmbase (d : Desc) : Nat := d.f 2 0 16
/-- LMSIZE. -/
def Desc.lmsize (d : Desc) : Nat := d.f 2 16 16
/-- PTROOT; bits [15:0] read as zero (08_memory R168). -/
def Desc.ptroot (d : Desc) : Word := d.w 3 &&& ~~~0xFFFF

/-- The first refusal reason in the table's order, for a tenancy that holds `held` cores (R104). -/
def Desc.reason (d : Desc) (held : Nat) : Option Nat :=
  if (d.w 0).toNat % 4 ≠ 0 then some 5
  else if !([1, 2, 4, 8].contains d.h) then some 1
  else if !([8, 16, 32].contains (d.f 1 8 8)) then some 2
  else if d.f 1 18 6 ≠ 0 ∨ d.f 1 24 8 ≠ 0 then some 6
  else if d.cores = 0 ∨ d.cores > held then some 3
  else if d.f 1 48 16 ≠ 0 then some 6
  else if d.lmbase + d.h * d.lmsize > 8192 then some 4
  else if d.f 2 32 32 ≠ 0 then some 6
  else if (d.w 4).toNat % 8 ≠ 0 then some 7
  else if d.w 14 ≠ 0 ∨ d.w 15 ≠ 0 then some 6
  else none

/-- Where the launcher writes at a virtual address under a root, in some windows: an 8-aligned address with a writable
translation to the tenancy's memory. DEDUCED, log 58. -/
def State.doneAt (s : State) (ten : Nat) (ws : List (Nat × Nat × Nat)) (root va : Word) : Option (Leaf × Tr) :=
  if va.toNat % 8 ≠ 0 then none
  else match spaceOf va with
    | some .translated =>
      (s.walkIn ws root va.toNat).toOption.bind fun l => (leafApply ten va.toNat l).bind fun t =>
        if l.pte.getLsbD 2 && t.dev == s.mgr.devnum.toNat && decide (regionOf t.pa ≤ 1)
            && inWindows ws t.pa
        then some (l, t) else none
    | _ => none

/-- The line whose error the launcher's walk met is marked (08_memory R174). -/
def State.markDone (s : State) (ws : List (Nat × Nat × Nat)) (root va : Word) : State :=
  match s.walkIn ws root va.toNat with
  | .error (.error l) => s.markLine l
  | _ => s

/-- The completion word written, with D set first (R108, 08_memory R171); where it has no place, nothing is.
DEDUCED, log 58. -/
def State.writeDone (s : State) (ten : Nat) (ws : List (Nat × Nat × Nat)) (root va : Word) (v : Nat) : State :=
  match s.doneAt ten ws root va with
  | none => s.markDone ws root va
  | some (l, t) => (s.setDirtyBit l.at_).writeAll { through := s.writesThrough (BitVec.ofNat 6 ten) t.cls, step := none }
      [Acc.ofNat (.mem t.pa) 8 v]

/-! ### Check (R105) -/

/-- The head descriptor leaves its queue. -/
def State.popLaunch (s : State) (t : Nat) : State := s.modTenAt t fun x => { x with lq := x.lq.drop 1, checked := false }

/-- LAUNCH_CHECK (R105) in a running module: a refused launch starts no hart; its completion word says why, or, with DONE
unusable, ERRADDR and the error interrupt do. It looks through the windows as they will stand at the next placement
(15_device R357). DEDUCED, log 58. -/
def execLaunchCheck (t : BitVec 6) (s : State) : Out :=
  let n := t.toNat
  if s.mgr.state ≠ 1 then .next s
  else match (s.tenAt n).lq, (s.tenAt n).checked with
  | d :: _, false =>
    let ws := (s.tenAt n).openWins
    .next (match s.doneAt n ws d.ptroot (d.w 5), d.reason (8 * (s.groupsOf n).length) with
      | none, _ => (((s.markDone ws d.ptroot (d.w 5)).popLaunch n).modTenAt n fun x => { x with erraddr := d.src }).raise n 0
      | some _, some r => (s.writeDone n ws d.ptroot (d.w 5) (256 * r + 2)).popLaunch n
      | some _, none => s.modTenAt n fun x => { x with checked := true })
  | _, _ => .next s

/-! ### Placement (R106, R107, 11_route R241) -/

/-- The physical cores of a tenancy in its own order. -/
def State.coresOf (s : State) (t : Nat) : List Nat := (s.groupsOf t).flatMap fun g => (List.range 8).map (8 * g + ·)
/-- A core is idle (R106, 12_engines R287). -/
def State.idleCore (s : State) (c : Nat) : Bool := (s.coreAt c).launch.isNone

/-- A placed hart (R107). An LMBASE of 8,192, which R104 allows with an LMSIZE of 0, is kept as 0. DESIGN CHOICE, log 100. -/
def placedHart (d : Desc) (ten : BitVec 6) (id j k : Nat) (stvec : Word) (dbg : Bool) : Hart :=
  { Hart.init with
    pc := d.w 0
    sregs := Vector.ofFn fun (i : Fin 32) => if 3 ≤ i.val ∧ i.val ≤ 10 then d.w (i.val + 3) else 0
    trap := { TrapRegs.init with stvec := stvec, dbg := dbg }
    cfg := Cfg.init (BitVec.ofNat 64 (d.f 1 8 8))
    place := { placed := true, launch := id, ten := ten, h := BitVec.ofNat 8 d.h, lcore := BitVec.ofNat 8 j,
               prio := BitVec.ofNat 2 (d.f 1 16 2), levels := [] }
    lmbase := BitVec.ofNat 13 (d.lmbase + k * d.lmsize)
    lmsize := BitVec.ofNat 14 d.lmsize
    ptroot := d.ptroot }

/-- A core that takes a launch (R106, 11_route R241, 02_stream R31, 12_engines R283, 13_collective R294). The round of each
of its resources starts anew (01_machine R23). DESIGN CHOICE, log 2. -/
def Core.take (y : Core) (id : Nat) (hs : List Hart) : Core :=
  { y with
    harts := hs.zipIdx.map fun p => (p.2, p.1)
    launch := some id
    routes := Vector.replicate 64 0
    frames := Vector.replicate 4 Frame.init
    lost := 0
    stale := 0
    late := 0
    ltag := y.ltag + 1
    chans := Vector.replicate 4 { cmds := [], cwp := 0, started := false, chunk := 0 }
    groups := []
    staged := []
    recs := []
    icache := []
    lastGrant := [] }

/-- Written windows take effect, and the cached translations of the tenancy's cores go (15_device R357); a snapshot that
would leave them fails first (00_scope R5). DEDUCED, log 61. DESIGN CHOICE, log 90. -/
def State.settleWindows (s : State) (t : Nat) : State :=
  if (s.tenAt t).winSet then
    let s := if s.snapshotIn t (s.tenAt t).openWins then s else s.failSnapshot t 4
    (s.coresOf t).foldl (fun (s : State) c => s.modCoreAt c fun y => { y with tlb := [] })
      (s.modTenAt t fun x => { x with wins := x.openWins, winSet := false })
  else s

/-- A checked descriptor placed on cores (R106); Propolis takes its units and harts in while it is armed
(13_collective R305). -/
def State.placeLaunch (s : State) (t : BitVec 6) (d : Desc) (cs : List Nat) : State :=
  let n := t.toNat
  let x := s.tenAt n
  let id := s.freshId.1
  let hart (j k : Nat) : Hart := placedHart d t id j k x.trapvec x.session
  let s := cs.zipIdx.foldl (fun (s : State) p =>
    s.modCoreAt p.1 fun y => y.take id ((List.range d.h).map (hart p.2))) (s.freshId.2.settleWindows n)
  let l : Launch :=
    { id := id, ten := t, h := d.h, cores := cs, tags := cs.map fun c => (c, (s.coreAt c).ltag), left := d.h * cs.length
      prio := BitVec.ofNat 2 (d.f 1 16 2), ptroot := d.ptroot, groups := d.w 4, done := d.w 5, farms := [] }
  let s : State := { s with launches := s.launches ++ [l] }
  if (s.tenAt n).prop.st = 1 ∨ (s.tenAt n).prop.st = 2 then
    let us := s.snUnits n d.ptroot
    s.modTenAt n fun x => { x with prop := { x.prop.note us with
      uncut := x.prop.uncut ++ cs.flatMap fun c => (List.range d.h).map fun k => (c, k) } }
  else s

/-- LAUNCH_PLACE in a running module: the head launch takes the lowest-numbered idle cores, as many as it wants, at once
(R106). DEDUCED, log 58. -/
def execLaunchPlace (t : BitVec 6) (s : State) : Out :=
  let n := t.toNat
  if s.mgr.state ≠ 1 then .next s
  else match (s.tenAt n).lq, (s.tenAt n).checked with
  | d :: _, true =>
    let cs := ((s.coresOf n).filter s.idleCore).take d.cores
    .next (if cs.length < d.cores then s else (s.popLaunch n).placeLaunch t d cs)
  | _, _ => .next s

/-- LAUNCH_COMPLETE: the completion word of a launch whose last hart has exited (R106, R108), through the windows in effect:
what has been written to them since takes effect at the next placement (15_device R357). DEDUCED, log 58. -/
def execLaunchComplete (k : BitVec 16) (s : State) : Out :=
  match s.launches[k.toNat]? with
  | none => .next s
  | some l =>
    if l.left ≠ 0 then .next s
    else .next ({ s with launches := s.launches.filter fun x => x.id != l.id }.writeDone l.ten.toNat (s.tenAt l.ten.toNat).wins l.ptroot l.done
      (2 ^ 32 * (l.h * l.cores.length) + 1))

/-! ### Power and levels (R114, R126, 01_machine R13) -/

/-- VGRANT_WRITE: the power controller writes only 1 to 8 (R114). -/
def execVgrantWrite (core : BitVec 7) (g : BitVec 4) (s : State) : Out :=
  .next (if 1 ≤ g.toNat ∧ g.toNat ≤ 8 then s.modCoreAt core.toNat fun y => { y with vgrant := g } else s)
/-- COMB_RATE_HALVE (R114, 01_machine R13): it shows in timing and in the core's power state. -/
def execCombRateHalve (core : BitVec 7) (half : Bool) (s : State) : Out :=
  .next (s.modCoreAt core.toNat fun y => { y with halfRate := half })

/-- The hart's level at a resource (R126). -/
def Place.level (p : Place) (r : Resource) : BitVec 2 := ((p.levels.find? fun q => q.1 == r).map Prod.snd).getD p.prio
/-- The shared resource that an access to a place takes (01_machine R23). -/
def Loc.uses : Loc → List Resource
  | .mem _ => [.slice]
  | .lm .. => [.banks]
  | .reg .. => []
/-- The register that holds an atomic's address. -/
def amoAddress : Instr → Option (BitVec 5)
  | .amoAdd _ a .. | .amoSwap _ a .. | .amoCas _ a .. | .amoAnd _ a .. | .amoOr _ a .. | .amoMax _ a .. | .amoMin _ a .. =>
    some a
  | _ => none
/-- The resources that an instruction of the scalar stream takes as it issues: the issue slot, and an atomic's access. -/
def State.issueUses (s : State) (i : Instr) : List Resource :=
  .issue :: match amoAddress i with
    | some a => memUses (s.rd a)
    | none => []
/-- The instruction that the hart's scalar stream would issue next. -/
def State.nextInstr (s : State) : Option Instr :=
  match s.fetch32 s.hart.pc with
  | .ok (w, _) => (decode32 w).toOption
  | .error _ => none

/-- What the hart's next word takes as it issues: the issue slot, and an atomic's access. -/
def State.nextUses (s : State) : List Resource := (s.nextInstr.map s.issueUses).getD [.issue]
/-- An instruction that never waits as it issues, and that may yet leave the PC as it was: a jump to itself, a return
there, or a trap whose handler stands at the word (04_scalar R99, R100, 14_system R313, R321). -/
def goesOn : Instr → Bool
  | .beq .. | .bne .. | .blt .. | .bge .. | .bltu .. | .bgeu .. | .jal .. | .jalr .. | .tret | .vret
  | .svc | .brk | .illegalInstruction _ => true
  | _ => false
/-- The hart's next scalar instruction is ready (04_scalar R87): it may issue and no register holds it back. -/
def State.issueAsked (s : State) : Bool :=
  s.hart.mayIssue && s.hart.wait == .none && match s.fetch32 s.hart.pc with
    | .ok (w, t) => match decode32 w with
      | .ok i => (t.gate i).isNone
      | .error _ => true
    | .error _ => true
/-- A word that waits for what comes or for its clocks, and asks for what it uses once either is there (05_harts R124,
20_prog_moe R366). -/
def VStall.comes : VStall → Bool
  | .rrecv | .fwait | .vwait _ => true
  | _ => false
/-- The resources that the hart's work may be granted now: the issue slot for its next scalar instruction and an atomic's
access, a slice port or the banks for a load's data or a buffered store, the Comb and what else the head of its comb
queue uses, and what the words at the head of its vector queue use (R126). The clocks of an RRECV may have passed by now
(log 5), and with them it asks for the route unit (20_prog_moe R366). -/
def State.awaited (s : State) : List Resource :=
  let k := s.hart
  (if s.issueAsked then s.nextUses else [])
  ++ (match k.wait with
    | .load r => r.loc.uses
    | _ => [])
  ++ (match k.sbuf with
    | b :: _ => b.loc.uses
    | [] => [])
  ++ (match k.q.cq with
    | x :: _ => if k.queuesRun [x] && s.combFree (x, x.meaning s) then .comb :: (x.meaning s).uses else []
    | [] => [])
  ++ (match headRun k.q.vq with
    | some xs =>
      let ws := xs.map (Entry.cword s)
      if k.queuesRun xs && ((k.q.stall.open_ && s.convoyFree ws) || k.q.stall.comes)
      then (if k.q.stall == .rrecv then [.route, .banks] else []) ++ s.headUses xs else []
    | none => [])

/-- ARBITRATION_PROMOTION: the level of a hart that waits for the resource rises by one, up to 3 (R126).
DESIGN CHOICE, log 5. -/
def execArbitrationPromotion (r : Resource) (s : State) : Out :=
  .next (if s.awaited.contains r then s.modHart fun k => { k with place := { k.place with
    levels := (r, if k.place.level r = 3 then 3 else k.place.level r + 1) :: k.place.levels.filter fun p => p.1 != r } }
  else s)

end Sys2Proof.Machine
end

