-- ==== Sys2Proof/Machine/Block.lean ====
section
/-! DEFINITION. Handing a block to the queues and placing its words (02_stream R37-R46). -/

namespace Sys2Proof.Machine

/-- A scalar word that is illegal where it stands: cause 0x01 with the word (02_stream R28). -/
def illegal (i : Instr) (s : State) : Out := trap 0x01 (((encode32 i).getD 0).setWidth 64) s

/-! ### Placement (R37, R39, R40) -/

/-- A block handed over from its address (R37); one that finds BPC past its VSTOP places nothing and leaves BPC (R40).
DEDUCED, log 56. -/
def block (i : Instr) (base : Word) (s : State) : Out :=
  let k := s.hart
  if k.trap.system && (k.q.vq ++ k.q.cq).any Entry.pre then illegal i s
  else if base.toNat % 8 ≠ 0 then trap 0x08 base s
  else if k.vec.vs = 0 then trap 0x07 0 s
  else match s.scan base 256 base [] with
    | .error (f, t) => trap f.1 f.2 t
    | .ok (ws, t) =>
      if ws.any fun w => (wordSources w).any k.pending then .next t
      else match (k.captureAll base ws).drop k.vec.bpc.toNat with
        | [] => .next (t.retireTo true (t.hart.pc + 4))
        | rest => .next (t.modHart fun k => { k with wait := .placing rest })

/-- VBLK (R37). DEDUCED, log 56. -/
def execVblk (off : BitVec 21) (s : State) : Out :=
  block (.vblk off) (s.hart.vblkBase off) s
/-- VBLKR (R37). -/
def execVblkr (a : BitVec 5) (imm : BitVec 16) (s : State) : Out :=
  block (.vblkr a imm) (s.hart.vblkrBase a imm) s

/-- An entry enters its queue with the next place in placement order (R39). -/
def Queues.place (q : Queues) (x : Entry) : Queues :=
  let x := { x with seq := q.nextSeq }
  if isCombWord x.word then { q with cq := q.cq ++ [x], nextSeq := q.nextSeq + 1 }
  else { q with vq := q.vq ++ [x], nextSeq := q.nextSeq + 1 }

/-- The queue of a word has a free entry (R39). -/
def Queues.room (q : Queues) (w : Word) : Bool :=
  if isCombWord w then decide (q.cq.length < 32) else decide (q.vq.length < 64)

/-- BLOCK_WORD_PLACE: the next word of the block enters its queue; with the VSTOP the VBLK completes (R37, R39).
DEDUCED, log 56. -/
def execBlockWordPlace (s : State) : Out :=
  let k := s.hart
  match k.wait with
  | .placing (x :: r) =>
    if !k.q.room x.word then .next s
    else
      let s := s.modHart fun k => k.modQ fun q => q.place x
      .next (match r with
        | [] => (s.modHart fun k => k.modVec fun v => { v with bpc := 0 }).advance
        | _ => s.modHart fun k => { (k.modVec fun v => { v with bpc := v.bpc + 1 }) with wait := .placing r })
  | _ => .next s

end Sys2Proof.Machine
end

