-- ==== Sys2Proof/Machine/Sys.lean ====
section
/-! DEFINITION. The SYS instructions that trap, return and move the queues (14_system R319-R321, R325-R327). -/

namespace Sys2Proof.Machine

/-! ### Traps and returns (R320, R321) -/

/-- SVC (R320). -/
def execSvc (s : State) : Out := trap 0x23 0 s
/-- BRK (R320). -/
def execBrk (s : State) : Out := trap 0x22 0 s

/-- The steps that TRET and VRET share after their checks (R321). -/
def returnFrom (vret : Bool) (s : State) : Out :=
  if s.hart.trap.sepc.toNat % 4 ≠ 0 then trap 0x08 s.hart.trap.sepc s
  else .next ((s.complete 0).modHart fun k => if k.halted then (k.returnTrap vret).halt else k.returnTrap vret)
/-- TRET (R321). -/
def execTret (s : State) : Out :=
  if !s.hart.trap.system || s.hart.vec.vp then illegal .tret s else returnFrom false s
/-- VRET (R321). -/
def execVret (s : State) : Out :=
  if !s.hart.trap.system then illegal .vret s else returnFrom true s

/-! ### The queue image (R325) -/

/-- The words of both queues merged in placement order. -/
def merge : Nat → List Entry → List Entry → List Entry
  | 0, _, _ => []
  | _, [], ys => ys
  | _, xs, [] => xs
  | n + 1, x :: xs, y :: ys => if x.seq ≤ y.seq then x :: merge n xs (y :: ys) else y :: merge n (x :: xs) ys

/-- NREG as an A entry codes it. -/
def nregCode (n : Word) : Word := if n = 8 then 0 else if n = 16 then 1 else 2
/-- Two 32-bit halves, the first the low one. -/
def pair32 (lo hi : BitVec 32) : Word := hi ++ lo

/-- Configuration entries A and B. -/
def cfgWords (c : Cfg) : List Word :=
  [c.vl,
   2 ||| ((c.vtype &&& 0x1F) <<< 3) ||| ((c.vtype >>> 63) <<< 8) ||| (nregCode c.nreg <<< 9)
     ||| (c.cgrp.setWidth 64 <<< 11) ||| (c.copr.setWidth 64 <<< 27) ||| ((c.cstr.setWidth 64 >>> 8) <<< 40),
   c.cstep, pair32 c.bs[0] c.bs[1],
   pair32 c.bs[2] c.bs[3], 3 ||| (c.bs[4].setWidth 64 <<< 32), pair32 c.bs[5] c.bs[6], c.bs[7].setWidth 64]
/-- A word entry; `comb` says that it stands in the comb queue. -/
def entryWords (comb : Bool) (x : Entry) : List Word := [x.word, (x.addr &&& ~~~7) ||| (if comb then 1 else 0), x.sval, x.fval]

/-- The image of words in order, after a configuration where one was written. -/
def imageWords (comb : Entry → Bool) : Option Cfg → List Entry → List Word
  | _, [] => []
  | prev, x :: r =>
    (if prev = some x.cfg then [] else cfgWords x.cfg) ++ entryWords (comb x) x ++ imageWords comb (some x.cfg) r

/-- The image of a hart's queues, in 8-byte words. -/
def Hart.image (k : Hart) : List Word :=
  imageWords (fun x => k.q.cq.any fun y => y.seq == x.seq) none (merge (k.q.vq.length + k.q.cq.length) k.q.vq k.q.cq)

/-- The image written to pieces of its range (08_memory R174): each piece is one run of bytes of a page. -/
def putImage : List (Part × Nat) → List Word → State → State
  | [], _, s => s
  | (p, n) :: r, ws, s =>
    let here : List Word := ws.take (n / 8)
    let s : State := match p.loc with
      | .reg t off => (here.zipIdx).foldl (fun (s : State) w => s.writeReg t.toNat (off + 8 * w.2) 8 w.1) s
      | loc => s.writeAll { through := s.writesThrough s.hart.place.ten p.cls, step := some s.hart.cfg.cstep }
          [{ loc := loc, bytes := (here.flatMap fun (w : Word) => bytesOf 8 w.toNat).map fun b => (b, 0xFF) }]
    putImage r (ws.drop (n / 8)) s

/-- The pieces of a range checked in increasing order for a store of the scalar agent (04_scalar R97). -/
def State.checkPieces (s : State) (k : AccessKind) : List (Word × Nat) → Except Failure (List (Part × Nat))
  | [] => .ok []
  | (a, n) :: r =>
    match s.checkParts s.cc s.hart k 8 [(a, n)], s.hart.pieceOutside a n with
    | .error f, _ => .error f
    | .ok _, some f => .error (0x13, f)
    | .ok ps, none => match s.checkPieces k r with
      | .error f => .error f
      | .ok qs => .ok (ps.map (fun p => (p, n)) ++ qs)

/-- VQSAVE (R326). It waits for a word that runs, and for the stores before it. DEDUCED, logs 54 and 64. -/
def execVqsave (d a : BitVec 5) (s : State) : Out :=
  let va := s.rd a
  let k := s.hart
  if !k.trap.system then illegal (.vqsave d a) s
  else if va.toNat % 32 ≠ 0 then trap 0x08 va s
  else if k.wordRuns || k.q.comb.isSome || !k.sbuf.isEmpty then .next s
  else
    let ws := k.image
    match s.checkPieces .put (if ws = [] then [] else unitPieces 3 va (8 * ws.length)) with
    | .error f => trap f.1 f.2 s
    | .ok ps =>
      let s := putImage ps ws ((s.setDirty (ps.map Prod.fst)).touch s.cc s.hart va)
      finish d (BitVec.ofNat 64 (ws.length / 4)) (s.modHart fun k =>
        { k with q := { k.q with vq := [], cq := [], vv := [], flight := none, begun := none, owed := none }, vec := { k.vec with vp := false } })

/-! ### VQLOAD (R327) -/

/-- The configuration of an A entry and its B entry. -/
def cfgOf (a b : List Word) : Cfg :=
  let x := a.getD 1 0
  let lo (w : Word) : BitVec 32 := w.extractLsb' 0 32
  let hi (w : Word) : BitVec 32 := w.extractLsb' 32 32
  { vl := a.getD 0 0
    vtype := (x.extractLsb' 3 5).setWidth 64 ||| ((x.extractLsb' 8 1).setWidth 64 <<< 63)
    nreg := [8, 16, 32].getD (x.extractLsb' 9 2).toNat 32
    cgrp := x.extractLsb' 11 16, copr := x.extractLsb' 27 13, cstr := (x.extractLsb' 40 17) ++ (0 : BitVec 8)
    cstep := a.getD 2 0
    bs := #v[lo (a.getD 3 0), hi (a.getD 3 0), lo (b.getD 0 0), hi (b.getD 0 0), hi (b.getD 1 0), lo (b.getD 2 0),
             hi (b.getD 2 0), lo (b.getD 3 0)] }

/-- The words of a list by fours. -/
def byFours : Nat → List Word → List (List Word)
  | 0, _ => []
  | n + 1, ws => if ws = [] then [] else ws.take 4 :: byFours n (ws.drop 4)

/-- An entry's kind. -/
def kindOf (e : List Word) : Nat := (e.getD 1 0).toNat % 8

/-- The words that an image places, each with whether it is for the comb queue; or the number of its first bad
entry. `i` entries stand before, `nv` vector and `nc` comb words among them. DEDUCED, log 64. -/
def parseImage : List (List Word) → Nat → Option Cfg → Nat → Nat → Except Nat (List (Bool × Entry))
  | [], _, _, _, _ => .ok []
  | [e], i, cfg, nv, nc =>
    match kindOf e, cfg with
    | 0, some c => if nv < 64 then .ok [(false, wordOf e c)] else .error i
    | 1, some c => if nc < 32 then .ok [(true, wordOf e c)] else .error i
    | _, _ => .error i
  | e :: f :: r, i, cfg, nv, nc =>
    match kindOf e, cfg with
    | 0, some c => if nv < 64 then (parseImage (f :: r) (i + 1) cfg (nv + 1) nc).map ((false, wordOf e c) :: ·) else .error i
    | 1, some c => if nc < 32 then (parseImage (f :: r) (i + 1) cfg nv (nc + 1)).map ((true, wordOf e c) :: ·) else .error i
    | 2, _ =>
      if kindOf f = 3 ∧ (e.getD 1 0).extractLsb' 9 2 ≠ 3 then parseImage r (i + 2) (some (cfgOf e f)) nv nc else .error i
    | _, _ => .error i
where
  /-- A word entry, as it stands until the hart returns from its trap; until then it keeps no register pending and holds
  none, as the words before the trap. DEDUCED, log 72. -/
  wordOf (e : List Word) (c : Cfg) : Entry :=
    { word := e.getD 0 0, addr := (e.getD 1 0) &&& ~~~7, sval := e.getD 2 0, fval := e.getD 3 0, cfg := c, seq := 0, pre := true }

/-- An address that system level can fetch from, and program level cannot (R309, 08_memory R170). -/
def State.systemOnly (s : State) (va : Word) : Bool :=
  match spaceOf va, s.walkStage s.cc s.hart .fetch va.toNat with
  | some .translated, .ok (l, t) =>
    let k (system : Bool) : Hart := s.hart.modTrap fun r => { r with system := system }
    !s.permFails (k true) .fetch 4 l t && s.permFails (k false) .fetch 4 l t
  | _, _ => false

/-- A loaded word in its queue, `prog` saying of its address whether it acts at program level (R364, 00_scope R5). -/
def Queues.load (prog : Word → Bool) (q : Queues) (p : Bool × Entry) : Queues :=
  let x := { p.2 with seq := q.nextSeq, prog := prog p.2.addr }
  if p.1 then { q with cq := q.cq ++ [x], nextSeq := q.nextSeq + 1 } else { q with vq := q.vq ++ [x], nextSeq := q.nextSeq + 1 }

/-- VQLOAD (R327). The words that it loads are a program's, but for those that a nested handler loads from where system level
alone can fetch (00_scope R5). DEDUCED, logs 46, 54, 64 and 109. -/
def execVqload (a b : BitVec 5) (s : State) : Out :=
  let va := s.rd a
  let n := (s.rd b).toNat
  if !s.hart.trap.system || s.hart.queued then illegal (.vqload a b) s
  else if n > 288 then trap 0x01 (s.rd b) s
  else if va.toNat % 32 ≠ 0 then trap 0x08 va s
  else if !s.hart.sbuf.isEmpty then .next s
  else match s.readWords (4 * n) va with
    | .error (f, t) => trap f.1 f.2 t
    | .ok ws =>
      match parseImage (byFours n ws) 0 none 0 0 with
      | .error i => trap 0x01 (va + BitVec.ofNat 64 (32 * i)) s
      | .ok xs =>
        .next ((s.touch s.cc s.hart va).modHart fun k => k.modQ fun q => xs.foldl (Queues.load fun a => !(k.trap.spp && s.systemOnly a)) q).advance

end Sys2Proof.Machine
end

