-- ==== Sys2Proof/Machine/Debug.lean ====
section
/-! DEFINITION. The debug port's commands (15_device R349, R350, R358, 14_system R333). -/

namespace Sys2Proof.Machine

/-! ### Selection and results -/

/-- The tenancy that DBGSEL names. -/
def Mgr.selTen (m : Mgr) : Nat := (m.dbgsel.extractLsb' 0 6).toNat
/-- The hart number that DBGSEL names. -/
def Mgr.selHart (m : Mgr) : Nat := (m.dbgsel.extractLsb' 24 3).toNat
/-- The physical core that DBGSEL names; none where the tenancy does not hold it. -/
def State.selCore (s : State) : Option Nat := s.physCore s.mgr.selTen (s.mgr.dbgsel.extractLsb' 16 7).toNat

/-- A command completes: DONE. -/
def State.dbgDone (s : State) : State := s.modMgr fun m => { m with dbgres := 1 }
/-- A command is refused with a reason: nothing else changes. -/
def State.dbgRefuse (s : State) (r : Nat) : State := s.modMgr fun m => { m with dbgres := BitVec.ofNat 64 (3 + 256 * r) }

/-- A command written to DBGCMD: in a module that is OFF or not verified, or while the command before is not done, it is
ignored (R356, R358). -/
def dbgCommand (f : State → State) (s : State) : Out :=
  .next (if s.mgr.state = 2 ∨ s.mgr.state = 3 ∨ s.mgr.busy.isSome then s else f s)
/-- A command under way on a hart: DONE comes with its end. -/
def State.dbgBusy (s : State) (c h : Nat) : State := s.modMgr fun m => { m with dbgres := 0, busy := some (c, h) }

/-- What a command other than NONCE and TOKEN needs of the module (R349): 6 where it is not running, 1 where the
security state forbids it. -/
def State.dbgForbids (s : State) : Option Nat :=
  if s.mgr.state ≠ 1 then some 6
  else if s.mgr.sec && !(s.tenAt s.mgr.selTen).token then some 1
  else none
/-- What a command on a session needs (R358). -/
def State.dbgSession (s : State) : Option Nat :=
  match s.dbgForbids with
  | some r => some r
  | none => if (s.tenAt s.mgr.selTen).session then none else some 2

/-- A command on the selected core of a session, or its refusal. DEDUCED, log 62. -/
def onCore (f : Nat → State → State) (s : State) : State :=
  match s.dbgSession, s.selCore with
  | some r, _ => s.dbgRefuse r
  | none, none => s.dbgRefuse 3
  | none, some c => f c s
/-- A command on the selected hart of a session; `halted` says that it must be halted. DEDUCED, log 62. -/
def onHart (halted : Bool) (f : Nat → Nat → State → State) (s : State) : State :=
  onCore (fun c s =>
    let h := s.mgr.selHart
    let k := s.hartAt c h
    if !k.place.placed then s.dbgRefuse 3
    else if halted && !k.halted then s.dbgRefuse 4
    else f c h s) s

/-! ### Tokens and sessions (R350) -/

/-- NONCE (R358). -/
def execNonce (s : State) : Out :=
  dbgCommand (fun s => if s.mgr.state ≠ 1 then s.dbgRefuse 6
    else (s.modMgr fun m => { m with dbgnonce := Vector.ofFn fun (i : Fin 4) => Config.nonce s.tick i.val }).dbgDone) s

/-- A word of the token staging. -/
def Mgr.bufWord (m : Mgr) (i : Nat) : Word := mget 0 m.dbgbuf i
/-- The staged public key: 1,793 bytes in 225 words. -/
def Mgr.bufKey (m : Mgr) : List Word := (List.range 225).map m.bufWord
/-- The staged signature: 1,280 bytes in 160 words. -/
def Mgr.bufSig (m : Mgr) : List Word := (List.range 160).map fun i => m.bufWord (225 + i)
/-- TKEYt: eight words. -/
def Mgr.tkey (m : Mgr) (t : Nat) : List Word := (List.range 8).map fun i => mget 0 m.tkeys (8 * t + i)

/-- The staged token is accepted (R350): its key's digest is TKEYt, which is not all zeros, and its signature of the
hash of tenancy, identity and nonce verifies. -/
def State.tokenGood (s : State) : Bool :=
  let t := s.mgr.selTen
  let key := s.mgr.bufKey
  let msg := padTo 8 (Config.shake256 (BitVec.ofNat 64 t :: s.identity ++ s.mgr.dbgnonce.toList) 8)
  s.mgr.tkey t != List.replicate 8 0 && padTo 8 (Config.shake256 key 8) == s.mgr.tkey t
    && Config.falconVerify key msg s.mgr.bufSig

/-- TOKEN (R350, R358). -/
def execToken (s : State) : Out :=
  dbgCommand (fun s => if s.mgr.state ≠ 1 then s.dbgRefuse 6
    else if s.tokenGood then (s.modTenAt s.mgr.selTen fun x => { x with token := true }).dbgDone
    else s.dbgRefuse 5) s

/-- SSTATUS.DBG of the tenancy's harts. -/
def State.setDbg (s : State) (t : Nat) (on : Bool) : State :=
  (s.hartsOf t).foldl (fun (s : State) h => s.modHartAt h.1 h.2 fun k => k.modTrap fun r => { r with dbg := on }) s

/-- ATTACH (R358). -/
def execAttach (s : State) : Out :=
  dbgCommand (fun s =>
    let t := s.mgr.selTen
    match s.dbgForbids with
    | some r => s.dbgRefuse r
    | none => (((s.modTenAt t fun x => { x with session := true }).setDbg t true).raise t 2).dbgDone) s

/-- A resume: VRET to the halted PC (14_system R333); words from before a trap stay stopped.
DEDUCED, logs 49 and 64. -/
def Hart.resume (k : Hart) : Hart :=
  let k := { k with halted := false }
  match k.q.vq with
  | x :: _ =>
    if k.vec.vp ∧ k.vec.vs ≠ 0 ∧ !x.pre then k.restart else k
  | [] => if k.vec.vs ≠ 0 ∧ !(k.q.cq.any Entry.pre) ∧ !k.trap.system then { k with vec := { k.vec with vp := false } } else k

/-- The trace of a hart stops where its core is one of some (R349, R358). -/
def State.untrace (s : State) (f : Nat → Bool) : State :=
  s.modMgr fun m => { m with traced := m.traced.filter fun p => !f p.1 }

/-- A session ends (R348, R358): its harts go on, its token goes, and no hart of the tenancy is traced any more. -/
def State.endSession (s : State) (t : Nat) : State :=
  let s := s.untrace fun c => s.ownerOf c == t
  let s := (s.hartsOf t).foldl (fun (s : State) h => s.modHartAt h.1 h.2 fun k => if k.halted then k.resume else k) s
  ((s.modTenAt t fun x => { x with session := false, token := false }).setDbg t false).raise t 2

/-- DETACH (R358). -/
def execDetach (s : State) : Out :=
  dbgCommand (fun s => match s.dbgSession with
    | some r => s.dbgRefuse r
    | none => (s.endSession s.mgr.selTen).dbgDone) s

/-! ### Running harts (14_system R333) -/

/-- HALT: as a pre-emption it lets an instruction that has begun complete first (05_harts R120, 09_order R214). -/
def execHalt (s : State) : Out :=
  dbgCommand (onHart false fun c h s =>
    if (s.hartAt c h).halted then s.dbgDone
    else if (s.hartAt c h).wait = .begun then (s.modHartAt c h fun k => { k with dbgStep := true }).dbgBusy c h
    else ({ (s.at c h).haltHart with cc := s.cc, ch := s.ch }).dbgDone) s
/-- RESUME. -/
def execResume (s : State) : Out :=
  dbgCommand (onHart true fun c h s => (s.modHartAt c h Hart.resume).dbgDone) s
/-- STEP: the hart goes on for one scalar instruction, at whose end it halts again and the command is done. -/
def execStep (s : State) : Out :=
  dbgCommand (onHart true fun c h s => (s.modHartAt c h fun k => { k.resume with dbgStep := true }).dbgBusy c h) s

/-! ### Reading and writing (R358) -/

/-- What DBGADDR names: a place, or none for a bad space or index. -/
inductive DbgPlace where
  | sreg (r : BitVec 5)
  | csr (n : Nat)
  | chunk (v k : Nat)
  | mask (m k : Nat)
  | tile (t row col : Nat)
  | image (i : Nat)
  | lane (i : Nat)
  | route (e : Nat)
  | pc
  deriving DecidableEq, Repr

/-- SPACE and INDEX decoded (R358). -/
def Mgr.dbgPlace (m : Mgr) : Option DbgPlace :=
  let i := (m.dbgaddr.extractLsb' 0 56).toNat
  match (m.dbgaddr.extractLsb' 56 8).toNat with
  | 0 => if i < 32 then some (.sreg (BitVec.ofNat 5 i)) else none
  | 1 => some (.csr i)
  | 2 => if i < 2 ^ 21 then some (.chunk (i / 65536) (i % 65536)) else none
  | 3 => if i < 2 ^ 19 then some (.mask (i / 65536) (i % 65536)) else none
  | 4 => if i < 2 ^ 13 ∧ i % 2 = 0 then some (.tile (i / 1024) (i / 32 % 32) (i / 2 % 16)) else none
  | 5 => if i < 2 ^ 11 then some (.image i) else none
  | 6 => if i < 2 ^ 18 then some (.lane i) else none
  | 7 => if i < 64 then some (.route i) else none
  | 8 => if i = 0 then some .pc else none
  | _ => none

/-- The space is the core's, and needs no halted hart (R358). -/
def DbgPlace.ofCore : DbgPlace → Bool
  | .lane _ | .route _ => true
  | _ => false

/-- The place exists in a hart of this shape; CSRs as the system level reads them. -/
def DbgPlace.exists_ (p : DbgPlace) (k : Hart) : Bool :=
  match p with
  | .csr n => csrReads true n
  | .chunk v i => decide (v < k.cfg.nreg.toNat) && decide (i < cpr k k.cfg)
  | .mask _ i => decide (i < k.lanes * 512)
  | .tile t _ _ => decide (t < 8 / k.place.h.toNat)
  | .image i => decide (i < k.image.length)
  | _ => true

/-- The eight bytes at a place (R358). Those of lane memory are read as they stand, with no check of a mark or an error and
none recorded. DESIGN CHOICE, log 118. -/
def State.dbgRead (s : State) (c h : Nat) (p : DbgPlace) : Word :=
  let k := s.hartAt c h
  match p with
  | .sreg r => k.rd r
  | .csr n => s.csr c h n
  | .chunk v i => k.chunk k.cfg v i
  | .mask m i => mget 0 k.store.masks (maskIndex m i)
  | .tile t row col => k.tileAt t row (2 * col + 1) ++ k.tileAt t row (2 * col)
  | .image i => k.image.getD i 0
  | .lane i => (s.coreAt c).lmWord i
  | .route e => (s.coreAt c).routes.toList.getD e 0
  | .pc => k.pc

/-- A place may be written: R103 for CSRs; the queue image is read only. -/
def DbgPlace.writable : DbgPlace → Bool
  | .csr n => csrWrites true n
  | .image _ => false
  | _ => true

/-- The eight bytes at a place written. DEDUCED, log 62. -/
def State.dbgWrite (s : State) (c h : Nat) (p : DbgPlace) (v : Word) : State :=
  let onH (f : Hart → Hart) : State := s.modHartAt c h f
  match p with
  | .sreg r => onH fun k => k.wr r v
  | .csr n => s.putCsr true c h n v
  | .chunk x i => onH fun k => k.modStore fun t =>
      { t with chunks := mput 0 t.chunks (chunkIndex k k.cfg x i) v, poison := sdel t.poison (chunkIndex k k.cfg x i) }
  | .mask m i => onH fun k => k.modStore fun t =>
      { t with masks := mput 0 t.masks (maskIndex m i) v, poison := sdel t.poison (maskPoison m i)
               binds := t.binds.filter fun b => b.1 != m || b.2.bound }
  | .tile t row col =>
    let i := t * 1024 + 32 * row + 2 * col
    let put (m : List (Nat × BitVec 32)) : List (Nat × BitVec 32) :=
      mput 0 (mput 0 m i (v.extractLsb' 0 32)) (i + 1) (v.extractLsb' 32 32)
    onH fun k => k.modStore fun u => { u with tiles := put u.tiles }
  | .image _ => s
  | .lane i => s.modCoreAt c fun y => (y.cleanLm i).setLm i v
  | .route e => s.modCoreAt c fun y => { y with routes := y.routes.setIfInBounds e v }
  | .pc => onH fun k => { k with pc := v &&& ~~~3 }

/-- READ and WRITE: the place that DBGADDR names, of the selected core or of its halted hart. DEDUCED, log 62. -/
def dbgAccess (write : Bool) (s : State) : State :=
  let act (p : DbgPlace) (c h : Nat) (s : State) : State :=
    if (write && !p.writable) || !(p.ofCore || p.exists_ (s.hartAt c h)) then s.dbgRefuse 7
    else if write then (s.dbgWrite c h p s.mgr.dbgdata).dbgDone
    else (s.modMgr fun m => { m with dbgdata := s.dbgRead c h p }).dbgDone
  match s.mgr.dbgPlace with
  | none => onCore (fun _ s => s.dbgRefuse 7) s
  | some p => if p.ofCore then onCore (fun c s => act p c s.mgr.selHart s) s else onHart true (act p) s

/-- READ (R358). -/
def execRead (s : State) : Out := dbgCommand (dbgAccess false) s
/-- WRITE (R358). -/
def execWrite (s : State) : Out := dbgCommand (dbgAccess true) s

/-! ### Trace (R358) -/

/-- The trace buffer lies in one window of the tenancy, on this device. -/
def State.traceGood (s : State) : Bool :=
  let pa := (s.mgr.dbgtbuf >>> 16).toNat * 65536
  let n := s.mgr.dbgtbuf.toNat % 65536
  pa / 2 ^ 47 == s.mgr.devnum.toNat && (s.tenAt s.mgr.selTen).wins.any fun w =>
    w.1 == regionOf pa && decide (w.2.1 * 65536 ≤ offsetOf pa) && decide (offsetOf pa + n * 65536 ≤ w.2.2 * 65536)

/-- TRACEON (R358): the buffer is the one that DBGTBUF names now. -/
def execTraceon (s : State) : Out :=
  dbgCommand (onCore fun c s =>
    if !s.traceGood then s.dbgRefuse 7
    else (s.modMgr fun m => { m with traced := some (c, m.selHart), tracebuf := m.dbgtbuf, dbgtptr := 0 }).dbgDone) s
/-- TRACEOFF (R358): it acts on the tenancy in DBGSEL, and leaves the trace of another tenancy's hart. Where the tenancy holds no
core of DBGSEL's number it is refused with reason 3. DESIGN CHOICE, log 125. -/
def execTraceoff (s : State) : Out :=
  dbgCommand (onCore fun _ s => (s.untrace fun c => s.ownerOf c == s.mgr.selTen).dbgDone) s

end Sys2Proof.Machine
end

