-- ==== Sys2Proof/Machine/Manager.lean ====
section
/-! DEFINITION. The manager block, power and boot, core groups and windows, the host's writes, and Tamlink ports
(15_device R337, R338, R343-R348, R351, R355-R357, 13_collective R306). -/

namespace Sys2Proof.Machine

/-! ### Power and boot (R348, R351, R356) -/

/-- A launch runs. -/
def State.launchRuns (s : State) : Bool := s.launches.any fun l => l.left != 0

/-- The security controller boots the module from an image (R351, R353, R355): everything is at its reset value, and the
verdict on the image decides the state; without one nothing is powered. DEDUCED, log 53. -/
def State.boot (s : State) (img : Word) : State :=
  let v := Config.imageVerdict img
  { State.reset with
    tick := s.tick
    agenda := s.agenda
    msix := s.msix
    out := s.out
    drains := s.drains
    down := s.down
    mgr := { Mgr.init with
      boots := s.mgr.boots + 1
      image := img
      state := if v.isSome then 1 else 2
      sec := v.getD false } }

/-- POWER_ON (R351): it acts while the module has not booted. -/
def execPowerOn (img : BitVec 64) (s : State) : Out :=
  .next (if s.mgr.state = 0 then s.boot img else s)

/-- Entering OFF (R348): sessions end, register files, lane memories and memory are lost; refused while a launch runs.
DEDUCED, log 53. -/
def State.enterOff (s : State) : State :=
  if s.launchRuns then s.modMgr fun m => { m with offref := true }
  else
    let s := s.tens.foldl (fun (s : State) p => if (s.tenAt p.1).session then s.endSession p.1 else s) s
    let s := s.tens.foldl (fun (s : State) p => s.modTenAt p.1 fun x => { x with token := false }) s
    { s with cores := [], mem := [], dram := [], marks := [], latent := [], launches := [], fabric := [], engines := []
             mgr := { s.mgr with state := 3, offref := false, traced := none, busy := none } }

/-- PWRREQ_ENTER_OFF (R348, R356). -/
def execPwrreqEnterOff (s : State) : Out := .next s.enterOff
/-- PWRREQ_LEAVE_OFF (R348, R356): leaving OFF is a boot. DEDUCED, log 53. -/
def execPwrreqLeaveOff (img : BitVec 64) (s : State) : Out := .next (if s.mgr.state = 3 then s.boot img else s)

/-! ### Groups and windows (R343-R345, R357) -/

/-- A core zeroised for a new owner (R345): lane memory, registers and route state; its launch tag goes on.
DEDUCED, log 61. -/
def Core.zeroise (y : Core) : Core :=
  { Core.init with vgrant := y.vgrant, halfRate := y.halfRate, ltag := y.ltag, tlb := y.tlb }

/-- GROUPOWN of a group written (R345): ignored unless every core of the group is idle. DEDUCED, log 61. -/
def State.writeGroup (s : State) (g : Nat) (v : Word) : State :=
  let o := v.extractLsb' 0 7
  let cs := (List.range 8).map (8 * g + ·)
  if (64 ≤ o.toNat ∧ o ≠ 0x7F) ∨ !(cs.all s.idleCore) ∨ o.toNat = (s.mgr.groupown[g]?.getD 0x7F).toNat then s
  else (cs.foldl (fun (s : State) c => s.modCoreAt c Core.zeroise) (s.untrace cs.contains)).modMgr fun m =>
    { m with groupown := m.groupown.setIfInBounds g o }

/-- WINBASE with V as R357 leaves it under a WINLIM. -/
def winBase (v lim : Word) : Word :=
  (v &&& 0x00007FFFFFFF0000) ||| (if v.getLsbD 63 && decide ((v.extractLsb' 44 3).toNat < 2)
    && decide ((v.extractLsb' 16 28).toNat < (lim.extractLsb' 16 28).toNat) then (1 : Word) <<< 63 else 0)
/-- WINLIM. -/
def winLim (v : Word) : Word := v &&& 0x00000FFFFFFF0000

/-- A window register of a tenancy written (R357): nothing changes while the tenancy has a placed launch.
DEDUCED, log 61. -/
def State.writeWindow (s : State) (t n : Nat) (lim : Bool) (v : Word) : State :=
  if (s.launchesOf t).any fun l => l.left != 0 then s
  else s.modTenAt t fun x =>
    if lim then
      let b := x.winbase.toList.getD n 0
      { x with
        winSet := true
        winlim := x.winlim.setIfInBounds n (winLim v)
        winbase := if (v.extractLsb' 16 28).toNat ≤ (b.extractLsb' 16 28).toNat
          then x.winbase.setIfInBounds n (b &&& ~~~((1 : Word) <<< 63)) else x.winbase }
    else { x with winSet := true, winbase := x.winbase.setIfInBounds n (winBase v (x.winlim.toList.getD n 0)) }

/-! ### The manager block (R355) -/

/-- BOOTSTAT (R356). -/
def Mgr.bootstat (m : Mgr) : Word :=
  (boolWord m.offref <<< 7) ||| (boolWord m.sec <<< 4) ||| m.state.setWidth 64

/-- A register of the manager block read. -/
def State.mgrReg (s : State) (off : Nat) : Word :=
  let m := s.mgr
  if off = 0 then m.bootstat
  else if m.state = 2 ∨ m.state = 3 then 0
  else if 0x80 ≤ off ∧ off < 0x100 then (m.groupown[(off - 0x80) / 8]?.getD 0).setWidth 64
  else if 0x1000 ≤ off ∧ off < 0x2000 then
    let x := s.tenAt ((off - 0x1000) / 64)
    (if off / 8 % 2 = 0 then x.winbase else x.winlim).toList.getD (off / 16 % 4) 0
  else if 0x2000 ≤ off ∧ off < 0x3000 then mget 0 m.tkeys ((off - 0x2000) / 8)
  else if 0x3040 ≤ off ∧ off < 0x3060 then m.dbgnonce.toList.getD ((off - 0x3040) / 8) 0
  else match off with
    | 0x08 => (boolWord m.devlock <<< 63) ||| m.devnum.setWidth 64
    | 0x10 => m.plimit.setWidth 64
    | 0x3000 => m.dbgsel
    | 0x3010 => m.dbgres
    | 0x3018 => m.dbgaddr
    | 0x3020 => m.dbgdata
    | 0x3028 => m.dbgtbuf
    | 0x3030 => m.dbgtptr
    | _ => 0

/-- A debug command (R358); other values of DBGCMD name none. DEDUCED, log 62. -/
def debugCommand (v : Word) (s : State) : Out :=
  match v.toNat with
  | 1 => execNonce s
  | 2 => execToken s
  | 3 => execAttach s
  | 4 => execDetach s
  | 5 => execHalt s
  | 6 => execResume s
  | 7 => execStep s
  | 8 => execRead s
  | 9 => execWrite s
  | 10 => execTraceon s
  | 11 => execTraceoff s
  | _ => .next s

/-- An 8-byte write to the manager block at an aligned offset (R355, R356). DEDUCED, log 53. The low 12 bits of a write to PLIMIT
are what is judged by its range and stored (R347). DESIGN CHOICE, log 124. -/
def State.mgrWrite (s : State) (off : Nat) (v : Word) : Out :=
  if off = 0x18 then
    .next (if v = 1 then s.enterOff else if v = 2 ∧ s.mgr.state = 3 then s.boot s.mgr.image else s)
  else if s.mgr.state = 2 ∨ s.mgr.state = 3 then .next s
  else if 0x80 ≤ off ∧ off < 0x100 then .next (s.writeGroup ((off - 0x80) / 8) v)
  else if 0x1000 ≤ off ∧ off < 0x2000 then
    .next (s.writeWindow ((off - 0x1000) / 64) (off / 16 % 4) (off / 8 % 2 = 1) v)
  else if 0x2000 ≤ off ∧ off < 0x3000 then .next (s.modMgr fun m => { m with tkeys := mput 0 m.tkeys ((off - 0x2000) / 8) v })
  else if 0x4000 ≤ off ∧ off < 0x5000 then
    .next (s.modMgr fun m => { m with dbgbuf := mput 0 m.dbgbuf ((off - 0x4000) / 8) v })
  else match off with
    | 0x08 => .next (if s.mgr.devlock then s else s.modMgr fun m => { m with devnum := v.setWidth 17, devlock := true })
    | 0x10 =>
      let w := v.extractLsb' 0 12
      .next (if 1000 ≤ w.toNat ∧ w.toNat ≤ 3400 then s.modMgr fun m => { m with plimit := w } else s)
    | 0x3000 => .next (s.modMgr fun m => { m with dbgsel := v &&& 0x077F003F })
    | 0x3008 => debugCommand v s
    | 0x3018 => .next (s.modMgr fun m => { m with dbgaddr := v })
    | 0x3020 => .next (s.modMgr fun m => { m with dbgdata := v })
    | 0x3028 => .next (s.modMgr fun m => { m with dbgtbuf := v })
    | _ => .next s

/-- Eight bytes written to a tenancy's block at any offset: the parts in the one or two registers that they meet (R338,
R340). DEDUCED, log 51. -/
def State.writeRegs (s : State) (t off : Nat) (v : Word) : State :=
  let m := 8 - off % 8
  let s := s.writeReg t off m v
  if m = 8 then s else s.writeReg t (off + m) (8 - m) (v >>> (8 * m))

/-- REGISTER_WRITE: an 8-byte write by the host to a tenancy's block or to the manager's (R337, R338, R355). At an offset of
the manager's block that is no multiple of 8 it writes the register that the offset lies in. DESIGN CHOICE, log 116. -/
def execRegisterWrite (blk : Block) (off : BitVec 16) (v : BitVec 64) (s : State) : Out :=
  match blk with
  | .ten t => .next (s.writeRegs t.toNat off.toNat v)
  | .mgr => s.mgrWrite (off.toNat / 8 * 8) v
/-- DEVNUM_WRITE (R346). -/
def execDevnumWrite (v : BitVec 64) (s : State) : Out := s.mgrWrite 0x08 v
/-- PLIMIT_WRITE (R347). -/
def execPlimitWrite (v : BitVec 64) (s : State) : Out := s.mgrWrite 0x10 v
/-- GROUPOWN_WRITE (R343, R345). -/
def execGroupownWrite (g : BitVec 4) (v : BitVec 64) (s : State) : Out := s.mgrWrite (0x80 + 8 * g.toNat) v
/-- WINDOW_WRITE (R357). -/
def execWindowWrite (t : BitVec 6) (n : BitVec 2) (lim : Bool) (v : BitVec 64) (s : State) : Out :=
  s.mgrWrite (0x1000 + 0x40 * t.toNat + 0x10 * n.toNat + if lim then 8 else 0) v

/-! ### The outside (R346, 13_collective R306) -/

/-- The Tamlink ports of a module (01_machine R9, R20). -/
def tamlinkPorts : Nat := 72
/-- TAMLINK_PORT_DOWN (R346). DESIGN CHOICE, log 27. -/
def execTamlinkPortDown (k : BitVec 16) (s : State) : Out :=
  .next (if k.toNat < tamlinkPorts then { s with down := sadd s.down k.toNat } else s)
/-- TAMLINK_PORT_UP (R346). -/
def execTamlinkPortUp (k : BitVec 16) (s : State) : Out :=
  .next (if k.toNat < tamlinkPorts then { s with down := sdel s.down k.toNat } else s)

/-- HOST_WRITE: bytes at a physical address of a module that runs, later than any cut (13_collective R306); no stack of
another is powered (15_device R348, R351). DEDUCED, log 63. -/
def execHostWrite (pa : BitVec 64) (n : BitVec 3) (v : BitVec 64) (s : State) : Out :=
  let a := pa.toNat % 2 ^ 47
  let m := n.toNat + 1
  if s.mgr.state ≠ 1 then .next s
  else if memExists a && memExists (a + m - 1) then
    .next (s.writeAll { through := false, step := none } [Acc.ofNat (.mem a) m (v.toNat % 256 ^ m)])
  else .fault (.noSuchAddress pa.toNat)

end Sys2Proof.Machine
end

