-- ==== Sys2Proof/Machine/Dispatch.lean ====
section
/-! DEFINITION. One arm per instruction or event: a direct call of its meaning. -/

namespace Sys2Proof.Machine

def exec (i : Instr) (s : State) : Host.Outcome State Fault Refusal :=
  match i with
  | .add d a b => Sys2Proof.Machine.execAdd d a b s
  | .sub d a b => Sys2Proof.Machine.execSub d a b s
  | .and d a b => Sys2Proof.Machine.execAnd d a b s
  | .or d a b => Sys2Proof.Machine.execOr d a b s
  | .xor d a b => Sys2Proof.Machine.execXor d a b s
  | .shl d a b => Sys2Proof.Machine.execShl d a b s
  | .shr d a b => Sys2Proof.Machine.execShr d a b s
  | .sar d a b => Sys2Proof.Machine.execSar d a b s
  | .slt d a b => Sys2Proof.Machine.execSlt d a b s
  | .sltu d a b => Sys2Proof.Machine.execSltu d a b s
  | .mul d a b => Sys2Proof.Machine.execMul d a b s
  | .mulh d a b => Sys2Proof.Machine.execMulh d a b s
  | .div d a b => Sys2Proof.Machine.execDiv d a b s
  | .divu d a b => Sys2Proof.Machine.execDivu d a b s
  | .rem d a b => Sys2Proof.Machine.execRem d a b s
  | .min d a b => Sys2Proof.Machine.execMin d a b s
  | .max d a b => Sys2Proof.Machine.execMax d a b s
  | .addi d a imm => Sys2Proof.Machine.execAddi d a imm s
  | .andi d a imm => Sys2Proof.Machine.execAndi d a imm s
  | .ori d a imm => Sys2Proof.Machine.execOri d a imm s
  | .xori d a imm => Sys2Proof.Machine.execXori d a imm s
  | .slti d a imm => Sys2Proof.Machine.execSlti d a imm s
  | .shli d a n => Sys2Proof.Machine.execShli d a n s
  | .shri d a n => Sys2Proof.Machine.execShri d a n s
  | .sari d a n => Sys2Proof.Machine.execSari d a n s
  | .lhi d imm => Sys2Proof.Machine.execLhi d imm s
  | .addpc d imm => Sys2Proof.Machine.execAddpc d imm s
  | .ld d a imm => Sys2Proof.Machine.execLd d a imm s
  | .lw d a imm => Sys2Proof.Machine.execLw d a imm s
  | .lwu d a imm => Sys2Proof.Machine.execLwu d a imm s
  | .lh d a imm => Sys2Proof.Machine.execLh d a imm s
  | .lhu d a imm => Sys2Proof.Machine.execLhu d a imm s
  | .lb d a imm => Sys2Proof.Machine.execLb d a imm s
  | .lbu d a imm => Sys2Proof.Machine.execLbu d a imm s
  | .sd d a imm => Sys2Proof.Machine.execSd d a imm s
  | .sw d a imm => Sys2Proof.Machine.execSw d a imm s
  | .sh d a imm => Sys2Proof.Machine.execSh d a imm s
  | .sb d a imm => Sys2Proof.Machine.execSb d a imm s
  | .beq a b off => Sys2Proof.Machine.execBeq a b off s
  | .bne a b off => Sys2Proof.Machine.execBne a b off s
  | .blt a b off => Sys2Proof.Machine.execBlt a b off s
  | .bge a b off => Sys2Proof.Machine.execBge a b off s
  | .bltu a b off => Sys2Proof.Machine.execBltu a b off s
  | .bgeu a b off => Sys2Proof.Machine.execBgeu a b off s
  | .jal d off => Sys2Proof.Machine.execJal d off s
  | .jalr d a imm => Sys2Proof.Machine.execJalr d a imm s
  | .amoAdd d a b l acq rel sc => Sys2Proof.Machine.execAmoAdd d a b l acq rel sc s
  | .amoSwap d a b l acq rel sc => Sys2Proof.Machine.execAmoSwap d a b l acq rel sc s
  | .amoCas d a b l acq rel sc => Sys2Proof.Machine.execAmoCas d a b l acq rel sc s
  | .amoAnd d a b l acq rel sc => Sys2Proof.Machine.execAmoAnd d a b l acq rel sc s
  | .amoOr d a b l acq rel sc => Sys2Proof.Machine.execAmoOr d a b l acq rel sc s
  | .amoMax d a b l acq rel sc => Sys2Proof.Machine.execAmoMax d a b l acq rel sc s
  | .amoMin d a b l acq rel sc => Sys2Proof.Machine.execAmoMin d a b l acq rel sc s
  | .fenceSv sc => Sys2Proof.Machine.execFenceSv sc s
  | .fenceVs sc => Sys2Proof.Machine.execFenceVs sc s
  | .fenceVv sc => Sys2Proof.Machine.execFenceVv sc s
  | .fenceAll sc => Sys2Proof.Machine.execFenceAll sc s
  | .vblk off => Sys2Proof.Machine.execVblk off s
  | .vblkr a imm => Sys2Proof.Machine.execVblkr a imm s
  | .setlen d a b => Sys2Proof.Machine.execSetlen d a b s
  | .setleni d a imm => Sys2Proof.Machine.execSetleni d a imm s
  | .csrr d a csr => Sys2Proof.Machine.execCsrr d a csr s
  | .csrw d a csr => Sys2Proof.Machine.execCsrw d a csr s
  | .csrs d a csr => Sys2Proof.Machine.execCsrs d a csr s
  | .csrc d a csr => Sys2Proof.Machine.execCsrc d a csr s
  | .svc => Sys2Proof.Machine.execSvc s
  | .tret => Sys2Proof.Machine.execTret s
  | .vret => Sys2Proof.Machine.execVret s
  | .brk => Sys2Proof.Machine.execBrk s
  | .iflush => Sys2Proof.Machine.execIflush s
  | .tlbinvPg sc a => Sys2Proof.Machine.execTlbinvPg sc a s
  | .tlbinvAll sc => Sys2Proof.Machine.execTlbinvAll sc s
  | .vqsave d a => Sys2Proof.Machine.execVqsave d a s
  | .vqload a b => Sys2Proof.Machine.execVqload a b s
  | .cwb a b => Sys2Proof.Machine.execCwb a b s
  | .cinv a b => Sys2Proof.Machine.execCinv a b s
  | .hexit => Sys2Proof.Machine.execHexit s
  | .vdecl a => Sys2Proof.Machine.execVdecl a s
  | .farm d a => Sys2Proof.Machine.execFarm d a s
  | .fnext d a => Sys2Proof.Machine.execFnext d a s
  | .hbar => Sys2Proof.Machine.execHbar s
  | .cset d a b => Sys2Proof.Machine.execCset d a b s
  | .hlaunch d a => Sys2Proof.Machine.execHlaunch d a s
  | .vstop => Sys2Proof.Machine.execVstop s
  | .vnop c => Sys2Proof.Machine.execVnop c s
  | .vadd h d a b f => Sys2Proof.Machine.execVadd h d a b f s
  | .vsub h d a b f => Sys2Proof.Machine.execVsub h d a b f s
  | .vmul h d a b f => Sys2Proof.Machine.execVmul h d a b f s
  | .vfma h d a b x f => Sys2Proof.Machine.execVfma h d a b x f s
  | .vfms h d a b x f => Sys2Proof.Machine.execVfms h d a b x f s
  | .vfnma h d a b x f => Sys2Proof.Machine.execVfnma h d a b x f s
  | .vdiv h d a b f => Sys2Proof.Machine.execVdiv h d a b f s
  | .vsqrt h d a f => Sys2Proof.Machine.execVsqrt h d a f s
  | .vmin h d a b f => Sys2Proof.Machine.execVmin h d a b f s
  | .vmax h d a b f => Sys2Proof.Machine.execVmax h d a b f s
  | .vabs h d a f => Sys2Proof.Machine.execVabs h d a f s
  | .vneg h d a f => Sys2Proof.Machine.execVneg h d a f s
  | .vclamp h d a b f => Sys2Proof.Machine.execVclamp h d a b f s
  | .vand h d a b f => Sys2Proof.Machine.execVand h d a b f s
  | .vor h d a b f => Sys2Proof.Machine.execVor h d a b f s
  | .vxor h d a b f => Sys2Proof.Machine.execVxor h d a b f s
  | .vshl h d a b f => Sys2Proof.Machine.execVshl h d a b f s
  | .vshr h d a b f => Sys2Proof.Machine.execVshr h d a b f s
  | .vshrA h d a b f => Sys2Proof.Machine.execVshrA h d a b f s
  | .vcvt h d a f => Sys2Proof.Machine.execVcvt h d a f s
  | .vrcp h d a f => Sys2Proof.Machine.execVrcp h d a f s
  | .vrsqrt h d a f => Sys2Proof.Machine.execVrsqrt h d a f s
  | .vexp2 h d a f => Sys2Proof.Machine.execVexp2 h d a f s
  | .vlog2 h d a f => Sys2Proof.Machine.execVlog2 h d a f s
  | .vsel h d a b m f => Sys2Proof.Machine.execVsel h d a b m f s
  | .vmov h d a f => Sys2Proof.Machine.execVmov h d a f s
  | .vsplat h d s_ f => Sys2Proof.Machine.execVsplat h d s_ f s
  | .vindex h d s_ f => Sys2Proof.Machine.execVindex h d s_ f s
  | .vcmp h cc d a b f => Sys2Proof.Machine.execVcmp h cc d a b f s
  | .vredSumo h d a init f => Sys2Proof.Machine.execVredSumo h d a init f s
  | .vredSump h d a init f => Sys2Proof.Machine.execVredSump h d a init f s
  | .vredMax h d a init f => Sys2Proof.Machine.execVredMax h d a init f s
  | .vredMin h d a init f => Sys2Proof.Machine.execVredMin h d a init f s
  | .vredAnd h d a init f => Sys2Proof.Machine.execVredAnd h d a init f s
  | .vredOr h d a init f => Sys2Proof.Machine.execVredOr h d a init f s
  | .vredXor h d a init f => Sys2Proof.Machine.execVredXor h d a init f s
  | .mand h d a b => Sys2Proof.Machine.execMand h d a b s
  | .mor h d a b => Sys2Proof.Machine.execMor h d a b s
  | .mxor h d a b => Sys2Proof.Machine.execMxor h d a b s
  | .mandn h d a b => Sys2Proof.Machine.execMandn h d a b s
  | .mnot h d a => Sys2Proof.Machine.execMnot h d a s
  | .mpop h d a => Sys2Proof.Machine.execMpop h d a s
  | .mfirst h d a => Sys2Proof.Machine.execMfirst h d a s
  | .msetLt h d s_ => Sys2Proof.Machine.execMsetLt h d s_ s
  | .msetGe h d s_ => Sys2Proof.Machine.execMsetGe h d s_ s
  | .vqnt h d x a f => Sys2Proof.Machine.execVqnt h d x a f s
  | .vdqnt h d a x f => Sys2Proof.Machine.execVdqnt h d a x f s
  | .vup h d a s_ f => Sys2Proof.Machine.execVup h d a s_ f s
  | .vdn h d a s_ f => Sys2Proof.Machine.execVdn h d a s_ f s
  | .vgathr h d a b f => Sys2Proof.Machine.execVgathr h d a b f s
  | .vpack c d a m f => Sys2Proof.Machine.execVpack c d a m f s
  | .vunpk c d a m f => Sys2Proof.Machine.execVunpk c d a m f s
  | .vresh c d a s_ f => Sys2Proof.Machine.execVresh c d a s_ f s
  | .vreshT c d a s_ f => Sys2Proof.Machine.execVreshT c d a s_ f s
  | .vreshInv c d a s_ f => Sys2Proof.Machine.execVreshInv c d a s_ f s
  | .vgtr c d a f => Sys2Proof.Machine.execVgtr c d a f s
  | .vld h d s_ f off => Sys2Proof.Machine.execVld h d s_ f off s
  | .vlds h d s_ b f off => Sys2Proof.Machine.execVlds h d s_ b f off s
  | .vldx h d s_ b f off => Sys2Proof.Machine.execVldx h d s_ b f off s
  | .vldK c pm form d s_ f off => Sys2Proof.Machine.execVldK c pm form d s_ f off s
  | .vldff h x d s_ f off => Sys2Proof.Machine.execVldff h x d s_ f off s
  | .vst h a s_ f off => Sys2Proof.Machine.execVst h a s_ f off s
  | .vsts h a s_ b f off => Sys2Proof.Machine.execVsts h a s_ b f off s
  | .vstx h a s_ b f off => Sys2Proof.Machine.execVstx h a s_ b f off s
  | .vstxo h a s_ b f off => Sys2Proof.Machine.execVstxo h a s_ b f off s
  | .vstC c d a s_ f off => Sys2Proof.Machine.execVstC c d a s_ f off s
  | .vldC c d s_ f off => Sys2Proof.Machine.execVldC c d s_ f off s
  | .vamoAdd h d a b s_ f off => Sys2Proof.Machine.execVamoAdd h d a b s_ f off s
  | .vamoSwap h d a b s_ f off => Sys2Proof.Machine.execVamoSwap h d a b s_ f off s
  | .vamoCas h d a b x s_ f off => Sys2Proof.Machine.execVamoCas h d a b x s_ f off s
  | .vamoAnd h d a b s_ f off => Sys2Proof.Machine.execVamoAnd h d a b s_ f off s
  | .vamoOr h d a b s_ f off => Sys2Proof.Machine.execVamoOr h d a b s_ f off s
  | .vamoMax h d a b s_ f off => Sys2Proof.Machine.execVamoMax h d a b s_ f off s
  | .vamoMin h d a b s_ f off => Sys2Proof.Machine.execVamoMin h d a b s_ f off s
  | .vldp h d x s_ b f off => Sys2Proof.Machine.execVldp h d x s_ b f off s
  | .vstp h a x s_ b f off => Sys2Proof.Machine.execVstp h a x s_ b f off s
  | .vstr h a x s_ b f off => Sys2Proof.Machine.execVstr h a x s_ b f off s
  | .vldw c d s_ off => Sys2Proof.Machine.execVldw c d s_ off s
  | .vstw c a s_ off => Sys2Proof.Machine.execVstw c a s_ off s
  | .vldwM c d s_ off => Sys2Proof.Machine.execVldwM c d s_ off s
  | .vstwM c a s_ off => Sys2Proof.Machine.execVstwM c a s_ off s
  | .pst c a b x f run w => Sys2Proof.Machine.execPst c a b x f run w s
  | .popAdd c a b x f run row w => Sys2Proof.Machine.execPopAdd c a b x f run row w s
  | .popSub c a b x f run row w => Sys2Proof.Machine.execPopSub c a b x f run row w s
  | .popMin c a b x f run row w => Sys2Proof.Machine.execPopMin c a b x f run row w s
  | .popMax c a b x f run row w => Sys2Proof.Machine.execPopMax c a b x f run row w s
  | .popAnd c a b x f run row w => Sys2Proof.Machine.execPopAnd c a b x f run row w s
  | .popOr c a b x f run row w => Sys2Proof.Machine.execPopOr c a b x f run row w s
  | .popXor c a b x f run row w => Sys2Proof.Machine.execPopXor c a b x f run row w s
  | .popMov c a b x f run row w => Sys2Proof.Machine.execPopMov c a b x f run row w s
  | .pldSum c d a x f run w => Sys2Proof.Machine.execPldSum c d a x f run w s
  | .pldMax c d a x f run w => Sys2Proof.Machine.execPldMax c d a x f run w s
  | .pldMin c d a x f run w => Sys2Proof.Machine.execPldMin c d a x f run w s
  | .pldAnd c d a x f run w => Sys2Proof.Machine.execPldAnd c d a x f run w s
  | .pldOr c d a x f run w => Sys2Proof.Machine.execPldOr c d a x f run w s
  | .pldXor c d a x f run w => Sys2Proof.Machine.execPldXor c d a x f run w s
  | .pldCnt c d a x f run w => Sys2Proof.Machine.execPldCnt c d a x f run w s
  | .vwait h x d a s_ => Sys2Proof.Machine.execVwait h x d a s_ s
  | .ctri d a b x f sa sb => Sys2Proof.Machine.execCtri d a b x f sa sb s
  | .czero d => Sys2Proof.Machine.execCzero d s
  | .cget d a s_ f i0 nr j0 nc => Sys2Proof.Machine.execCget d a s_ f i0 nr j0 nc s
  | .cgetc d a s_ f i0 nr j0 nc => Sys2Proof.Machine.execCgetc d a s_ f i0 nr j0 nc s
  | .cput d a s_ f i0 nr j0 nc => Sys2Proof.Machine.execCput d a s_ f i0 nr j0 nc s
  | .cshp s_ => Sys2Proof.Machine.execCshp s_ s
  | .tsave a s_ off => Sys2Proof.Machine.execTsave a s_ off s
  | .tload d s_ off => Sys2Proof.Machine.execTload d s_ off s
  | .route h fr a b x s_ => Sys2Proof.Machine.execRoute h fr a b x s_ s
  | .rrecv c d x a s_ => Sys2Proof.Machine.execRrecv c d x a s_ s
  | .rret h a x => Sys2Proof.Machine.execRret h a x s
  | .fwait c d fr => Sys2Proof.Machine.execFwait c d fr s
  | .fread c d x fr => Sys2Proof.Machine.execFread c d x fr s
  | .rtset c a s_ => Sys2Proof.Machine.execRtset c a s_ s
  | .enqStk h d x a => Sys2Proof.Machine.execEnqStk h d x a s
  | .enqCpy h d x a => Sys2Proof.Machine.execEnqCpy h d x a s
  | .cwpw c n s_ => Sys2Proof.Machine.execCwpw c n s_ s
  | .blockWordPlace => Sys2Proof.Machine.execBlockWordPlace s
  | .convoyDispatch upTo => Sys2Proof.Machine.execConvoyDispatch upTo s
  | .combWordIssue => Sys2Proof.Machine.execCombWordIssue s
  | .scalarLoadData => Sys2Proof.Machine.execScalarLoadData s
  | .storeBufferWrite => Sys2Proof.Machine.execStoreBufferWrite s
  | .trapTake => Sys2Proof.Machine.execTrapTake s
  | .machineCheck u => Sys2Proof.Machine.execMachineCheck u s
  | .arbitrationPromotion r => Sys2Proof.Machine.execArbitrationPromotion r s
  | .fenceRelease => Sys2Proof.Machine.execFenceRelease s
  | .hbarRelease => Sys2Proof.Machine.execHbarRelease s
  | .hexitFree => Sys2Proof.Machine.execHexitFree s
  | .vwaitWake => Sys2Proof.Machine.execVwaitWake s
  | .vwaitPoll => Sys2Proof.Machine.execVwaitPoll s
  | .vwaitTimeout => Sys2Proof.Machine.execVwaitTimeout s
  | .rrecvTake => Sys2Proof.Machine.execRrecvTake s
  | .rrecvTimeout => Sys2Proof.Machine.execRrecvTimeout s
  | .rowArrival k => Sys2Proof.Machine.execRowArrival k s
  | .returnArrival k => Sys2Proof.Machine.execReturnArrival k s
  | .refusalArrival k => Sys2Proof.Machine.execRefusalArrival k s
  | .frameTimeout fr => Sys2Proof.Machine.execFrameTimeout fr s
  | .fwaitRelease => Sys2Proof.Machine.execFwaitRelease s
  | .cwpwRelease => Sys2Proof.Machine.execCwpwRelease s
  | .launchCheck t => Sys2Proof.Machine.execLaunchCheck t s
  | .launchPlace t => Sys2Proof.Machine.execLaunchPlace t s
  | .launchComplete k => Sys2Proof.Machine.execLaunchComplete k s
  | .ired st => Sys2Proof.Machine.execIred st s
  | .rcopy st => Sys2Proof.Machine.execRcopy st s
  | .rfill st => Sys2Proof.Machine.execRfill st s
  | .cardBound st n => Sys2Proof.Machine.execCardBound st n s
  | .reductionPacket st => Sys2Proof.Machine.execReductionPacket st s
  | .copyCommand ch => Sys2Proof.Machine.execCopyCommand ch s
  | .copyChunk ch => Sys2Proof.Machine.execCopyChunk ch s
  | .contributionArrival k => Sys2Proof.Machine.execContributionArrival k s
  | .collectiveCombine k => Sys2Proof.Machine.execCollectiveCombine k s
  | .chunkFetch k => Sys2Proof.Machine.execChunkFetch k s
  | .trainArrival k => Sys2Proof.Machine.execTrainArrival k s
  | .trainAck k => Sys2Proof.Machine.execTrainAck k s
  | .propolisArm t v => Sys2Proof.Machine.execPropolisArm t v s
  | .propolisUnitCopy t u => Sys2Proof.Machine.execPropolisUnitCopy t u s
  | .propolisLastCut t => Sys2Proof.Machine.execPropolisLastCut t s
  | .propolisDrainUnit t => Sys2Proof.Machine.execPropolisDrainUnit t s
  | .propolisDrainRefused t => Sys2Proof.Machine.execPropolisDrainRefused t s
  | .lqpush t n v => Sys2Proof.Machine.execLqpush t n v s
  | .intstatClear t v => Sys2Proof.Machine.execIntstatClear t v s
  | .preempt t v => Sys2Proof.Machine.execPreempt t v s
  | .attreq t v => Sys2Proof.Machine.execAttreq t v s
  | .registerWrite blk off v => Sys2Proof.Machine.execRegisterWrite blk off v s
  | .devnumWrite v => Sys2Proof.Machine.execDevnumWrite v s
  | .plimitWrite v => Sys2Proof.Machine.execPlimitWrite v s
  | .pwrreqEnterOff => Sys2Proof.Machine.execPwrreqEnterOff s
  | .pwrreqLeaveOff img => Sys2Proof.Machine.execPwrreqLeaveOff img s
  | .groupownWrite g v => Sys2Proof.Machine.execGroupownWrite g v s
  | .windowWrite t n lim v => Sys2Proof.Machine.execWindowWrite t n lim v s
  | .nonce => Sys2Proof.Machine.execNonce s
  | .token => Sys2Proof.Machine.execToken s
  | .attach => Sys2Proof.Machine.execAttach s
  | .detach => Sys2Proof.Machine.execDetach s
  | .halt => Sys2Proof.Machine.execHalt s
  | .resume => Sys2Proof.Machine.execResume s
  | .step => Sys2Proof.Machine.execStep s
  | .read => Sys2Proof.Machine.execRead s
  | .write => Sys2Proof.Machine.execWrite s
  | .traceon => Sys2Proof.Machine.execTraceon s
  | .traceoff => Sys2Proof.Machine.execTraceoff s
  | .powerOn img => Sys2Proof.Machine.execPowerOn img s
  | .vgrantWrite core g => Sys2Proof.Machine.execVgrantWrite core g s
  | .combRateHalve core half => Sys2Proof.Machine.execCombRateHalve core half s
  | .illegalInstruction w => Sys2Proof.Machine.execIllegalInstruction w s
  | .contributionAck k => Sys2Proof.Machine.execContributionAck k s
  | .tamlinkPortDown k => Sys2Proof.Machine.execTamlinkPortDown k s
  | .tamlinkPortUp k => Sys2Proof.Machine.execTamlinkPortUp k s
  | .hostWrite pa n v => Sys2Proof.Machine.execHostWrite pa n v s

end Sys2Proof.Machine
end

