-- ==== Sys2Proof/Machine/Schedule.lean ====
section
/-! DEFINITION. Which turns the machine may take by itself: the scalar streams, the queues, the units and the messages in
flight (00_scope R6, 95_what_each_step_holds). Which of them comes next is free (log 2). -/

namespace Sys2Proof.Machine

/-- An event of the table, not an instruction that a stream holds: the only thing a turn may name. -/
def isEvent : Instr → Bool
  | .blockWordPlace | .convoyDispatch _ | .combWordIssue | .scalarLoadData | .storeBufferWrite | .trapTake
  | .machineCheck _ | .arbitrationPromotion _ | .fenceRelease | .hbarRelease | .hexitFree | .vwaitWake | .vwaitPoll
  | .vwaitTimeout | .rrecvTake | .rrecvTimeout | .rowArrival _ | .returnArrival _ | .refusalArrival _ | .frameTimeout _
  | .fwaitRelease | .cwpwRelease | .launchCheck _ | .launchPlace _ | .launchComplete _ | .ired _ | .rcopy _ | .rfill _
  | .cardBound _ _ | .reductionPacket _ | .copyCommand _ | .copyChunk _ | .contributionArrival _ | .collectiveCombine _
  | .chunkFetch _ | .trainArrival _ | .trainAck _ | .propolisArm _ _ | .propolisUnitCopy _ _ | .propolisLastCut _
  | .propolisDrainUnit _ | .propolisDrainRefused _ | .lqpush _ _ _ | .intstatClear _ _ | .preempt _ _ | .attreq _ _
  | .registerWrite _ _ _ | .devnumWrite _ | .plimitWrite _ | .pwrreqEnterOff | .pwrreqLeaveOff _ | .groupownWrite _ _
  | .windowWrite _ _ _ _ | .nonce | .token | .attach | .detach | .halt | .resume | .step | .read | .write | .traceon
  | .traceoff | .powerOn _ | .vgrantWrite _ _ | .combRateHalve _ _ | .contributionAck _ | .tamlinkPortDown _
  | .tamlinkPortUp _ | .hostWrite _ _ _ => true
  | _ => false

/-- An event that comes from outside the machine's own work, so that nothing offers it again: what the host, the manager and
the board do. -/
def fromOutside : Instr → Bool
  | .machineCheck _ | .propolisArm _ _ | .propolisDrainRefused _ | .lqpush _ _ _ | .intstatClear _ _ | .preempt _ _ | .attreq _ _
  | .registerWrite _ _ _ | .devnumWrite _ | .plimitWrite _ | .pwrreqEnterOff | .pwrreqLeaveOff _ | .groupownWrite _ _
  | .windowWrite _ _ _ _ | .nonce | .token | .attach | .detach | .halt | .resume | .step | .read | .write | .traceon
  | .traceoff | .powerOn _ | .vgrantWrite _ _ | .combRateHalve _ _ | .tamlinkPortDown _ | .tamlinkPortUp _ | .hostWrite _ _ _ => true
  | _ => false

/-- What a scalar stream's wait may do next. -/
def SWait.events : SWait → List Instr
  | .none | .begun | .csr _ | .placing [] => []
  | .placing (_ :: _) => [.blockWordPlace]
  | .load _ => [.scalarLoadData]
  | .fence .. => [.fenceRelease]
  | .hbar => [.hbarRelease]
  | .hexit => [.hexitFree]

/-- What the head of a vector queue may do next; `upTo` is where its sequencer may stop (14_system R316). -/
def VStall.events (upTo : Nat) : VStall → List Instr
  | .none | .vldC 0 _ => [.convoyDispatch (BitVec.allOnes 32), .convoyDispatch (BitVec.ofNat 32 upTo)]
  | .vwait _ => [.vwaitWake, .vwaitPoll, .vwaitTimeout]
  | .rrecv => [.rrecvTake, .rrecvTimeout]
  | .fwait => [.fwaitRelease]
  | .cwpw => [.cwpwRelease]
  | .vstC .. | .vldC .. | .vstr .. => []

/-- The events of a hart. -/
def Hart.events (k : Hart) (upTo : Nat) : List Instr :=
  if !k.place.placed then []
  else k.wait.events ++ (if k.sbuf.isEmpty then [] else [.storeBufferWrite])
    ++ (if k.due && k.wait != .begun && !k.busy then [.trapTake] else [])
    ++ (if k.q.vq.isEmpty then [] else k.q.stall.events upTo) ++ (if k.q.cq.isEmpty then [] else [.combWordIssue])

/-- The events of a core. -/
def Core.events (y : Core) : List Instr :=
  ((List.range 4).flatMap fun n =>
    let c := y.chan (BitVec.ofNat 2 n)
    if c.cmds.isEmpty then [] else if c.started then [.copyChunk (BitVec.ofNat 2 n)] else [.copyCommand (BitVec.ofNat 2 n)])
  ++ ((List.range 4).flatMap fun n =>
    let f := y.frame (BitVec.ofNat 2 n)
    if f.st = 1 ∧ f.timeout ≠ 0 ∧ y.power ≠ 2 then [.frameTimeout (BitVec.ofNat 2 n)] else [])
  ++ (List.range y.staged.length).map fun n => .collectiveCombine (BitVec.ofNat 16 n)

/-- The event that delivers a message. -/
def Msg.event (n : Nat) : Msg → Instr
  | .row _ => .rowArrival (BitVec.ofNat 16 n)
  | .ret _ => .returnArrival (BitVec.ofNat 16 n)
  | .refusal _ => .refusalArrival (BitVec.ofNat 16 n)
  | .contrib _ => .contributionArrival (BitVec.ofNat 16 n)
  | .contribAck .. => .contributionAck (BitVec.ofNat 16 n)
  | .fetch _ | .fetched .. => .chunkFetch (BitVec.ofNat 16 n)
  | .train _ => .trainArrival (BitVec.ofNat 16 n)
  | .trainAck .. => .trainAck (BitVec.ofNat 16 n)

/-- The event that runs the next card of a stack engine, and the one that bounds it. -/
def Stack.events (k : Stack) (st free : Nat) : List Instr :=
  let i := BitVec.ofNat 4 st
  (match k.next with
    | none => []
    | some (_, c) => [if c.op = 1 then .ired i else if c.op = 2 then .rcopy i else .rfill i, .cardBound i (BitVec.ofNat 7 free)])
  ++ (if k.rq.isEmpty then [] else [.reductionPacket i])

/-- The hub's events for a tenancy. -/
def Ten.events (x : Ten) (t free : Nat) : List Instr :=
  let i := BitVec.ofNat 6 t
  (if x.lq.isEmpty then [] else if x.checked then [.launchPlace i] else [.launchCheck i])
  ++ (if x.prop.st = 1 ∨ x.prop.st = 2 then [.propolisLastCut i] else [])
  ++ (if x.prop.st = 2 ∨ x.prop.st = 3 then [.propolisUnitCopy i (BitVec.ofNat 32 free)] else [])
  ++ (if x.prop.st = 3 then [.propolisDrainUnit i] else [])

/-- The work that is there to be taken up in a module that runs (15_device R348, R351), before the harts of a core are
arbitrated. -/
def State.offers (s : State) : List Turn :=
  let free := Config.pick (2 * s.tick + 1)
  if s.mgr.state ≠ 1 then [] else
  let of (c h : Nat) (e : Option Instr) : Turn := { core := c, hart := h, input := none, ev := e }
  let hub (is : List Instr) : List Turn := is.map fun i => of 0 0 (some i)
  (s.cores.flatMap fun c =>
    (c.2.harts.flatMap fun h =>
      (if h.2.mayIssue then [of c.1 h.1 none] else [])
      ++ (h.2.events free ++ (s.at c.1 h.1).awaited.map .arbitrationPromotion).map fun i => of c.1 h.1 (some i))
    ++ c.2.events.map fun i => of c.1 0 (some i))
  ++ hub (s.fabric.zipIdx.map fun m => m.1.event m.2)
  ++ hub (s.engines.flatMap fun e => e.2.events e.1 free)
  ++ hub (s.tens.flatMap fun t => t.2.events t.1 free)
  ++ hub (s.launches.zipIdx.flatMap fun l => if l.1.left = 0 then [.launchComplete (BitVec.ofNat 16 l.2)] else [])

/-- The device that a message from outside comes from, where it names it. -/
def Msg.source : Msg → Option Nat
  | .row m => some m.sdev
  | .contrib m => some m.sdev
  | .fetch m => some m.sdev
  | .train m => some m.sdev
  | .trainAck _ _ _ _ _ d _ => some d
  | .ret _ | .refusal _ | .contribAck .. | .fetched .. => none

/-- A message may come in: the module runs, its number is written, and no port or switch on the way is down (15_device
R346, R351). DESIGN CHOICE, log 15. -/
def State.admits (s : State) (m : Msg) : Bool := s.mgr.state == 1 && s.mgr.devlock && m.source.all s.reachable

/-- What arrives from outside before a turn (08_memory R174, 11_route R253, 13_collective R301).
DESIGN CHOICE, log 8. -/
def State.input (s : State) : Option Input → State
  | none => s
  | some (.msg m) => if s.admits m then { s with fabric := s.fabric ++ [m] } else s
  | some (.memError l) => if smem s.marks l then s else { s with latent := sadd s.latent l }
  | some (.lmError c w) =>
    s.modCoreAt c fun y => if smem y.lmMarks w then y else { y with lmLatent := sadd y.lmLatent w }

end Sys2Proof.Machine
end

