-- ==== Sys2Proof/Machine/Turn.lean ====
section
/-! DEFINITION. A turn of the schedule: the scalar stream of a hart fetches and runs a word, or an event happens, with what
it is granted; which turns the harts of a core may take when they share a resource; and where an instruction is put so
that a turn runs it. -/

namespace Sys2Proof.Machine

/-! ### Grants (05_harts R126, 01_machine R23) -/

/-- The hart has gone on: its PC, what it waits for or its store buffer is another, or it has taken a trap. -/
def Hart.moved (k l : Hart) : Bool :=
  k.pc != l.pc || k.wait != l.wait || k.sbuf.length != l.sbuf.length || k.trap.taken != l.trap.taken
/-- An outcome with the resources that its work was granted; a turn that only waits is granted nothing (04_scalar R87).
`goes` says that the work never waits, though it may leave the hart where it was. -/
def State.granting (s : State) (goes : Bool) (rs : List Resource) (o : Out) : Out :=
  match o with
  | .next u => .next (if goes || s.hart.moved u.hart then u.grant rs else u)
  | o => o

/-- The resources that an event of the scalar stream takes: the block reader for a word that it places, and what a load's
data or a buffered store goes to. The events of the queues are granted what they use as they run. -/
def State.eventUses (s : State) : Instr → List Resource
  | .blockWordPlace => [.reader]
  | .scalarLoadData => (match s.hart.wait with
    | .load r => r.loc.uses
    | _ => [])
  | .storeBufferWrite => (match s.hart.sbuf with
    | b :: _ => b.loc.uses
    | [] => [])
  | _ => []

/-! ### Turns -/

/-- A hart's next scalar word runs: fetched, decoded, held back where it may not issue yet, executed (02_stream R28,
R31, 04_scalar R87). -/
def scalarTurn (s : State) : Host.Outcome State Fault Refusal :=
  if !s.hart.mayIssue then .next s
  else match s.fetch32 s.hart.pc with
    | .error (f, t) => trap f.1 f.2 t
    | .ok (w, t) =>
      match decode32 w with
      | .error _ => t.granting true [.issue] (exec (.illegalInstruction w) t)
      | .ok i => match t.gate i with
        | some o => o
        | none => t.granting (goesOn i) (t.issueUses i) (exec i t)

/-- What a turn finds: the hart whose turn it is, and what has arrived from outside. -/
def Turn.start (t : Turn) (s : State) : State := (s.at t.core t.hart).input t.input
/-- The work of a turn: the hart's scalar stream, or an event. -/
def turnWork (t : Turn) (s : State) : Host.Outcome State Fault Refusal :=
  match t.ev with
  | none => scalarTurn s
  | some i => if isEvent i then s.granting false (s.eventUses i) (exec i s) else .next s
/-- The work of a turn holds a store that has to wait until Propolis has drained its unit (13_collective R307). -/
def waitsForDrain : Host.Outcome State Fault Refusal → Bool
  | .next u => u.storeWaits
  | _ => false
/-- A turn taken. Work of which a store has to wait for a drain waits with it, as a whole: the turn leaves what it found
(13_collective R307). DEDUCED, log 50. -/
def takeTurn (t : Turn) (s : State) : Host.Outcome State Fault Refusal :=
  let s := t.start s
  let o := turnWork t s
  if waitsForDrain o then .next s else o
/-- The turn is an event from outside that has to wait for a drain: it is kept (13_collective R307). DEDUCED, log 50. -/
def State.holdsUp (s : State) (t : Turn) : Bool := t.ev.any fromOutside && waitsForDrain (turnWork t (t.start s))

/-! ### Arbitration (05_harts R126, 01_machine R23) -/

/-- The shared resources that a turn of a hart takes up, all of them: those of every word of a convoy, and the route unit
for a word that completes (20_prog_moe R366). -/
def State.resourcesOf (s : State) (t : Turn) : List Resource :=
  let k := s.hartAt t.core t.hart
  let u := s.at t.core t.hart
  let head := match headRun k.q.vq with
    | some xs => u.headUses xs
    | none => []
  match t.ev with
  | none => u.nextUses
  | some .combWordIssue => (match k.q.cq with
    | x :: _ => u.combUses (x.meaning u)
    | [] => [])
  | some (.convoyDispatch _) | some .vwaitWake | some .vwaitPoll | some .fwaitRelease => head
  | some .rrecvTake | some .rrecvTimeout => [.route, .banks]
  | some i => u.eventUses i

/-- The parts of a state that a turn changes by doing something: all but whose turn it was and what was granted. -/
def State.work (s : State) : State :=
  { s with cc := 0, ch := 0, cores := s.cores.map fun p => (p.1, { p.2 with lastGrant := [] }) }
/-- The hart's next scalar instruction issues whatever it leaves as it was (04_scalar R87, R99). -/
def State.goesRound (s : State) : Bool := s.issueAsked && s.nextInstr.all goesOn
/-- A turn would do something, or issue an instruction: the hart waits for a grant, not for its own earlier work. -/
def State.ready (s : State) (t : Turn) : Bool :=
  (t.ev.isNone && (s.at t.core t.hart).goesRound) || match takeTurn t s with
    | .next u => u.work != s.work
    | _ => true

/-- How many harts after the one last granted a resource a hart comes. -/
def Core.after (y : Core) (r : Resource) (h : Nat) : Nat :=
  match y.lastGrant.find? fun p => p.1 == r with
  | some p => (h + 7 - p.2) % 8
  | none => h
/-- A hart of a core is granted a resource before another: by its higher level, else by the round; the block reader
knows no levels (R126). -/
def Core.before (y : Core) (r : Resource) (h g : Nat) : Bool :=
  let a := (y.hartAt h).place.level r
  let b := (y.hartAt g).place.level r
  (r != .reader && decide (b.toNat < a.toNat)) || ((r == .reader || a == b) && decide (y.after r h < y.after r g))

/-- An event whose moment is free, because no clocks are counted (log 5): until it comes its hart asks for nothing. -/
def comesInTime : Option Instr → Bool
  | some .rrecvTimeout | some .vwaitTimeout | some .vwaitPoll => true
  | _ => false
/-- A turn of a hart loses a resource that it takes up to another hart's that is ready; one whose moment is free takes it
from no other. DESIGN CHOICE, log 2. -/
def State.outranked (s : State) (ts : List Turn) (r : Resource) (t : Turn) : Bool :=
  (s.resourcesOf t).contains r && ts.any fun u =>
    u.core == t.core && u.hart != t.hart && !comesInTime u.ev && (s.resourcesOf u).contains r && (s.coreAt t.core).before r u.hart t.hart && s.ready u

/-- What a hart of a core keeps from one grant of a word that has begun to the next: the Comb for a TSAVE, which holds it for the
whole instruction (R23, 10_comb R239), and the route unit (20_prog_moe R366). -/
def State.keeps (s : State) (c h : Nat) : List Resource :=
  let u := s.at c h
  (if u.hart.q.comb.any TileMove.saves then [.comb] else [])
    ++ (if u.hart.sequencing then ((u.hart.q.vq.head?).map fun x => (x.meaning u).takes).getD [] else [])
/-- A turn takes up a resource that another hart of the core keeps. -/
def State.keptFrom (s : State) (t : Turn) : Bool :=
  (s.coreAt t.core).harts.any fun p => p.1 != t.hart && (s.keeps t.core p.1).any (s.resourcesOf t).contains

/-- The turns left after each resource, one after another, has gone to the first of the harts of a core that are ready
for it (R23, R126). -/
def State.arbitrate (s : State) : List Resource → List Turn → List Turn
  | [], ts => ts
  | r :: rs, ts => s.arbitrate rs (ts.filter fun t => !s.outranked ts r t)

/-- Where the element group ends that a convoy comes to next: that of its first word that is not done. -/
def nextGroup : List VMeaning → List Nat → Nat
  | [], _ => 1
  | m :: r, es => if es.headD 0 < m.len then es.headD 0 + 1 else nextGroup r (es.drop 1)
/-- A grant of a slice port or of the banks is one access (R23, R127): a convoy that takes it while another hart of the core
is ready for it goes on by one element group, whose accesses count as one. DESIGN CHOICE, log 7. -/
def State.oneAccess (s : State) (ts : List Turn) (t : Turn) : Turn :=
  match t.ev with
  | some (.convoyDispatch _) =>
    let shared := (s.resourcesOf t).filter fun r => r == .slice || r == .banks
    if ts.any fun u => u.core == t.core && u.hart != t.hart && !comesInTime u.ev
        && (s.resourcesOf u).any shared.contains && s.ready u then
      let u := s.at t.core t.hart
      let ms := ((headRun u.hart.q.vq).getD []).map fun x => x.meaning u
      { t with ev := some (.convoyDispatch (BitVec.ofNat 32 (nextGroup ms (u.hart.q.flight.getD [])))) }
    else t
  | _ => t

/-- The turns the machine may take by itself. Which of the turns left comes next is free (log 2). -/
def State.turns (s : State) : List Turn :=
  let ts := s.offers.filter fun t => !s.keptFrom t
  (s.arbitrate [.issue, .reader, .comb, .route, .engine, .banks, .slice] ts).map (s.oneAccess ts)

/-! ### An instruction placed where the next step fetches -/

/-- Where withFetchWord puts scalar words, and the root of the page table that maps them. -/
def fetchAt : Nat := 0x1000
/-- The physical address of the page-table root that withFetchWord uses. -/
def fetchRoot : Nat := 0x10000

/-- Bytes put into memory with clean lines. -/
def State.place (s : State) (pa : Nat) : List Byte → State
  | [] => s
  | b :: r => ({ s with mem := mput memDefault s.mem pa b }.cleanLine (lineOf pa)).place (pa + 1) r

/-- A hart at program level that may issue, with its PC at the placed word. -/
def fetchHart (k : Hart) : Hart :=
  { k with
    pc := BitVec.ofNat 64 fetchAt
    ptroot := BitVec.ofNat 64 fetchRoot
    place := { k.place with placed := true }
    trap := { k.trap with system := false, pend := false, stepped := none, checks := [] }
    q := { k.q with vq := [], cq := [], stall := .none, flight := none, begun := none, comb := none, owed := none }
    wait := .none
    halted := false }

/-- A placed word alone in its queue, as a VBLK would have captured it. -/
def fetchQueue (k : Hart) (w : Word) : Hart :=
  let x : Entry := { word := w, addr := BitVec.ofNat 64 fetchAt, sval := k.rd (sOf w), fval := k.rd (fOf w), cfg := k.cfg
                     seq := 0, pre := false, prog := true }
  { k with q := { k.q with
      vq := if isCombWord w then [] else [x]
      cq := if isCombWord w then [x] else []
      nextSeq := 2 } }

end Sys2Proof.Machine
end

