-- ==== Sys2Proof/Machine/Step.lean ====
section
/-! DEFINITION. One step of the machine, and the state with an instruction where the next step fetches. -/

namespace Sys2Proof.Machine

/-- One of the turns that the machine may take by itself (log 2), else nothing. -/
def ownTurn (s : State) : Host.Outcome State Fault Refusal :=
  match s.turns[Config.pick (2 * s.tick) % s.turns.length]? with
  | some t => takeTurn t s
  | none => .next s

/-- One step: the first turn of the agenda, else one of the turns the machine may take by itself (log 2), else
nothing but the passing of a step. DESIGN CHOICE, log 67. While an event from outside has to wait for a drain
(13_collective R307) it stays first, and the machine goes on by itself. DEDUCED, log 50. -/
def step (s : State) : Host.Outcome State Fault Refusal :=
  let s := { s with tick := s.tick + 1 }
  match s.agenda with
  | t :: r =>
    let u := { s with agenda := r }
    if u.holdsUp t then ownTurn s else takeTurn t u
  | [] => ownTurn s

/-- The state with an instruction placed so that the next step fetches and runs it (log 1): a scalar word in memory at
the PC of hart 0 of core 0, or a vector or comb word at the head of that hart's queue. -/
def State.withFetchWord (s : State) (nbits w : Nat) : State :=
  let s := (s.modHartAt 0 0 fetchHart).modCoreAt 0 fun y => { y with tlb := [], icache := [] }
  if nbits ≤ 32 then
    let s := (s.place fetchAt (bytesOf 4 w)).place fetchRoot (bytesOf 8 0x3F)
    { s.modTenAt ((s.hartAt 0 0).place.ten.toNat) fun x => { x with wins := (0, 0, 0x1000000) :: x.wins } with
      agenda := { core := 0, hart := 0, input := none, ev := none } :: s.agenda }
  else
    let v : Word := BitVec.ofNat 64 w
    { s.modHartAt 0 0 fun k => fetchQueue k v with
      agenda := { core := 0, hart := 0, input := none
                  ev := some (if isCombWord v then .combWordIssue else .convoyDispatch (BitVec.allOnes 32)) } :: s.agenda }

end Sys2Proof.Machine
end

