-- ==== Sys2Proof/Safety.lean ====
section
/-! DEFINITION. The terms in which claims speak: the canonical form of memory, legal shapes, what a step may leave
unchanged, how a scalar instruction ends, and how a trap of the scalar stream is taken. -/

namespace Sys2Proof.Machine

/-! ### Invariants -/

/-- Memory is in canonical form: addresses strictly rising, and no entry equal to what an unlisted address reads as. -/
def Memory.wf (m : List Host.Cell) : Bool := mwf memDefault m

/-- The memory of a state is in canonical form. -/
def State.memOk (s : State) : Prop := Memory.wf s.mem = true

/-- NREG and H are legal (05_harts R106, R107, R113). -/
def Hart.legal (k : Hart) : Prop :=
  (k.cfg.nreg = 8 ∨ k.cfg.nreg = 16 ∨ k.cfg.nreg = 32) ∧ (k.place.h = 1 ∨ k.place.h = 2 ∨ k.place.h = 4 ∨ k.place.h = 8)

/-- Every hart is legal, and where the launcher has passed a descriptor, it stands at the head of its queue and holds a
legal H and NREG (05_harts R104). -/
structure State.shapesOk (s : State) : Prop where
  harts : ∀ p ∈ s.cores, ∀ q ∈ p.2.harts, q.2.legal
  descs : ∀ p ∈ s.tens, p.2.checked = true → ∃ d r, p.2.lq = d :: r
    ∧ (d.h = 1 ∨ d.h = 2 ∨ d.h = 4 ∨ d.h = 8) ∧ (d.f 1 8 8 = 8 ∨ d.f 1 8 8 = 16 ∨ d.f 1 8 8 = 32)

/-- A run is safe while the memory is in canonical form and the shapes are legal. -/
def State.safe (s : State) : Prop := s.memOk ∧ s.shapesOk

/-! ### What stays as it was -/

/-- Only the hart whose turn it is may differ: every other hart, the rest of every core, every byte of memory, and
everything else in the module is as before. -/
structure SameElse (s t : State) : Prop where
  harts : ∀ c h, (c, h) ≠ (s.cc, s.ch) → t.hartAt c h = s.hartAt c h
  cores : ∀ c, { t.coreAt c with harts := [] } = { s.coreAt c with harts := [] }
  bytes : ∀ a, t.byte a = s.byte a
  rest  : { t with cores := [] } = { s with cores := [] }

/-- The same, but that translations may have been cached (08_memory R171). -/
structure SameButTlb (s t : State) : Prop where
  harts : ∀ c h, (c, h) ≠ (s.cc, s.ch) → t.hartAt c h = s.hartAt c h
  cores : ∀ c, { t.coreAt c with harts := [], tlb := [] } = { s.coreAt c with harts := [], tlb := [] }
  bytes : ∀ a, t.byte a = s.byte a
  rest  : { t with cores := [] } = { s with cores := [] }

/-- Only harts, the core's own parts and memory may differ: every other core, and all but memory and DRAM outside the
cores, is as before. -/
structure SameButMem (s t : State) : Prop where
  harts : ∀ c h, (c, h) ≠ (s.cc, s.ch) → t.hartAt c h = s.hartAt c h
  rest  : { t with cores := [], mem := [], dram := [], marks := [], latent := [] }
    = { s with cores := [], mem := [], dram := [], marks := [], latent := [] }

/-! ### The end of a scalar instruction (04_scalar R87, 02_stream R40, 14_system R332, 05_harts R126) -/

/-- The hart is neither traced nor under a debug step, so that an instruction's end leaves nothing but the hart's
own state. -/
def State.Quiet (s : State) : Prop := s.mgr.traced ≠ some (s.cc, s.ch) ∧ s.hart.dbgStep = false

/-- A hart whose instruction has completed: the PC has moved, the wait is over, BPC is cleared at program level, a
single step is noted, and the level for issue is PRIO again. -/
def Hart.retire (k : Hart) (pc : Word) : Hart :=
  { k with
    pc := pc
    wait := .none
    vec := { k.vec with bpc := if k.trap.system then k.vec.bpc else 0 }
    trap := { k.trap with stepped := if k.trap.step && !k.trap.system then some k.pc else k.trap.stepped }
    place := { k.place with levels := k.place.levels.filter fun p => p.1 != .issue } }

/-- An instruction completes at a PC, and the hart is otherwise as `f` leaves it. -/
def Ends (s : State) (o : Out) (pc : Word) (f : Hart → Hart) : Prop :=
  ∃ t, o = .next t ∧ SameElse s t ∧ t.hart = (f s.hart).retire pc

/-- An instruction completes at a PC, having written one scalar register; s0 discards the write (02_stream R30). The
hart is otherwise as `f` leaves it. -/
def Sets (s : State) (o : Out) (pc : Word) (d : BitVec 5) (v : Word) (f : Hart → Hart) : Prop :=
  ∃ t, o = .next t ∧ SameElse s t
    ∧ (∀ r, t.rd r = if r = 0 then 0 else if r = d then v else s.rd r)
    ∧ t.hart = { (f s.hart).retire pc with sregs := t.hart.sregs }

/-- The PC of the next word. -/
def State.nextPc (s : State) : Word := s.hart.pc + 4

/-! ### Traps of the scalar stream (14_system R313) -/

/-- No convoy and no move of a tile is under way on the hart, and no debug step. -/
def State.Calm (s : State) : Prop :=
  s.hart.q.flight = none ∧ s.hart.q.stall = .none ∧ s.hart.q.landed = [] ∧ s.hart.q.comb = none ∧ s.hart.dbgStep = false

/-- A hart that has taken a synchronous trap of the scalar stream: SEPC is the instruction's address, SCAUSE has
source 0, STVAL its value; SPP and SPIE hold the old level and SIE, SIE is 0, the level is system, the PC is STVEC
with bits [1:0] zero; the words in the queues start nothing more, and read their registers and ask for their grants when
they dispatch again (02_stream R45). -/
def Hart.trapped (k : Hart) (code : BitVec 8) (tval : Word) : Hart :=
  { k with
    pc := k.trap.stvec &&& ~~~3
    trap := { k.trap with
      sepc := k.pc, scause := code.setWidth 10, stval := tval, spp := k.trap.system, spie := k.trap.sie
      system := true, sie := false, stepped := none, taken := k.trap.taken + 1 }
    q := { k.q with vq := k.q.vq.map fun e => { e.undispatched with pre := true }
                    cq := k.q.cq.map fun e => { e with pre := true }
                    owed := k.q.owed.map fun o => { o with pre := true } }
    wait := .none }

/-- An instruction takes a trap, and nothing but the hart differs, but for the mark of an error that the walk met
(08_memory R174). -/
def Traps (s : State) (o : Out) (code : BitVec 8) (tval : Word) : Prop :=
  ∃ t, o = .next t ∧ SameElse (s.markWalk s.cc s.hart.ptroot code tval) t ∧ t.hart = s.hart.trapped code tval

/-! ### Memory in claims -/

/-- No snapshot is armed, cutting or draining in any tenancy, so that a store changes nothing but its bytes and waits for
nothing (13_collective R307). -/
def State.NoSnapshot (s : State) : Prop := ∀ p ∈ s.tens, p.2.prop.st ≠ 1 ∧ p.2.prop.st ≠ 2 ∧ p.2.prop.st ≠ 3 ∧ p.2.prop.waits = false

/-- A store sets D for a part: the translation that serves it has D clear (08_memory R171). -/
def Part.dirties (p : Part) : Bool := p.tr.any fun t => !t.d
/-- D cannot be set in the leaf of a part: it is clear, and the leaf's line has an error that no mark records
(08_memory R174). -/
def State.dirtyFails (s : State) (p : Part) : Bool :=
  p.tr.any fun t => !t.d && !(s.byte t.leaf).getLsbD 5 && s.hasError (.mem t.leaf)
/-- A byte of memory with D set in the leaf of a part (08_memory R171). -/
def State.dirtied (s : State) (p : Part) (a : Nat) : Byte :=
  if (p.tr.map Tr.leaf) = some a ∧ p.dirties ∧ s.dirtyFails p = false then s.byte a ||| 0x20 else s.byte a

/-- Byte `i` of a value (00_scope R2). -/
def byteOf (v : Word) (i : Nat) : Byte := v.extractLsb' (8 * i) 8

end Sys2Proof.Machine
end

