-- ==== Sys2Proof/Certificates/Slice0/Obligations.lean ====
section
/-! DEFINITION. The statements for the provers. Each says in its docstring which rules of the spec it follows. -/

open Sys2Proof Sys2Proof.Machine

/-- Words that the example tables of the class chapters print decode to the instructions printed beside them: one of
each scalar format, R, I, B, J and C among them, and several vector sub-formats. (04_scalar, 05_harts, 06_varith,
08_memory, 10_comb, 11_route, 12_engines, 14_system) -/
def Obligations.SampleWords : Prop :=
  decode32 0x00A32000 = .ok (.add 5 3 4) ∧ decode32 0x05630008 = .ok (.addi 11 3 8)
  ∧ decode32 0x44C2FFF8 = .ok (.sw 6 2 0xFFF8) ∧ decode32 0x55600023 = .ok (.bne 11 0 0x23)
  ∧ decode32 0x68200007 = .ok (.jal 1 7) ∧ decode32 0x78000002 = .ok (.vblk 2)
  ∧ decode32 0x70A320F8 = .ok (.amoAdd 5 3 4 true true true .M) ∧ decode32 0x89600400 = .ok (.csrr 11 0 0x040)
  ∧ decode64 0x1081CC0001000001 = .ok (.vadd { c := true, pm := none } 7 6 (.scal 8) 0)
  ∧ decode64 0x5059400000680000 = .ok (.vldK false 3 .unit 5 3 0 0)
  ∧ decode64 0x5C00C00003C10000 = .ok (.vldwM false 3 30 0)
  ∧ decode64 0x700014C400000000 = .ok (.ctri 0 10 12 8 0 0 0)
  ∧ decode64 0x8050500600000000 = .ok (.enqStk { c := false, pm := some 2 } 1 12 8)
  ∧ decode64 0x0000000000000000 = .ok .vstop

/-- Where the agenda gives the next turn to the scalar stream of a hart, the step is this: a hart that may not issue
waits; a fetch that fails traps with its cause; a word that no instruction has runs the illegal instruction; an
instruction that the scoreboard holds back does what the gate says; and any other decoded instruction runs by exec,
in the state that the fetch leaves. Where it names an event of the table, with or without something that arrives
from outside first, the step is exec of that event in the state with the arrival. What exec answers stands, with the
grants of what was used noted where the hart has gone on: its PC, its wait or its buffer is another, or it has taken
a trap (counted in a field of the model’s own, log 67), or where the instruction never waits, as a branch or a jump
that may go to its own address; a turn that names an instruction of the streams in place of an event changes nothing
but the count of steps. The state counts the step and names the hart. With nothing on the agenda the step takes a
turn that the machine may take by itself, which one being free (log 2). Work of which a store has to wait until
Propolis has drained its unit waits as a whole, and the turn leaves what it found; an event from outside then stays
first on the agenda, and the machine takes a turn by itself (R307, log 50, the model’s reading). (02_stream R28,
02_stream R31, 04_scalar R87, 02_stream R45, 02_stream R46, 95_what_each_step_holds, 00_scope R6, 13_collective
R307) -/
def Obligations.StepRunsTheTurn : Prop :=
  ∀ (s u : State) (c h : Nat) (r : List Turn),
    let v := { s with tick := s.tick + 1 }
    let own := (∃ t ∈ v.turns, step s = takeTurn t v) ∨ (v.turns = [] ∧ step s = .next v)
    let does := fun (u : State) (o : Out) => step s = if waitsForDrain o then .next u else o
    (s.agenda = { core := c, hart := h, input := none, ev := none } :: r →
      u = { s with tick := s.tick + 1, agenda := r, cc := c, ch := h } →
      (u.hart.mayIssue = false → step s = .next u)
      ∧ (u.hart.mayIssue = true → ∀ f t, u.fetch32 u.hart.pc = .error (f, t) → does u (trap f.1 f.2 t))
      ∧ (u.hart.mayIssue = true → ∀ w t, u.fetch32 u.hart.pc = .ok (w, t) →
          (∀ e, decode32 w = .error e → does u (t.granting true [.issue] (exec (.illegalInstruction w) t)))
          ∧ (∀ i, decode32 w = .ok i → (∀ o, t.gate i = some o → does u o) ∧ (t.gate i = none → does u (t.granting (goesOn i) (t.issueUses i) (exec i t))))))
    ∧ (∀ x i, s.agenda = { core := c, hart := h, input := x, ev := some i } :: r →
        ∀ u, u = State.input { s with tick := s.tick + 1, agenda := r, cc := c, ch := h } x →
          let o := u.granting false (u.eventUses i) (exec i u)
          (isEvent i = false → step s = .next u)
          ∧ (isEvent i = true → (fromOutside i = false ∨ waitsForDrain o = false) → does u o)
          ∧ (isEvent i = true → fromOutside i = true → waitsForDrain o = true → own))
    ∧ (∀ o : Out, waitsForDrain o = true ↔ ∃ w, o = .next w ∧ ∃ p ∈ w.tens, p.2.prop.waits = true)
    ∧ (∀ (u v : State) goes rs, u.granting goes rs (.next v) = .next (if goes = true ∨ u.hart.moved v.hart = true then v.grant rs else v))
    ∧ (∀ a b off, goesOn (.beq a b off) = true ∧ goesOn (.bne a b off) = true ∧ goesOn (.blt a b off) = true ∧ goesOn (.bge a b off) = true
        ∧ goesOn (.bltu a b off) = true ∧ goesOn (.bgeu a b off) = true) ∧ (∀ d off, goesOn (.jal d off) = true) ∧ (∀ d a off, goesOn (.jalr d a off) = true)
    ∧ (∀ u v : State, ∀ rs, (v.grant rs).mem = v.mem ∧ (v.grant rs).hart = v.hart.granted rs
        ∧ (u.hart.moved v.hart = false ↔ u.hart.pc = v.hart.pc ∧ u.hart.wait = v.hart.wait ∧ u.hart.sbuf.length = v.hart.sbuf.length
          ∧ u.hart.trap.taken = v.hart.trap.taken))
    ∧ (s.agenda = [] → own)

/-- For an address of the translated space whose walk succeeds with execute permission, in a line with neither mark nor
error, a fetch that finds no word in the instruction cache gives the little-endian word of the four bytes at the
physical address, keeps the word in the instruction cache and a translation of the page, the one that the walk gives
where none was kept before, in the translation cache, and leaves every byte of memory as it was. A fetch that finds
the word in the cache gives the cached word. That every fetch keeps its word and that a kept word is always the one
served, where R31 lets either run, is the model’s reading (log 48). (02_stream R31, 08_memory R166, 08_memory R170,
08_memory R174) -/
def Obligations.FetchReadsMemory : Prop :=
  ∀ (s : State) (va : Word) (l : Leaf) (t : Tr),
    spaceOf va = some .translated → s.walkStage s.cc s.hart .fetch va.toNat = .ok (l, t) →
    s.permFails s.hart .fetch 4 l t = false →
    (∀ p, s.core.icache.find? (fun p => p.1 == t.pa) = some p → s.fetch32 va = .ok (p.2, s))
    ∧ (s.core.icache.find? (fun p => p.1 == t.pa) = none → s.marked (.mem t.pa) = false → s.hasError (.mem t.pa) = false →
        ∃ u, s.fetch32 va = .ok (BitVec.ofNat 32 (s.readMem t.pa 4), u) ∧ (∀ a, u.byte a = s.byte a) ∧ u.hart = s.hart
          ∧ mget 0 u.core.icache t.pa = BitVec.ofNat 32 (s.readMem t.pa 4)
          ∧ ∃ e ∈ u.core.tlb, e.ten = s.hart.place.ten ∧ e.root = s.hart.ptroot ∧ e.page = va.toNat / 65536
              ∧ (e ∈ s.core.tlb ∨ (e.pte = l.pte ∧ e.level = l.level ∧ e.pteAt = l.at_)))

/-- After power-on no core runs a launch, no launch is placed and nothing is queued; every VGRANT is 8, every
route-table entry is 0 and every frame is idle; in every tenancy block the trap vector, INTSTAT, INTMASK and ERRADDR
are 0, every slice class has its reset value and Propolis is idle; the manager is booting with DEVNUM unwritten,
PLIMIT 3400 and every core group free. Its memory is in canonical form, which is the model’s own (log 4), and its
shapes are legal. (05_harts R114, 11_route R241, 15_device R338, 15_device R355, 15_device R356, 08_memory R176,
13_collective R304) -/
def Obligations.ResetLeaves : Prop :=
  (∀ c, (State.reset.coreAt c).launch = none ∧ (State.reset.coreAt c).vgrant = 8
      ∧ (∀ n : Fin 64, (State.reset.coreAt c).routes[n] = 0) ∧ (∀ n : Fin 4, (State.reset.coreAt c).frames[n].st = 0)
      ∧ ∀ h, (State.reset.hartAt c h).place.placed = false)
  ∧ (∀ t, (State.reset.tenAt t).lq = [] ∧ (State.reset.tenAt t).trapvec = 0 ∧ (State.reset.tenAt t).intstat = 0
      ∧ (State.reset.tenAt t).intmask = 0 ∧ (State.reset.tenAt t).erraddr = 0 ∧ (State.reset.tenAt t).prop.st = 0
      ∧ ∀ n : Fin 8, (State.reset.tenAt t).classes[n] = { pol := 0, age := 2, ways := 0xFFFF })
  ∧ State.reset.launches = [] ∧ State.reset.fabric = [] ∧ State.reset.mgr.state = 0 ∧ State.reset.mgr.devlock = false
  ∧ State.reset.mgr.plimit = 3400 ∧ (∀ n : Fin 16, State.reset.mgr.groupown[n] = 0x7F)
  ∧ State.reset.safe

/-- From every state whose memory is in canonical form, a step that answers a next state leaves the memory in canonical
form. The canonical form is the model’s own (log 4). (08_memory R167, 08_memory R174, 00_scope R2) -/
def Obligations.StepKeepsMemoryCanonical : Prop :=
  ∀ s t : State, s.memOk → step s = .next t → t.memOk

/-- From every state in which each hart has NREG 8, 16 or 32 and H 1, 2, 4 or 8, and in which a descriptor that the
launcher has passed stands at the head of its queue with legal values, a step that answers a next state leaves such
a state. (05_harts R104, 05_harts R106, 05_harts R107, 05_harts R113, 05_harts R117) -/
def Obligations.StepKeepsLegalShapes : Prop :=
  ∀ s t : State, s.shapesOk → step s = .next t → t.shapesOk

/-- For every well-formed instruction with a 32-bit encoding, decoding that word gives the instruction, with every
operand at every value the encoding admits; and a 32-bit word that the decoder accepts is the word that the encoder
gives for the instruction it decodes to, which is well-formed, so that no bit of an accepted word is ignored.
(02_stream R26, 02_stream R27, 02_stream R28, 02_stream R29, 14_system R319, 05_harts R116) -/
def Obligations.ScalarRoundTrip : Prop :=
  (∀ (i : Instr) (w : BitVec 32), i.wellFormed = true → encode32 i = some w → decode32 w = .ok i)
  ∧ ∀ (w : BitVec 32) (i : Instr), decode32 w = .ok i → encode32 i = some w ∧ i.wellFormed = true

/-- For every instruction with a 64-bit encoding, decoding that word gives the instruction, with every operand at every
value the encoding admits; and a 64-bit word that the decoder accepts is the word that the encoder gives for the
instruction it decodes to, so that no bit of an accepted word is ignored. (02_stream R32, 02_stream R33, 02_stream
R34, 06_varith R138, 08_memory R178, 08_memory R193, 10_comb R233) -/
def Obligations.VectorRoundTrip : Prop :=
  (∀ (i : Instr) (w : Word), encode64 i = some w → decode64 w = .ok i)
  ∧ ∀ (w : Word) (i : Instr), decode64 w = .ok i → encode64 i = some w

/-- In every state, a word of format I with OP 6 whose imm16[15:8] is 0 decodes, for imm16[7:6] = 0, 1 and 2, to SHLI,
SHRI and SARI, which set s[d] to s[a] shifted by imm16[5:0] as SHL, SHR and SAR shift it; a word with imm16[7:6] = 3
or a non-zero imm16[15:8] has no instruction. With a = 0, OP 7 is LHI, which sets s[d] to sext(imm16, 16) times
65,536, bits [15:0] 0 and bits [63:32] copies of imm16[15], and OP 8 is ADDPC, which sets it to that plus the PC of
the ADDPC itself, modulo 2^64; with another a neither is an instruction. A word that is none raises cause 0x01 (with
no convoy under way, which would complete first). A write of s0 is discarded and no other register changes.
(04_scalar R93, 04_scalar R94) -/
def Obligations.ShiftsByImmediateAndUppers : Prop :=
  ∀ (s : State) (d a : BitVec 5) (imm : BitVec 16),
    let word := fun (op : BitVec 6) => op ++ d ++ a ++ imm
    let x := s.rd a
    let n := imm.toNat % 64
    let form := imm.toNat / 64
    let upper := BitVec.ofInt 64 (imm.toInt * 65536)
    let runs := fun (op : BitVec 6) (v : Word) => ∃ i t, decode32 (word op) = .ok i ∧ exec i s = .next t
      ∧ (∀ r, t.rd r = if r = 0 then 0 else if r = d then v else s.rd r)
      ∧ t.hart.trap.system = s.hart.trap.system ∧ t.hart.trap.scause = s.hart.trap.scause
    let illegal := fun (op : BitVec 6) => (∃ e, decode32 (word op) = .error e)
      ∧ (s.Calm → Traps s (exec (.illegalInstruction (word op)) s) 0x01 ((word op).setWidth 64))
    (form = 0 → runs 6 (BitVec.ofNat 64 (x.toNat * 2 ^ n)))
    ∧ (form = 1 → runs 6 (BitVec.ofNat 64 (x.toNat / 2 ^ n)))
    ∧ (form = 2 → runs 6 (BitVec.ofInt 64 (x.toInt / 2 ^ n)))
    ∧ (imm.extractLsb' 6 2 = 3 ∨ imm.extractLsb' 8 8 ≠ 0 → illegal 6)
    ∧ (a = 0 → runs 7 upper ∧ runs 8 (s.hart.pc + upper))
    ∧ (a ≠ 0 → illegal 7 ∧ illegal 8)
    ∧ (∀ i < 64, (i < 16 → upper.getLsbD i = false) ∧ (32 ≤ i → upper.getLsbD i = imm.getLsbD 15))

/-- ADD, SUB, AND, OR, XOR, SHL, SHR, SAR, SLT, SLTU, MUL, MULH, DIV, DIVU, REM, MIN and MAX complete in every state
whose hart is neither traced nor in a debug step: s[d] takes the value that R90 or R91 gives as integers (shift
amounts modulo 64, division truncating, all ones or the dividend for a zero divisor, wrap on overflow), a write of
s0 is discarded, the PC moves by 4, and every other register, the rest of the hart, every other hart and every byte
of memory stay. (04_scalar R90, 04_scalar R91, 02_stream R30) -/
def Obligations.AluRegisterResults : Prop :=
  ∀ (s : State) (d a b : BitVec 5), s.Quiet →
    let x := s.rd a
    let y := s.rd b
    let does := fun (i : Instr) (v : Word) => Sets s (exec i s) s.nextPc d v id
    does (.add d a b) (BitVec.ofInt 64 (x.toInt + y.toInt))
    ∧ does (.sub d a b) (BitVec.ofInt 64 (x.toInt - y.toInt))
    ∧ does (.and d a b) (BitVec.ofFnLE fun i => x[i] && y[i])
    ∧ does (.or d a b) (BitVec.ofFnLE fun i => x[i] || y[i])
    ∧ does (.xor d a b) (BitVec.ofFnLE fun i => x[i] != y[i])
    ∧ does (.shl d a b) (BitVec.ofNat 64 (x.toNat * 2 ^ (y.toNat % 64)))
    ∧ does (.shr d a b) (BitVec.ofNat 64 (x.toNat / 2 ^ (y.toNat % 64)))
    ∧ does (.sar d a b) (BitVec.ofInt 64 (x.toInt / 2 ^ (y.toNat % 64)))
    ∧ does (.slt d a b) (if x.toInt < y.toInt then 1 else 0)
    ∧ does (.sltu d a b) (if x.toNat < y.toNat then 1 else 0)
    ∧ does (.mul d a b) (BitVec.ofInt 64 (x.toInt * y.toInt))
    ∧ does (.mulh d a b) (BitVec.ofInt 64 (x.toInt * y.toInt / 2 ^ 64))
    ∧ does (.div d a b) (if y = 0 then BitVec.allOnes 64 else BitVec.ofInt 64 (x.toInt.tdiv y.toInt))
    ∧ does (.divu d a b) (if y = 0 then BitVec.allOnes 64 else BitVec.ofNat 64 (x.toNat / y.toNat))
    ∧ does (.rem d a b) (if y = 0 then x else BitVec.ofInt 64 (x.toInt.tmod y.toInt))
    ∧ does (.min d a b) (if x.toInt ≤ y.toInt then x else y)
    ∧ does (.max d a b) (if x.toInt ≤ y.toInt then y else x)

/-- In every state DIV, DIVU and REM give a next state in which s[d] holds the result of R91 (a write of s0 is
discarded), the other registers are as before, and no trap was taken: the level and the trap registers are as
before. With s[b] = 0 DIV gives all ones, DIVU all ones and REM s[a]; with s[a] = -2^63 and s[b] = -1 DIV gives
-2^63 and REM 0; otherwise DIV gives trunc(a / b), DIVU floor(a / b) and REM a - b times trunc(a / b). (04_scalar
R91) -/
def Obligations.DivisionNeverTraps : Prop :=
  ∀ (s : State) (d a b : BitVec 5),
    let x := s.rd a
    let y := s.rd b
    let min := BitVec.ofInt 64 (-2 ^ 63)
    let does := fun (i : Instr) (v : Word) => ∃ t, exec i s = .next t
      ∧ (∀ r, t.rd r = if r = 0 then 0 else if r = d then v else s.rd r)
      ∧ t.hart.trap.system = s.hart.trap.system ∧ t.hart.trap.sepc = s.hart.trap.sepc
      ∧ t.hart.trap.scause = s.hart.trap.scause ∧ t.hart.trap.stval = s.hart.trap.stval
    (y = 0 → does (.div d a b) (BitVec.allOnes 64) ∧ does (.divu d a b) (BitVec.allOnes 64) ∧ does (.rem d a b) x)
    ∧ (x = min → y = BitVec.allOnes 64 → does (.div d a b) min ∧ does (.rem d a b) 0)
    ∧ (y ≠ 0 → does (.divu d a b) (BitVec.ofNat 64 (x.toNat / y.toNat)))
    ∧ (y ≠ 0 → ¬ (x = min ∧ y = BitVec.allOnes 64) →
        does (.div d a b) (BitVec.ofInt 64 (x.toInt.tdiv y.toInt))
        ∧ does (.rem d a b) (BitVec.ofInt 64 (x.toInt - y.toInt * x.toInt.tdiv y.toInt)))

/-- ADDI, ANDI, ORI, XORI, SLTI, SHLI, SHRI, SARI, LHI and ADDPC complete in every state whose hart is neither traced
nor in a debug step, with the immediate sign-extended for ADDI, SLTI, LHI and ADDPC and zero-extended for the
logical ones; the frame is that of the register instructions. (04_scalar R92, 04_scalar R93, 04_scalar R94,
02_stream R30) -/
def Obligations.AluImmediateResults : Prop :=
  ∀ (s : State) (d a : BitVec 5) (imm : BitVec 16) (n : BitVec 6), s.Quiet →
    let x := s.rd a
    let does := fun (i : Instr) (v : Word) => Sets s (exec i s) s.nextPc d v id
    does (.addi d a imm) (BitVec.ofInt 64 (x.toInt + imm.toInt))
    ∧ does (.andi d a imm) (BitVec.ofFnLE fun i => x[i] && imm.getLsbD i)
    ∧ does (.ori d a imm) (BitVec.ofFnLE fun i => x[i] || imm.getLsbD i)
    ∧ does (.xori d a imm) (BitVec.ofFnLE fun i => x[i] != imm.getLsbD i)
    ∧ does (.slti d a imm) (if x.toInt < imm.toInt then 1 else 0)
    ∧ does (.shli d a n) (BitVec.ofNat 64 (x.toNat * 2 ^ n.toNat))
    ∧ does (.shri d a n) (BitVec.ofNat 64 (x.toNat / 2 ^ n.toNat))
    ∧ does (.sari d a n) (BitVec.ofInt 64 (x.toInt / 2 ^ n.toNat))
    ∧ does (.lhi d imm) (BitVec.ofInt 64 (imm.toInt * 2 ^ 16))
    ∧ does (.addpc d imm) (BitVec.ofInt 64 (s.hart.pc.toInt + imm.toInt * 2 ^ 16))

/-- BEQ, BNE, BLT, BGE, BLTU and BGEU compare s[a] with s[b], signed or unsigned, and set the PC to its own value plus 4
times the signed offset where the condition holds, else to the next word, changing no register. JAL writes PC + 4
and jumps by 4 times its offset. JALR writes PC + 4 and jumps to s[a] plus its immediate where that is a multiple of
4; elsewhere it takes cause 0x08 with the target in STVAL and writes no register. A jump that reads the register it
writes uses the old value. (04_scalar R99, 04_scalar R100, 04_scalar R101, 02_stream R25, 02_stream R30) -/
def Obligations.BranchesAndJumps : Prop :=
  ∀ (s : State) (d a b : BitVec 5) (off imm : BitVec 16) (j : BitVec 21), s.Quiet →
    let x := s.rd a
    let y := s.rd b
    let goes := fun (i : Instr) (c : Prop) (_ : Decidable c) =>
      Ends s (exec i s) (if c then BitVec.ofInt 64 (s.hart.pc.toInt + 4 * off.toInt) else s.nextPc) id
    goes (.beq a b off) (x = y) inferInstance ∧ goes (.bne a b off) (x ≠ y) inferInstance
    ∧ goes (.blt a b off) (x.toInt < y.toInt) inferInstance ∧ goes (.bge a b off) (y.toInt ≤ x.toInt) inferInstance
    ∧ goes (.bltu a b off) (x.toNat < y.toNat) inferInstance ∧ goes (.bgeu a b off) (y.toNat ≤ x.toNat) inferInstance
    ∧ Sets s (exec (.jal d j) s) (BitVec.ofInt 64 (s.hart.pc.toInt + 4 * j.toInt)) d (s.hart.pc + 4) id
    ∧ (let t := BitVec.ofInt 64 (x.toInt + imm.toInt)
       (t.toNat % 4 = 0 → Sets s (exec (.jalr d a imm) s) t d (s.hart.pc + 4) id)
       ∧ (t.toNat % 4 ≠ 0 → s.Calm → Traps s (exec (.jalr d a imm) s) 0x08 t))

/-- With no convoy under way and outside a debug step, SVC takes cause 0x23, BRK cause 0x22, and an illegal word cause
0x01 with the word in STVAL: SEPC is the instruction’s own address, SCAUSE has source 0 and the cause, SPP and SPIE
keep the old level and SIE, SIE becomes 0, the level becomes system, the PC becomes STVEC with bits [1:0] zero, the
words in the queues start nothing more; no scalar register, no byte of memory and nothing outside the hart changes.
(14_system R311, 14_system R313, 14_system R320, 02_stream R28) -/
def Obligations.TrapEntry : Prop :=
  ∀ (s : State) (w : BitVec 32), s.Calm →
    Traps s (exec .svc s) 0x23 0 ∧ Traps s (exec .brk s) 0x22 0
    ∧ Traps s (exec (.illegalInstruction w) s) 0x01 (w.setWidth 64)

/-- At system level with SEPC a multiple of 4, TRET (with VP clear) and VRET set the level to SPP, SIE to SPIE and the
PC to SEPC, and the words in the queues start again; VRET with VP set and VS not OFF also clears VP and lets the
convoy at the head of the vector queue go on from ES0 to ES5, which with all of them 0 has not started, but for a
word there that waits; a trap that a machine check left pending waits no longer (log 47, the model’s reading). No
scalar register and no memory changes. At program level both take cause 0x01, TRET also with VP set; with a
misaligned SEPC they take cause 0x08 with SEPC in STVAL. (14_system R321, 02_stream R25) -/
def Obligations.TrapReturn : Prop :=
  ∀ s : State, s.Quiet →
    let k := s.hart
    let back : Hart := { k.retire k.trap.sepc with
      trap := { (k.retire k.trap.sepc).trap with system := k.trap.spp, sie := k.trap.spie }
      q := { k.q with vq := k.q.vq.map fun e => { e with pre := false }
                      cq := k.q.cq.map fun e => { e with pre := false }
                      owed := k.q.owed.map fun o => { o with pre := false } } }
    let resumed : Hart := { back with
      vec := { back.vec with vp := false }
      q := { back.q with
        flight := if k.q.stall ≠ .none then k.q.flight
          else if k.q.vq = [] ∨ ∀ i : Fin 6, k.vec.es[i] = 0 then none else some (k.vec.es.toList.map BitVec.toNat) } }
    (k.trap.system = true → k.halted = false → k.trap.sepc.toNat % 4 = 0 →
      (k.vec.vp = false → ∃ t, exec .tret s = .next t ∧ SameElse s t ∧ t.hart = back)
      ∧ (∃ t, exec .vret s = .next t ∧ SameElse s t ∧ t.hart = if k.vec.vp = true ∧ k.vec.vs ≠ 0 then resumed else back))
    ∧ (s.Calm → k.trap.system = false ∨ k.vec.vp = true →
        Traps s (exec .tret s) 0x01 (((encode32 .tret).getD 0).setWidth 64))
    ∧ (s.Calm → k.trap.system = false → Traps s (exec .vret s) 0x01 (((encode32 .vret).getD 0).setWidth 64))
    ∧ (s.Calm → k.trap.system = true → k.trap.sepc.toNat % 4 ≠ 0 →
        (k.vec.vp = false → Traps s (exec .tret s) 0x08 k.trap.sepc) ∧ Traps s (exec .vret s) 0x08 k.trap.sepc)

namespace Sys2Proof.Machine

/-- A load issues, and its data then arrives: the register takes the value, the PC moves on, and nothing but cached
translations changes besides. -/
def LoadsAs (s : State) (o : Out) (d : BitVec 5) (v : Word) : Prop :=
  ∃ t u, o = .next t ∧ t.hart.pc = s.hart.pc ∧ t.hart.sregs = s.hart.sregs ∧ exec .scalarLoadData t = .next u ∧ SameButTlb s u
    ∧ (∀ r, u.rd r = if r = 0 then 0 else if r = d then v else s.rd r)
    ∧ u.hart = { s.hart.retire s.nextPc with sregs := u.hart.sregs }

/-- A checked part of memory or lane memory whose granule has neither mark nor error. -/
def State.Sound (s : State) (p : Part) : Prop := p.loc.isReg = false ∧ s.marked p.loc = false ∧ s.hasError p.loc = false

end Sys2Proof.Machine

/-- Where the checks of R97 pass and no store is buffered, LD, LW, LWU, LH, LHU, LB and LBU wait for their data, and
SCALAR_LOAD_DATA then writes s[d] with the 8, 4, 2 or 1 bytes at the place, little-endian, sign-extended for LW, LH
and LB and zero-extended for LWU, LHU and LBU; the PC moves on, no other register and no byte of memory changes.
(04_scalar R96, 04_scalar R97, 00_scope R2, 02_stream R30) -/
def Obligations.LoadsComplete : Prop :=
  ∀ (s : State) (d a : BitVec 5) (imm : BitVec 16) (p : Part), s.Quiet → s.hart.sbuf = [] → s.Sound p →
    let ea := BitVec.ofInt 64 ((s.rd a).toInt + imm.toInt)
    let reads := fun (i : Instr) (n : Nat) (v : Nat → Word) =>
      s.checkScalar .load n ea = .ok p → LoadsAs s (exec i s) d (v (s.readLoc p.loc n))
    reads (.ld d a imm) 8 (fun v => BitVec.ofNat 64 v)
    ∧ reads (.lw d a imm) 4 (fun v => (BitVec.ofNat 32 v).signExtend 64)
    ∧ reads (.lwu d a imm) 4 (fun v => (BitVec.ofNat 32 v).setWidth 64)
    ∧ reads (.lh d a imm) 2 (fun v => (BitVec.ofNat 16 v).signExtend 64)
    ∧ reads (.lhu d a imm) 2 (fun v => (BitVec.ofNat 16 v).setWidth 64)
    ∧ reads (.lb d a imm) 1 (fun v => (BitVec.ofNat 8 v).signExtend 64)
    ∧ reads (.lbu d a imm) 1 (fun v => (BitVec.ofNat 8 v).setWidth 64)

/-- With a load outstanding, its data arrives: for a register of the block, once no store is buffered, the register’s
value; for any other place, while no store to a register is buffered, the bytes as the hart’s own buffered stores
leave them; marked data take cause 0x19, and data with an error that no mark records take cause 0x1A and mark the
granule, with the address in STVAL and no register written. (04_scalar R97, 04_scalar R98, 08_memory R174) -/
def Obligations.LoadDataArrives : Prop :=
  ∀ (s : State) (r : LoadReq), s.Quiet → s.hart.wait = .load r →
    (∀ n off, r.loc = .reg n off → s.hart.sbuf = [] →
      Sets s (exec .scalarLoadData s) s.nextPc r.d (extendLoad r.n r.signed (s.readReg n.toNat off r.n)) id)
    ∧ (r.loc.isReg = false → (∀ b ∈ s.hart.sbuf, b.loc.isReg = false) →
        (s.forwarded.marked r.loc = false → s.forwarded.hasError r.loc = false →
          Sets s (exec .scalarLoadData s) s.nextPc r.d (extendLoad r.n r.signed (s.forwarded.readLoc r.loc r.n)) id)
        ∧ (s.Calm → s.forwarded.marked r.loc = true → Traps s (exec .scalarLoadData s) 0x19 r.ea)
        ∧ (s.Calm → s.forwarded.marked r.loc = false → s.forwarded.hasError r.loc = true →
            ∃ t, exec .scalarLoadData s = .next t ∧ t.hart = s.hart.trapped 0x1A r.ea ∧ t.marked r.loc = true))

/-- Where checks 1 to 5 of R97 pass, SD, SW, SH and SB with a free entry of the 16 set D in the leaf of the page, append
the place, the size, s[d] and the step to the store buffer and complete; every byte but the leaf’s and every
register stays, and no mark or error changes unless the leaf itself lies in a line with an error that no mark
records, whose line is then marked in place of D. With 16 entries taken the store waits. (04_scalar R96, 04_scalar
R97, 08_memory R171) -/
def Obligations.StoresEnterTheBuffer : Prop :=
  ∀ (s : State) (d a : BitVec 5) (imm : BitVec 16) (p : Part), s.Quiet →
    let ea := BitVec.ofInt 64 ((s.rd a).toInt + imm.toInt)
    let puts := fun (i : Instr) (n : Nat) => s.checkScalar .put n ea = .ok p →
      (s.hart.sbuf.length < 16 → ∃ t, exec i s = .next t ∧ SameButMem s t ∧ (∀ x, t.byte x = s.dirtied p x)
        ∧ (s.dirtyFails p = false → t.marks = s.marks ∧ t.latent = s.latent)
        ∧ (∀ q, s.dirtyFails p = true → p.tr = some q → t.marked (.mem q.leaf) = true)
        ∧ t.hart = { s.hart.retire s.nextPc with
            sbuf := s.hart.sbuf ++ [{ loc := p.loc, cls := p.cls, n := n, data := s.rd d, step := s.hart.cfg.cstep }] })
      ∧ (16 ≤ s.hart.sbuf.length → exec i s = .next s)
    puts (.sd d a imm) 8 ∧ puts (.sw d a imm) 4 ∧ puts (.sh d a imm) 2 ∧ puts (.sb d a imm) 1

/-- With no snapshot under way and no unrecorded error in the granules touched, the oldest buffered store is performed:
in memory its n bytes, little-endian, from its address on, and every other byte reads as before; and no mark or
error changes. In lane memory the same of the core’s bytes, and of an aligned store of 8 bytes the word’s mark and
any unrecorded error in it go, while a shorter store leaves every mark and error. Nothing else of any core changes,
the entry leaves the buffer, and no register changes. A store to a register of a tenancy’s block leaves the buffer
and does the write of that register, whatever snapshot is under way; one of 8 bytes to TRAPVEC, INTMASK or PDEST
leaves its bytes there under the register’s mask (INTMASK keeps all 64 bits, the model’s choice, log 51) and changes
no other register. With an empty buffer nothing happens. (04_scalar R97, 04_scalar R98, 08_memory R172, 08_memory
R174, 15_device R338, 00_scope R2) -/
def Obligations.BufferedStorePerforms : Prop :=
  (∀ s : State, s.hart.sbuf = [] → exec .storeBufferWrite s = .next s)
  ∧ ∀ (s : State) (b : SBuf) (r : List SBuf), s.hart.sbuf = b :: r → b.n ≤ 8 →
    (∀ n off, b.loc = .reg n off →
      exec .storeBufferWrite s = .next ((s.modHart fun k => { k with sbuf := r }).writeReg n.toNat off b.n b.data)
      ∧ (b.n = 8 → off ∈ [0x88, 0x98, 0x210] → ∃ t, exec .storeBufferWrite s = .next t ∧ SameButMem { s with tens := [] } { t with tens := [] }
          ∧ t.hart = { s.hart with sbuf := r } ∧ (∀ x, t.byte x = s.byte x)
          ∧ t.readReg n.toNat off 8 = (if off = 0x88 then b.data &&& ~~~3 else if off = 0x98 then b.data else b.data &&& ~~~0xFFFF).toNat
          ∧ ∀ m o k, (m, o / 8) ≠ (n.toNat, off / 8) → t.readReg m o k = s.readReg m o k))
    ∧ (∀ pa, s.NoSnapshot → b.loc = .mem pa → (∀ l ∈ s.latent, l ≠ lineOf pa ∧ l ≠ lineOf pa + 1) →
      ∃ t, exec .storeBufferWrite s = .next t ∧ SameButMem s t ∧ t.hart = { s.hart with sbuf := r }
        ∧ t.marks = s.marks ∧ t.latent = s.latent
        ∧ ∀ a, t.byte a = if pa ≤ a ∧ a < pa + b.n then byteOf b.data (a - pa) else s.byte a)
    ∧ (∀ c pa, b.loc = .lm c pa →
      let whole := b.n = 8 ∧ pa % 8 = 0
      (whole ∨ ∀ w ∈ (s.coreAt c).lmLatent, w ≠ lmIndex pa ∧ w ≠ lmIndex pa + 1) →
      ∃ t, exec .storeBufferWrite s = .next t ∧ SameButMem s t ∧ t.hart = { s.hart with sbuf := r }
        ∧ (∀ a, t.byte a = s.byte a) ∧ t.marks = s.marks ∧ t.latent = s.latent
        ∧ (∀ i, { t.coreAt i with harts := [], lm := [], lmMarks := [], lmLatent := [] }
            = { s.coreAt i with harts := [], lm := [], lmMarks := [], lmLatent := [] })
        ∧ (∀ i w, (w ∈ (t.coreAt i).lmMarks ↔ w ∈ (s.coreAt i).lmMarks ∧ ¬ (i = c ∧ whole ∧ w = lmIndex pa))
            ∧ (w ∈ (t.coreAt i).lmLatent ↔ w ∈ (s.coreAt i).lmLatent ∧ ¬ (i = c ∧ whole ∧ w = lmIndex pa)))
        ∧ ∀ i a, (t.coreAt i).lmByte a = if i = c ∧ pa ≤ a ∧ a < pa + b.n then byteOf b.data (a - pa) else (s.coreAt i).lmByte a)

/-- A load, store or AMO whose address is not a multiple of its size takes cause 0x08 with the address in STVAL, and one
that fails another of checks 2 to 5 takes that check’s cause; no register and no byte of memory changes. (04_scalar
R97, 09_order R213, 08_memory R170, 08_memory R172) -/
def Obligations.ScalarAccessFaults : Prop :=
  ∀ (s : State) (d a b : BitVec 5) (imm : BitVec 16) (l acq rel : Bool) (sc : Scope), s.Calm →
    let ea := s.rd a + imm.signExtend 64
    let fails := fun (i : Instr) (k : AccessKind) (n : Nat) (va : Word) =>
      (va.toNat % n ≠ 0 → Traps s (exec i s) 0x08 va)
      ∧ ∀ f, s.checkScalar k n va = .error f → Traps s (exec i s) f.1 f.2
    let n := if l then 8 else 4
    fails (.ld d a imm) .load 8 ea ∧ fails (.lw d a imm) .load 4 ea ∧ fails (.lwu d a imm) .load 4 ea
    ∧ fails (.lh d a imm) .load 2 ea ∧ fails (.lhu d a imm) .load 2 ea
    ∧ fails (.sd d a imm) .put 8 ea ∧ fails (.sw d a imm) .put 4 ea ∧ fails (.sh d a imm) .put 2 ea
    ∧ (∀ f, s.checkScalar .load 1 ea = .error f → Traps s (exec (.lb d a imm) s) f.1 f.2 ∧ Traps s (exec (.lbu d a imm) s) f.1 f.2)
    ∧ (∀ f, s.checkScalar .put 1 ea = .error f → Traps s (exec (.sb d a imm) s) f.1 f.2)
    ∧ fails (.amoAdd d a b l acq rel sc) .amo n (s.rd a) ∧ fails (.amoSwap d a b l acq rel sc) .amo n (s.rd a)
    ∧ fails (.amoCas d a b l acq rel sc) .amo n (s.rd a) ∧ fails (.amoAnd d a b l acq rel sc) .amo n (s.rd a)
    ∧ fails (.amoOr d a b l acq rel sc) .amo n (s.rd a) ∧ fails (.amoMax d a b l acq rel sc) .amo n (s.rd a)
    ∧ fails (.amoMin d a b l acq rel sc) .amo n (s.rd a)

/-- Where its checks pass, its waits are over and the granule has neither mark nor error, an AMO completes: it writes
s[d] with the old value, sign-extended from 4 bytes in the word form, and stores the sum, s[b], the and, the or, the
signed maximum or minimum; CAS stores s[b] only where the old value equals s[d]. The store sets D and does what a
buffered store of that value does to memory and lane memory; CAS that stores nothing changes no byte. An AMO on a
register of the block does the same with the register: s[d] takes what the register reads as, the register takes the
new value by its own write rule, as TRAPVEC does with bits [1:0] zero, and the PC moves on. The PC moves on in every
case and no other register changes. Poisoned data take cause 0x19, data with an error cause 0x1A and a mark, both
before it waits and as the hart’s buffered stores will leave them. While it waits for the store buffer the hart is
held at it, and no asynchronous trap is taken before it completes. The view of checks 6 and 7 and the state of
waiting are readings (log 54). (09_order R212, 09_order R213, 09_order R214, 04_scalar R98, 15_device R338,
02_stream R30) -/
def Obligations.ScalarAtomics : Prop :=
  ∀ (s : State) (d a b : BitVec 5) (l acq rel : Bool) (sc : Scope) (p : Part), s.Quiet →
    let n := if l then 8 else 4
    let cut := fun (v : Word) => if l then v else (v.setWidth 32).signExtend 64
    let old := cut (BitVec.ofNat 64 (match p.loc with
      | .reg t off => s.readReg t.toNat off n
      | loc => s.readLoc loc n))
    let y := cut (s.rd b)
    let view := s.forwarded
    let does := fun (i : Instr) (new : Option Word) =>
      s.checkScalar .amo n (s.rd a) = .ok p →
      (s.Calm → view.marked p.loc = true → Traps s (exec i s) 0x19 (s.rd a))
      ∧ (s.Calm → view.marked p.loc = false → view.hasError p.loc = true →
          ∃ t, exec i s = .next t ∧ t.hart = s.hart.trapped 0x1A (s.rd a) ∧ t.marked p.loc = true)
      ∧ (view.marked p.loc = false → view.hasError p.loc = false →
        (s.hart.amoWaits rel p.loc n = true → ∃ t, exec i s = .next t ∧ SameElse s t ∧ t.hart = { s.hart with wait := .begun })
        ∧ (s.hart.amoWaits rel p.loc n = false →
          ∃ t, exec i s = .next t
            ∧ (∀ r, t.rd r = if r = 0 then 0 else if r = d then old else s.rd r)
            ∧ t.hart.pc = s.nextPc
            ∧ ((p.loc.isReg = true ∧ new.isSome = true) ∨ t.hart = { s.hart.retire s.nextPc with sregs := t.hart.sregs })
            ∧ ((p.loc.isReg = true ∧ new.isSome = true) ∨ ∀ c h, (c, h) ≠ (s.cc, s.ch) → t.hartAt c h = s.hartAt c h)
            ∧ (match new with
              | none => ∀ x, t.byte x = s.byte x
              | some v =>
                let u := ((s.touch s.cc s.hart (s.rd a)).setDirty [p]).perform
                  { loc := p.loc, cls := p.cls, n := n, data := v, step := s.hart.cfg.cstep }
                (∀ x, t.byte x = u.byte x) ∧ (∀ c x, (t.coreAt c).lmByte x = (u.coreAt c).lmByte x)
                ∧ ∀ m off, p.loc = .reg m off →
                    t.hart = { u.hart.retire s.nextPc with sregs := t.hart.sregs }
                    ∧ (∀ c h, (c, h) ≠ (s.cc, s.ch) → t.hartAt c h = u.hartAt c h)
                    ∧ (∀ k o, t.readReg k o 8 = u.readReg k o 8)
                    ∧ (off = 0x88 → n = 8 → t.readReg m.toNat 0x88 8 = (v &&& ~~~3).toNat))))
    does (.amoAdd d a b l acq rel sc) (some (old + y))
    ∧ does (.amoSwap d a b l acq rel sc) (some y)
    ∧ does (.amoCas d a b l acq rel sc) (if old = cut (s.rd d) then some y else none)
    ∧ does (.amoAnd d a b l acq rel sc) (some (old &&& y))
    ∧ does (.amoOr d a b l acq rel sc) (some (old ||| y))
    ∧ does (.amoMax d a b l acq rel sc) (some (if old.toInt < y.toInt then y else old))
    ∧ does (.amoMin d a b l acq rel sc) (some (if old.toInt < y.toInt then old else y))

/-- FENCE.SV completes where no store is buffered, FENCE.VS where no word of the queues accesses memory and, at pod
scope, no acknowledgement of a VST.C or VSTR is outstanding, FENCE.ALL where both hold. Words that stand from before
a trap are passed over (log 44, the model’s reading, where R210 names every word placed before the fence), and words
that access no memory are not waited for (log 29). Each changes nothing but the PC and the end of the instruction.
Where something is outstanding (and VS is not OFF for vector work) the hart waits at the fence, and FENCE_RELEASE
completes it once nothing is outstanding and does nothing before. With VS OFF a wait for vector work is cause 0x07.
FENCE.VV always completes, with VS OFF and words queued too, which is the model’s reading of R211 and R330 (log 45),
and records its place in placement order. (09_order R210, 09_order R211, 14_system R330) -/
def Obligations.FencesCompleteOrWait : Prop :=
  ∀ (s : State) (sc : Scope), s.Quiet →
    let pod := sc == .P
    let one := fun (i : Instr) (sv vs : Bool) =>
      (s.fenceBusy sv vs pod = false → Ends s (exec i s) s.nextPc id)
      ∧ (s.fenceBusy sv vs pod = true → (vs = false ∨ s.vectorBusy pod = false ∨ s.hart.vec.vs ≠ 0) →
          ∃ t, exec i s = .next t ∧ SameElse s t ∧ t.hart = { s.hart with wait := .fence sv vs pod })
      ∧ (vs = true → s.vectorBusy pod = true → s.hart.vec.vs = 0 → s.Calm → Traps s (exec i s) 0x07 0)
    (∀ sv vs p, s.fenceBusy sv vs p = true ↔ (sv = true ∧ s.hart.sbuf ≠ []) ∨ (vs = true ∧ s.vectorBusy p = true))
    ∧ (∀ p, s.vectorBusy p = true ↔ (∃ x ∈ s.hart.q.vq ++ s.hart.q.cq, x.pre = false ∧ (x.meaning s).memory = true)
        ∨ (p = true ∧ ((∃ id left refused, s.hart.q.stall = .vstC id left refused) ∨ ∃ id left f, s.hart.q.stall = .vstr id left f)))
    ∧ one (.fenceSv sc) true false ∧ one (.fenceVs sc) false true ∧ one (.fenceAll sc) true true
    ∧ Ends s (exec (.fenceVv sc) s) s.nextPc (fun k =>
        k.modQ fun q => { q with vv := (q.vv ++ [q.nextSeq]).filter fun f => (q.vq ++ q.cq).any fun x => decide (x.seq < f) })
    ∧ (∀ sv vs p, s.hart.wait = .fence sv vs p →
        (s.fenceBusy sv vs p = false → Ends s (exec .fenceRelease s) s.nextPc id)
        ∧ (s.fenceBusy sv vs p = true → exec .fenceRelease s = .next s))

/-- Where no word stands from before a trap at system level, the base address (PC with bits [2:0] zero plus 8 times the
offset, or s[a] plus the immediate) is a multiple of 8, VS is not OFF, the scan succeeds, and no word names a
pending register, VBLK and VBLKR capture every word with its address, the values of the registers its S and F fields
name, the configuration and the hart’s level (log 109, the model’s reading); the words from BPC on wait to be
placed, and where there are none the instruction completes and leaves BPC, at either level; where a word names a
pending register the instruction waits. At system level with a word in a queue from before the trap both take cause
0x01, before anything else. A misaligned base is cause 0x08, VS OFF cause 0x07, a failed scan the cause and address
with which its fetch or check failed. The scan reads words from the base up to the first with VOP 0, at most 256:
none among 256 is cause 0x24 with the base, a word that cannot be fetched its fetch’s cause with the word’s address,
and a word that names as a source what an earlier one names as its destination cause 0x02 with the later word’s
address; of these the first met stops it. While a block is being placed, the next word enters the vector queue where
fewer than 64 entries stand there, or, a comb word, the comb queue where fewer than 32 do, with the next place in
placement order; BPC rises by one, and with the last word the VBLK completes and BPC is 0. With the queue full
nothing changes. (02_stream R37, 02_stream R38, 02_stream R39, 02_stream R40, 02_stream R43, 02_stream R44) -/
def Obligations.BlocksAreCapturedAndPlaced : Prop :=
  (∀ (s : State) (a : BitVec 5) (off : BitVec 21) (imm : BitVec 16),
      let one := fun (i : Instr) (base : Word) =>
        (s.Calm → s.hart.trap.system = true → (s.hart.q.vq ++ s.hart.q.cq).any (fun e => e.pre) = true →
          Traps s (exec i s) 0x01 (((encode32 i).getD 0).setWidth 64))
        ∧ ((s.hart.trap.system = false ∨ (s.hart.q.vq ++ s.hart.q.cq).all (fun e => !e.pre) = true) →
        (s.Calm → base.toNat % 8 ≠ 0 → Traps s (exec i s) 0x08 base)
        ∧ (s.Calm → base.toNat % 8 = 0 → s.hart.vec.vs = 0 → Traps s (exec i s) 0x07 0)
        ∧ (s.Calm → base.toNat % 8 = 0 → s.hart.vec.vs ≠ 0 → ∀ f t, s.scan base 256 base [] = .error (f, t) →
            t.hart = s.hart ∧ (∀ x, t.byte x = s.byte x) ∧ Traps t (exec i s) f.1 f.2)
        ∧ (base.toNat % 8 = 0 → s.hart.vec.vs ≠ 0 → ∀ ws t, s.scan base 256 base [] = .ok (ws, t) →
            (∃ w ∈ ws, ∃ r ∈ wordSources w, s.hart.pending r = true) → exec i s = .next t)
        ∧ (base.toNat % 8 = 0 → s.hart.vec.vs ≠ 0 → ∀ ws t, s.scan base 256 base [] = .ok (ws, t) →
            (∀ w ∈ ws, ∀ r ∈ wordSources w, s.hart.pending r = false) →
            let es := (ws.zipIdx.map fun p => (Entry.mk p.1 (base + 8 * BitVec.ofNat 64 p.2) (s.rd (sOf p.1))
              (s.rd (fOf p.1)) s.hart.cfg 0 false none (!s.hart.trap.system))).drop s.hart.vec.bpc.toNat
            (es ≠ [] → exec i s = .next (t.modHart fun k => { k with wait := .placing es }))
            ∧ (es = [] → t.hart = s.hart ∧ ∃ u, exec i s = .next u ∧ SameElse t u
                ∧ u.hart = { s.hart.retire s.nextPc with vec := s.hart.vec })))
      one (.vblk off) ((s.hart.pc &&& ~~~7) + BitVec.ofInt 64 (8 * off.toInt))
      ∧ one (.vblkr a imm) (s.rd a + BitVec.ofInt 64 imm.toInt))
  ∧ (∀ (u : Nat → State) (w : Nat → Word) (base : Word) (n : Nat), n ≤ 256 →
      let va := fun (i : Nat) => base + BitVec.ofNat 64 (8 * i)
      let clash := fun (j : Nat) => ∃ i < j, ∃ r ∈ wordSources (w j), wordDest (w i) = some r
      (∀ i < n, (u i).fetch64 (va i) = .ok (w i, u (i + 1)) ∧ w i >>> 56 ≠ 0 ∧ ¬ clash i) →
      let o := (u 0).scan base 256 base []
      (n = 256 → o = .error ((0x24, base), u 256))
      ∧ (n < 256 → ∀ f t, (u n).fetch64 (va n) = .error (f, t) → o = .error (f, t) ∧ f.2 = va n)
      ∧ (n < 256 → (u n).fetch64 (va n) = .ok (w n, u (n + 1)) →
          (w n >>> 56 = 0 → o = .ok ((List.range (n + 1)).map w, u (n + 1)))
          ∧ (w n >>> 56 ≠ 0 → clash n → o = .error ((0x02, va n), u (n + 1)))))
  ∧ (∀ (s t v : State) (va : Word) (lo hi : BitVec 32), s.fetch32 va = .ok (lo, t) → t.fetch32 (va + 4) = .ok (hi, v) →
      s.fetch64 va = .ok (hi ++ lo, v))
  ∧ ∀ (s : State) (x : Entry) (r : List Entry), s.Quiet → s.hart.wait = .placing (x :: r) →
    let q := s.hart.q
    let y : Entry := { x with seq := q.nextSeq }
    let comb := decide (0x70 ≤ (x.word >>> 56).toNat ∧ (x.word >>> 56).toNat ≤ 0x77)
    let q' : Queues := if comb then { q with cq := q.cq ++ [y], nextSeq := q.nextSeq + 1 }
      else { q with vq := q.vq ++ [y], nextSeq := q.nextSeq + 1 }
    let room := if comb then q.cq.length < 32 else q.vq.length < 64
    (room → r ≠ [] → ∃ t, exec .blockWordPlace s = .next t ∧ SameElse s t
        ∧ t.hart = { s.hart with q := q', wait := .placing r, vec := { s.hart.vec with bpc := s.hart.vec.bpc + 1 } })
    ∧ (room → r = [] → ∃ t, exec .blockWordPlace s = .next t ∧ SameElse s t
        ∧ t.hart = { s.hart.retire s.nextPc with q := q', vec := { s.hart.vec with bpc := 0 } })
    ∧ (¬ room → exec .blockWordPlace s = .next s)

/-- With a VTYPE value that is not reserved, SETLEN and SETLENI set VTYPE, and VL and s[d] to the lesser of AVL, VLMAX
and the granted share of VLMAX rounded down to whole groups, rounded down to whole scale blocks where VTYPE names a
block; with a reserved value VL and s[d] are 0 and VTYPE has only ILL set. Nothing else changes. (05_harts R110,
05_harts R111, 03_formats R69, 02_stream R30) -/
def Obligations.LengthGranted : Prop :=
  ∀ (s : State) (d a b : BitVec 5) (imm : BitVec 16), s.Quiet →
    let k := s.hart
    let one := fun (i : Instr) (vt : Word) =>
      let avl := (s.rd a).toNat
      let w := [4, 6, 8, 16, 32].getD (vt.toNat % 8) 32
      let per := if w = 6 then 10 else 64 / w
      let lanes := 32 / k.place.h.toNat
      let max := lanes * 16384 / k.cfg.nreg.toNat * per
      let epg := lanes * per
      let cap := max * s.core.vgrant.toNat / 8 / epg * epg
      let blk := vt.toNat / 8 % 4
      let unit := if blk = 0 then 1 else 8 * 2 ^ blk
      let vl := BitVec.ofNat 64 (min avl (min max cap) / unit * unit)
      (vt.toNat < 32 → vt.toNat % 8 ≤ 4 →
        Sets s (exec i s) s.nextPc d vl (fun k => k.modCfg fun c => { c with vl := vl, vtype := vt }))
      ∧ ((32 ≤ vt.toNat ∨ 4 < vt.toNat % 8) →
        Sets s (exec i s) s.nextPc d 0 (fun k => k.modCfg fun c => { c with vl := 0, vtype := (1 : Word) <<< 63 }))
    one (.setlen d a b) (s.rd b) ∧ one (.setleni d a imm) (imm.setWidth 64)

namespace Sys2Proof.Machine

/-- The bits that a CSR whose rule is a plain mask keeps of what is written to it; none for a CSR with a rule of its own. -/
def csrKept (n : Nat) : Option Word :=
  if (0x018 ≤ n ∧ n ≤ 0x01D) ∨ (0x020 ≤ n ∧ n ≤ 0x027) ∨ n = 0x01F then some 0xFFFFFFFF
  else match n with
    | 0x015 => some 0x0000FFFFFFFFFFFF
    | 0x01E | 0x100 | 0x102 | 0x105 | 0x033 => some (if n = 0x01E then 0xFFFFFFFFFFFFFFF8 else 0xFFFFFFFFFFFFFFFF)
    | 0x029 => some 0x80001FFFFFFFFFFF
    | 0x030 => some 0xFFFF
    | 0x054 => some 0xFFFFFFFFFFFF
    | 0x101 => some 0x3FF
    | 0x103 => some 0xFFFFFFFFFFFFFFFC
    | 0x104 => some 0x1D
    | 0x106 => some 0xFFFFFFFFFFFF0000
    | 0x108 => some 1
    | _ => none

/-- What INBOX reads as after a write of `x` (11_route R243), `lo` and `hi` the first granted row and the one past the last. -/
def inboxTaken (lo hi x : Nat) : Nat :=
  let head := x / 2 ^ 56
  let count := x / 2 ^ 47 % 2 ^ 9
  let w := x / 2 ^ 33 % 2 ^ 11
  let cap := x / 2 ^ 24 % 2 ^ 9
  let base := x % 2 ^ 13
  let good : Bool := decide (1 ≤ w ∧ w ≤ 1024 ∧ cap ≤ 256 ∧ (head < cap ∨ head = 0) ∧ count ≤ cap
    ∧ (cap = 0 ∨ (lo ≤ base ∧ base + cap * ((16 + 4 * w + 255) / 256) ≤ hi)))
  head * 2 ^ 56 + count * 2 ^ 47 + w * 2 ^ 33 + (if good then cap * 2 ^ 24 else 0) + base

/-- CSHAPE takes a value: KP 1 to 64, QS up to 5 and 0 but in mode 3, MODE up to 4, M and N up to 2, and nothing in a reserved bit
(10_comb R223, R224). -/
def cshapeTaken (x : Nat) : Bool :=
  decide (x < 2 ^ 23 ∧ x / 2 ^ 11 % 32 = 0 ∧ x / 2 ^ 7 % 2 = 0 ∧ 1 ≤ x / 2 ^ 16 ∧ x / 2 ^ 16 ≤ 64 ∧ x / 2 ^ 8 % 8 ≤ 5
    ∧ (x / 2 ^ 8 % 8 = 0 ∨ x / 16 % 8 = 3) ∧ x / 16 % 8 ≤ 4 ∧ x / 4 % 4 ≤ 2 ∧ x % 4 ≤ 2)

/-- What a CSR reads as after a write of `v`, where it read `old` before, by its own rule: a mask; VL, VTYPE and NREG (05_harts R113);
VSTAT (14_system R328); SEED (03_formats R78); COPR and CSTR (13_collective R293); LMBASE and LMSIZE (08_memory R370); INBOX (11_route
R243); FDESC (R246); CSHAPE (10_comb R224); ECAP (12_engines R271). -/
def State.csrTaken (s : State) (n : Nat) (old v : Word) : Word :=
  let k := s.hart
  let x := v.toNat
  match csrKept n with
  | some m => (v &&& m) ||| (old &&& ~~~m)
  | none =>
    if 0x050 ≤ n ∧ n ≤ 0x053 then (if old.toNat / 2 ^ 60 % 4 = 0 then (v &&& 0x01FFFFFFFFFFFFFF) ||| (old &&& 0xFE00000000000000) else old)
    else match n with
      | 0x010 => if k.cfg.vtype.getLsbD 63 then 0 else BitVec.ofNat 64 (min x (k.vlmax k.cfg.vtype))
      | 0x011 => if x < 32 ∧ x % 8 ≤ 4 then v else (1 : Word) <<< 63
      | 0x012 => if x = 8 ∨ x = 16 ∨ x = 32 then v else old
      | 0x014 => if k.trap.system then v &&& 0xFF01B else (v &&& 8) ||| (old &&& 0xFF013)
      | 0x028 => if x = 0 then 0x9E3779B97F4A7C15 else v
      | 0x031 => (v &&& 0x1F00) ||| (if x % 4 = 3 then old &&& 3 else v &&& 3)
      | 0x032 => if x % 2 ^ 25 ≠ 0 ∧ x % 256 = 0 ∧ x % 2 ^ 25 ≤ 2 ^ 24 then BitVec.ofNat 64 (x % 2 ^ 25) else old
      | 0x043 => if k.lmsize.toNat ≤ 8192 ∧ x % 2 ^ 13 + k.lmsize.toNat ≤ 8192 then BitVec.ofNat 64 (x % 2 ^ 13) else old
      | 0x044 => if x % 2 ^ 14 ≤ 8192 ∧ k.lmbase.toNat + x % 2 ^ 14 ≤ 8192 then BitVec.ofNat 64 (x % 2 ^ 14) else old
      | 0x048 => BitVec.ofNat 64 (inboxTaken k.lmbase.toNat (k.lmbase.toNat + k.lmsize.toNat) x)
      | 0x058 => if cshapeTaken x then v else old
      | 0x05A => if 1 ≤ x % 128 ∧ x % 128 ≤ 64 then (old &&& 0xFF00000000000000) ||| BitVec.ofNat 64 (x % 128) else old
      | _ => old

end Sys2Proof.Machine

/-- CSRR of every CSR that the level can read, and CSRW, CSRS and CSRC of every one that it can write, with no wait of
R47, write s[d] with the old value and complete. After CSRW the register reads as its own rule gives it for s[a]
(csrTaken; that a CSHAPE of KP = 0 is not taken, and that the fields of VSTAT, SSTATUS, SCAUSE and PREQ are stored
with no further effect, is the model’s reading, log 57), after CSRS with s[a] not 0 for old or s[a], after CSRC for
old and not s[a]; with s[a] = 0 CSRS and CSRC write nothing, and CSRR never does. No other CSR changes, but VL,
which a reserved VTYPE clears, and BPC of VSTAT, which every instruction that completes at program level clears;
memory and the other harts stay. With a word in a queue that may run the access of a CSR of R47 waits and changes
nothing, but that of VSTAT, whose BPC is read, and at system level written, at once: the value that is read and the
value that is written when the wait ends are taken from the BPC read first (log 56, the model’s reading). With VS
OFF that wait is cause 0x07. (04_scalar R102, 04_scalar R103, 02_stream R40, 02_stream R47, 05_harts R113,
03_formats R78, 14_system R328, 13_collective R293, 11_route R243, 11_route R246, 08_memory R370, 12_engines R271) -/
def Obligations.CsrReadAndWrite : Prop :=
  (∀ (s : State) (d a : BitVec 5) (n : BitVec 12), s.Quiet → (∀ b, s.hart.wait ≠ .csr b) →
    (csrWaits n.toNat = false ∨ s.hart.liveWords = []) →
    let old := s.csr s.cc s.ch n.toNat
    let x := s.rd a
    let sys := s.hart.trap.system
    let done := fun (m : Nat) (v : Word) => if m = 0x014 ∧ sys = false then v &&& 0x1B else v
    let put := fun (i : Instr) (w : Option Word) =>
      ∃ t, exec i s = .next t ∧ (∀ r, t.rd r = if r = 0 then 0 else if r = d then old else s.rd r)
        ∧ t.hart.pc = s.nextPc ∧ t.csr s.cc s.ch n.toNat = done n.toNat (w.elim old (s.csrTaken n.toNat old))
        ∧ (∀ m, m ≠ n.toNat → t.csr s.cc s.ch m =
            if m = 0x010 ∧ n.toNat = 0x011 ∧ (w.any fun v => decide (32 ≤ v.toNat ∨ 4 < v.toNat % 8)) = true then 0
            else done m (s.csr s.cc s.ch m))
        ∧ (∀ b, t.byte b = s.byte b) ∧ ∀ c h, (c, h) ≠ (s.cc, s.ch) → t.hartAt c h = s.hartAt c h
    (csrReads sys n.toNat = true → Sets s (exec (.csrr d a n) s) s.nextPc d old id)
    ∧ (csrReads sys n.toNat = true → csrWrites sys n.toNat = true →
        put (.csrw d a n) (some x)
        ∧ put (.csrs d a n) (if x = 0 then none else some (old ||| x))
        ∧ put (.csrc d a n) (if x = 0 then none else some (old &&& ~~~x))))
  ∧ (∀ (s : State) (d a : BitVec 5) (n : BitVec 12) (i : Instr), i ∈ [.csrr d a n, .csrw d a n, .csrs d a n, .csrc d a n] →
      csrReads s.hart.trap.system n.toNat = true → (csrWrites s.hart.trap.system n.toNat = true ∨ i = .csrr d a n) → csrWaits n.toNat = true →
      s.hart.liveWords ≠ [] →
      (s.Calm → s.hart.vec.vs = 0 → Traps s (exec i s) 0x07 0)
      ∧ (s.hart.vec.vs ≠ 0 → n ≠ 0x014 → exec i s = .next s)
      ∧ (s.hart.vec.vs ≠ 0 → n = 0x014 → (∀ b, s.hart.wait ≠ .csr b) →
          let k := s.hart
          let old := s.csr s.cc s.ch 0x014
          let bpc := fun (v : Word) => if k.trap.system then v.extractLsb' 12 8 else k.vec.bpc
          let held := fun (b : BitVec 8) => ∃ t, exec i s = .next t ∧ SameElse s t
            ∧ t.hart = { k with wait := .csr k.vec.bpc, vec := { k.vec with bpc := b } }
          (i = .csrr d a n ∨ (s.rd a = 0 ∧ (i = .csrs d a n ∨ i = .csrc d a n)) → held k.vec.bpc) ∧ (i = .csrw d a n → held (bpc (s.rd a)))
          ∧ (i = .csrs d a n → s.rd a ≠ 0 → held (bpc (old ||| s.rd a)))
          ∧ (i = .csrc d a n → s.rd a ≠ 0 → held (bpc (old &&& ~~~s.rd a)))))
  ∧ ∀ (s : State) (d a : BitVec 5) (b : BitVec 8), s.Quiet → s.hart.wait = .csr b → s.hart.liveWords = [] →
      let old := s.csr s.cc s.ch 0x014 &&& 0x1B ||| (b.setWidth 64 <<< 12)
      Sets s (exec (.csrr d a 0x014) s) s.nextPc d old id
      ∧ ∃ t, exec (.csrw d a 0x014) s = .next t ∧ (∀ r, t.rd r = if r = 0 then 0 else if r = d then old else s.rd r)
          ∧ t.hart.pc = s.nextPc ∧ t.csr s.cc s.ch 0x014 =
            if s.hart.trap.system then s.rd a &&& 0xFF01B else (s.rd a &&& 8) ||| (old &&& 0x13)

/-- CSRR of a CSR that the level may not read, and CSRW, CSRS or CSRC of one that it may not read or not write, take
cause 0x01 with the word in STVAL. What each level may read and write is the table of R103, for every number: at
program level every CSR from VL to ECAP is read, and VSTAT, BS0-BS7, SEED, PFAULT, INBOX, FDESC0-FDESC3, FSTAT and
ECAP are written; at system level 0x100-0x108 are read too, and VL, VTYPE, NREG, VDIRTY, ES0-ES5, VTPC, VTELEM,
CGRP, COPR, CSTR, CSTEP, LMBASE, LMSIZE, CSHAPE, 0x100-0x106 and PREQ written. VGRANT, CWP0-CWP3, HARTID, COREID,
PART and TENANT are never written, and no other number is a CSR. (04_scalar R103, 02_stream R28) -/
def Obligations.CsrAccessByLevel : Prop :=
  (∀ (s : State) (d a : BitVec 5) (n : BitVec 12), s.Calm →
    let sys := s.hart.trap.system
    let word := fun (i : Instr) => ((encode32 i).getD 0).setWidth 64
    (csrReads sys n.toNat = false → Traps s (exec (.csrr d a n) s) 0x01 (word (.csrr d a n)))
    ∧ (csrReads sys n.toNat = false ∨ csrWrites sys n.toNat = false →
        Traps s (exec (.csrw d a n) s) 0x01 (word (.csrw d a n)) ∧ Traps s (exec (.csrs d a n) s) 0x01 (word (.csrs d a n))
        ∧ Traps s (exec (.csrc d a n) s) 0x01 (word (.csrc d a n))))
  ∧ ∀ n : Nat,
    let of := fun (l : List (Nat × Nat)) => ∃ p ∈ l, p.1 ≤ n ∧ n ≤ p.2
    let open_ := of [(0x014, 0x014), (0x020, 0x029), (0x048, 0x048), (0x050, 0x054), (0x05A, 0x05A)]
    let guarded := of [(0x010, 0x012), (0x015, 0x015), (0x018, 0x01F), (0x030, 0x033), (0x043, 0x044), (0x058, 0x058)]
    let fixed := of [(0x013, 0x013), (0x038, 0x03B), (0x040, 0x042)]
    (csrReads false n = true ↔ open_ ∨ guarded ∨ fixed) ∧ (csrWrites false n = true ↔ open_)
    ∧ (csrReads true n = true ↔ open_ ∨ guarded ∨ fixed ∨ of [(0x100, 0x108)])
    ∧ (csrWrites true n = true ↔ open_ ∨ guarded ∨ of [(0x100, 0x106), (0x108, 0x108)])

/-- With the queues and the store buffer empty IFLUSH empties the core’s instruction cache and completes. At system
level, with no access of its tenancy under way on the cores in scope (no load, buffered store, element train or
reduction packet of theirs, the model’s reading, log 55), TLBINV.ALL drops every translation of the hart’s tenancy
from their MMUs and TLBINV.PG those of the page that holds s[a] under the hart’s root; while such an access is under
way both wait; at program level both take cause 0x01. CWB and CINV with length 0 only complete; a length above 2^32
is cause 0x01; with one piece of memory that passes its checks CWB writes its lines back, so that DRAM holds what is
coherent and no byte changes, and CINV drops its lines, so that only bytes that DRAM holds otherwise change: it sets
no D bit (log 54, the model’s reading, where R324 lets CINV count as a store). (14_system R322, 14_system R323,
14_system R324, 04_scalar R87) -/
def Obligations.CachesAndTranslations : Prop :=
  ∀ (s : State) (a b : BitVec 5) (sc : Scope), s.Quiet →
    (s.hart.queued = false → s.hart.sbuf = [] → ∃ t, exec .iflush s = .next t
        ∧ t.core.icache = [] ∧ t.hart = s.hart.retire s.nextPc ∧ (∀ x, t.byte x = s.byte x)
        ∧ ∀ c h, (c, h) ≠ (s.cc, s.ch) → t.hartAt c h = s.hartAt c h)
    ∧ (s.hart.trap.system = true → (∀ p ∈ s.cores, mmuScope sc s.cc p.1 = true → s.accessing p.1 s.hart.place.ten = false) →
        (∃ t, exec (.tlbinvAll sc) s = .next t ∧ SameButTlb s t ∧ t.hart = s.hart.retire s.nextPc
          ∧ ∀ p ∈ t.cores, mmuScope sc s.cc p.1 = true → ∀ e ∈ p.2.tlb, e.ten ≠ s.hart.place.ten)
        ∧ (∃ t, exec (.tlbinvPg sc a) s = .next t ∧ SameButTlb s t ∧ t.hart = s.hart.retire s.nextPc
          ∧ ∀ p ∈ t.cores, mmuScope sc s.cc p.1 = true → ∀ e ∈ p.2.tlb,
              ¬ (e.root = s.hart.ptroot ∧ e.page * 65536 / 2 ^ pageBits e.level = (s.rd a).toNat / 2 ^ pageBits e.level)))
    ∧ (s.hart.trap.system = true → (∃ p ∈ s.cores, mmuScope sc s.cc p.1 = true ∧ s.accessing p.1 s.hart.place.ten = true) →
        exec (.tlbinvAll sc) s = .next s ∧ exec (.tlbinvPg sc a) s = .next s)
    ∧ (s.hart.trap.system = false → s.Calm →
        Traps s (exec (.tlbinvAll sc) s) 0x01 (((encode32 (.tlbinvAll sc)).getD 0).setWidth 64)
        ∧ Traps s (exec (.tlbinvPg sc a) s) 0x01 (((encode32 (.tlbinvPg sc a)).getD 0).setWidth 64))
    ∧ (s.rd b = 0 → Ends s (exec (.cwb a b) s) s.nextPc id ∧ Ends s (exec (.cinv a b) s) s.nextPc id)
    ∧ (2 ^ 32 < (s.rd b).toNat → s.Calm →
        Traps s (exec (.cwb a b) s) 0x01 (((encode32 (.cwb a b)).getD 0).setWidth 64)
        ∧ Traps s (exec (.cinv a b) s) 0x01 (((encode32 (.cinv a b)).getD 0).setWidth 64))
    ∧ (∀ p ps pa, s.rd b ≠ 0 → (s.rd b).toNat ≤ 65536 - (s.rd a).toNat % 65536 → s.hart.sbuf = [] → p.loc = .mem pa →
        s.hart.pieceOutside (s.rd a) (s.rd b).toNat = none →
        (s.checkParts s.cc s.hart .load 8 [(s.rd a, (s.rd b).toNat)] = .ok (p :: ps) →
          ∃ t, exec (.cwb a b) s = .next t ∧ t.hart = s.hart.retire s.nextPc ∧ (∀ x, t.byte x = s.byte x)
            ∧ ∀ q ∈ t.dram, ¬ (lineOf pa ≤ lineOf q.1 ∧ lineOf q.1 ≤ lineOf (pa + (s.rd b).toNat - 1)))
        ∧ (s.checkParts s.cc s.hart .put 8 [(s.rd a, (s.rd b).toNat)] = .ok (p :: ps) → s.NoSnapshot →
          ∃ t, exec (.cinv a b) s = .next t ∧ t.hart = s.hart.retire s.nextPc
            ∧ (∀ x, (∀ q ∈ s.dram, q.1 ≠ x) → t.byte x = s.byte x)
            ∧ ∀ q ∈ t.dram, ¬ (lineOf pa ≤ lineOf q.1 ∧ lineOf q.1 ≤ lineOf (pa + (s.rd b).toNat - 1))))

namespace Sys2Proof.Machine

/-- The four 8-byte words of each entry of a queue image, as numbers (14_system R325): an A and a B entry where the captured
configuration is not that of the word before, then the word's own entry; each word with whether it is for the comb queue. -/
def imageNumbers : Option Cfg → List (Bool × Entry) → List Nat
  | _, [] => []
  | prev, (comb, x) :: r =>
    let c := x.cfg
    (if prev = some c then [] else
      [c.vl.toNat,
       2 + 8 * (c.vtype.toNat % 32) + 2 ^ 8 * (c.vtype.toNat / 2 ^ 63) + 2 ^ 9 * (if c.nreg = 8 then 0 else if c.nreg = 16 then 1 else 2)
         + 2 ^ 11 * c.cgrp.toNat + 2 ^ 27 * c.copr.toNat + 2 ^ 40 * (c.cstr.toNat / 256),
       c.cstep.toNat, c.bs[0].toNat + 2 ^ 32 * c.bs[1].toNat,
       c.bs[2].toNat + 2 ^ 32 * c.bs[3].toNat, 3 + 2 ^ 32 * c.bs[4].toNat, c.bs[5].toNat + 2 ^ 32 * c.bs[6].toNat, c.bs[7].toNat])
    ++ [x.word.toNat, x.addr.toNat / 8 * 8 + (if comb then 1 else 0), x.sval.toNat, x.fval.toNat] ++ imageNumbers (some c) r

/-- The place in an image, in bytes, of what the pieces of its range write at a physical address; `o` is where the first piece begins. -/
def imagePlace : List (Part × Nat) → Nat → Nat → Option Nat
  | [], _, _ => none
  | (p, n) :: r, o, x => (imagePlace r (o + n) x).or (match p.loc with
    | .mem pa => if pa ≤ x ∧ x < pa + n then some (o + (x - pa)) else none
    | _ => none)

end Sys2Proof.Machine

/-- At system level, at an address that is a multiple of 32, with no word under way and no tile on its way and no store
buffered, VQSAVE with its range checked writes the number of the image’s entries into s[d], empties both queues and
clears VP, and completes; with empty queues it writes 0 and no memory. The bytes at its address become those of the
image, 8-byte words little-endian, and every other byte but D bits of the leaves stays (where no snapshot is under
way and no line in reach has an error): each word of both queues in placement order has its entry, with the word,
its address and kind, the captured S and F, and before it the two entries of its captured configuration where that
differs from the one before. An image’s reserved bits are 0 (log 64). VQLOAD of no entry completes and changes
nothing else; with queues empty, entries read and an image that parses it puts its words into the queues in order,
at program level but for those that a nested handler loads from where system level alone can fetch (log 109, the
model’s reading), and completes; a bad image is cause 0x01 with the address of its first bad entry. The image of
queues of at most 64 and 32 words, whose captured configurations and addresses are ones that a hart can hold, has at
most 288 entries, and parses to their words in placement order, each for its queue, as they were but stopped until
the hart returns. At program level both take cause 0x01, VQLOAD also with words queued; a misaligned address is
cause 0x08, and VQLOAD of more than 288 entries cause 0x01 with their number. (14_system R325, 14_system R326,
14_system R327) -/
def Obligations.QueuesSavedAndLoaded : Prop :=
  ∀ (s : State) (d a b : BitVec 5), s.Quiet → s.hart.sbuf = [] →
    let k := s.hart
    let va := s.rd a
    (k.trap.system = true → va.toNat % 32 = 0 → k.q.flight = none → k.q.stall = .none → k.q.comb = none →
      ∀ ps, s.checkPieces .put (if k.image = [] then [] else unitPieces 3 va (8 * k.image.length)) = .ok ps →
        ∃ t, exec (.vqsave d a) s = .next t ∧ t.hart.q.vq = [] ∧ t.hart.q.cq = [] ∧ t.hart.vec.vp = false
          ∧ t.hart.pc = s.nextPc
          ∧ (∀ r, t.rd r = if r = 0 then 0 else if r = d then BitVec.ofNat 64 (k.image.length / 4) else s.rd r)
          ∧ (s.NoSnapshot → (∀ p ∈ ps, s.dirtyFails p.1 = false) →
              (∀ p ∈ ps, ∀ pa, p.1.loc = .mem pa → ∀ i < p.2, s.hasError (.mem (pa + i)) = false) →
              (∀ p ∈ ps, p.1.loc.isReg = false) →
              ∀ x, t.byte x = match imagePlace ps 0 x with
                | some i => byteOf (k.image.getD (i / 8) 0) (i % 8)
                | none => if ps.any (fun p => p.1.tr.map Tr.leaf == some x && p.1.dirties) then s.byte x ||| 0x20 else s.byte x))
    ∧ (∀ xs : List (Bool × Entry), (xs.filter Prod.fst).map Prod.snd = k.q.cq → (xs.filter fun x => !x.1).map Prod.snd = k.q.vq →
        xs.Pairwise (fun x y => x.2.seq < y.2.seq) →
        k.image.map BitVec.toNat = imageNumbers none xs
        ∧ ((∀ p ∈ xs, p.2.addr.toNat % 8 = 0 ∧ p.2.cfg.vtype.toNat % 2 ^ 63 < 32 ∧ p.2.cfg.nreg ∈ [8, 16, 32] ∧ p.2.cfg.cstr.toNat % 256 = 0) →
          k.q.vq.length ≤ 64 → k.q.cq.length ≤ 32 →
          k.image.length / 4 ≤ 288 ∧ parseImage (byFours (k.image.length / 4) k.image) 0 none 0 0
            = .ok (xs.map fun p => (p.1, { p.2 with seq := 0, pre := true, bval := none, prog := false }))))
    ∧ (k.trap.system = true → k.queued = false → (s.rd b).toNat ≤ 288 → va.toNat % 32 = 0 →
        ∀ ws, s.readWords (4 * (s.rd b).toNat) va = .ok ws →
          (∀ xs, parseImage (byFours (s.rd b).toNat ws) 0 none 0 0 = .ok xs →
            let put := fun (comb : Bool) => (xs.zipIdx.filter fun p => p.1.1 == comb).map fun p =>
              { p.1.2 with seq := k.q.nextSeq + p.2, prog := !(k.trap.spp && s.systemOnly p.1.2.addr) }
            ∃ t, exec (.vqload a b) s = .next t ∧ SameButTlb s t ∧ t.hart = { k.retire s.nextPc with
              q := { k.q with vq := put false, cq := put true, nextSeq := k.q.nextSeq + xs.length } })
          ∧ (s.Calm → ∀ i, parseImage (byFours (s.rd b).toNat ws) 0 none 0 0 = .error i →
            Traps s (exec (.vqload a b) s) 0x01 (va + BitVec.ofNat 64 (32 * i))))
    ∧ (s.Calm → k.trap.system = false →
        Traps s (exec (.vqsave d a) s) 0x01 (((encode32 (.vqsave d a)).getD 0).setWidth 64)
        ∧ Traps s (exec (.vqload a b) s) 0x01 (((encode32 (.vqload a b)).getD 0).setWidth 64))
    ∧ (s.Calm → k.trap.system = true → va.toNat % 32 ≠ 0 → Traps s (exec (.vqsave d a) s) 0x08 va)
    ∧ (s.Calm → k.q.vq ≠ [] ∨ k.q.cq ≠ [] →
        Traps s (exec (.vqload a b) s) 0x01 (((encode32 (.vqload a b)).getD 0).setWidth 64))
    ∧ (s.Calm → k.trap.system = true → k.queued = false → 288 < (s.rd b).toNat → Traps s (exec (.vqload a b) s) 0x01 (s.rd b))
    ∧ (s.Calm → k.trap.system = true → k.queued = false → (s.rd b).toNat ≤ 288 → va.toNat % 32 ≠ 0 →
        Traps s (exec (.vqload a b) s) 0x08 va)

/-- With empty queues HEXIT leaves the hart waiting for its end; HEXIT_FREE, with no store buffered, frees the context:
it is placed no longer, its mask bindings and its levels end, and everything else it holds stays (log 80, the
model’s reading); the launch has one hart less to wait for. Before that it does nothing. With no word in the queues
that accesses memory, but for those from before a trap, which HBAR passes over (log 44, the model’s reading), and no
store buffered HBAR leaves the hart waiting at the barrier; HBAR_RELEASE does nothing until every hart of the launch
on the core waits there, and then every one of them goes on at its next word. (05_harts R121, 05_harts R123,
05_harts R106) -/
def Obligations.ExitAndBarrier : Prop :=
  ∀ s : State, s.Quiet →
    (s.hart.queued = false ↔ s.hart.q.vq = [] ∧ s.hart.q.cq = [])
    ∧ (s.memoryQueued = false ↔ ∀ x ∈ s.hart.q.vq ++ s.hart.q.cq, x.pre = true ∨ (x.meaning s).memory = false)
    ∧ (∀ id, s.core.barrierFull id = true ↔
        ∀ p ∈ s.core.harts, p.2.place.placed = true → p.2.place.launch = id → p.2.wait = .hbar)
    ∧ (s.hart.queued = false → ∃ t, exec .hexit s = .next t ∧ SameElse s t ∧ t.hart = { s.hart with wait := .hexit })
    ∧ (s.memoryQueued = false → s.hart.sbuf = [] →
        ∃ t, exec .hbar s = .next t ∧ SameElse s t ∧ t.hart = { s.hart with wait := .hbar })
    ∧ (s.hart.place.placed = true → s.hart.wait = .hexit → s.hart.queued = false → s.hart.sbuf = [] →
        ∃ t, exec .hexitFree s = .next t
          ∧ t.hart = { s.hart with
              place := { s.hart.place with placed := false, levels := [] }
              store := { s.hart.store with binds := s.hart.store.binds.map fun b => (b.1, { b.2 with bound := false }) }
              wait := .none
              halted := false }
          ∧ (∀ b, t.byte b = s.byte b) ∧ (∀ c h, (c, h) ≠ (s.cc, s.ch) → t.hartAt c h = s.hartAt c h)
          ∧ t.launches = s.launches.map fun l => if l.id = s.hart.place.launch then { l with left := l.left - 1 } else l)
    ∧ ((s.hart.wait ≠ .hexit ∨ s.hart.sbuf ≠ [] ∨ s.hart.queued = true) → exec .hexitFree s = .next s)
    ∧ (s.core.barrierFull s.hart.place.launch = false → exec .hbarRelease s = .next s)
    ∧ (s.hart.place.placed = true → s.hart.wait = .hbar → s.core.barrierFull s.hart.place.launch = true →
        (∀ c, s.mgr.traced ≠ some (s.cc, c)) → (∀ p ∈ s.core.harts, p.2.dbgStep = false) →
        (s.core.harts.map Prod.fst).Nodup →
        ∃ t, exec .hbarRelease s = .next t ∧ t.cc = s.cc ∧ t.ch = s.ch ∧ (∀ b, t.byte b = s.byte b)
          ∧ ∀ p ∈ s.core.harts, t.hartAt s.cc p.1 =
              if p.2.place.placed = true ∧ p.2.place.launch = s.hart.place.launch then p.2.retire (p.2.pc + 4) else p.2)

/-- With VS not OFF, empty queues and s[a] 8, 16 or 32, VDECL sets NREG, clears VL, every register chunk, every mask,
their marks (log 17, the model’s reading) and VDIRTY, and makes VS INITIAL; a mask binding whose copy is under way
stays, and the record of one that has ended goes (log 79, the model’s choice); other values are cause 0x01 with the
value in STVAL, VS OFF is cause 0x07. CSET with legal group, operation and stride writes s[d] with the old CSTEP,
sets CGRP, COPR and CSTR and raises CSTEP by one; a bad first or second operand is cause 0x01 with it in STVAL.
(05_harts R117, 13_collective R292, 13_collective R293) -/
def Obligations.DeclareAndStep : Prop :=
  ∀ (s : State) (d a b : BitVec 5), s.Quiet →
    let n := s.rd a
    let x := s.rd a
    let y := s.rd b
    let legal := n = 8 ∨ n = 16 ∨ n = 32
    let goodX := x.toNat < 2 ^ 29 ∧ x.toNat / 2 ^ 16 % 256 ≤ 2
    let goodY := y.toNat ≠ 0 ∧ y.toNat % 256 = 0 ∧ y.toNat ≤ 2 ^ 24
    (s.hart.vec.vs ≠ 0 → legal → s.hart.queued = false →
      Ends s (exec (.vdecl a) s) s.nextPc fun k =>
        { k with cfg := { k.cfg with nreg := n, vl := 0 }
                 vec := { k.vec with dirtyT := 0, dirtyM := 0, dirtyV := 0, vs := 1 }
                 store := { k.store with chunks := [], poison := [], masks := [], binds := k.store.binds.filter fun b => b.2.bound } })
    ∧ (s.Calm → s.hart.vec.vs ≠ 0 → ¬ legal → Traps s (exec (.vdecl a) s) 0x01 n)
    ∧ (s.Calm → s.hart.vec.vs = 0 → Traps s (exec (.vdecl a) s) 0x07 0)
    ∧ (goodX → goodY → ∃ t, exec (.cset d a b) s = .next t
        ∧ (∀ r, t.rd r = if r = 0 then 0 else if r = d then s.hart.cfg.cstep else s.rd r)
        ∧ t.hart = { s.hart.retire s.nextPc with
            sregs := t.hart.sregs
            cfg := { s.hart.cfg with
              cgrp := x.setWidth 16, cstr := y.setWidth 25, cstep := s.hart.cfg.cstep + 1
              copr := BitVec.ofNat 13 (x.toNat / 2 ^ 16 % 4 + 256 * (x.toNat / 2 ^ 24 % 32)) } }
        ∧ (∀ q, t.byte q = s.byte q) ∧ ∀ c h, (c, h) ≠ (s.cc, s.ch) → t.hartAt c h = s.hartAt c h)
    ∧ (s.Calm → ¬ goodX → Traps s (exec (.cset d a b) s) 0x01 x)
    ∧ (s.Calm → goodX → ¬ goodY → Traps s (exec (.cset d a b) s) 0x01 y)

/-- The k-th FARM of a hart, k below 16, writes k into s[d] and adds the farm with its count to the launch where no hart
has opened it yet; the seventeenth and later ones write all ones and open none. FNEXT of a farm that the hart has
opened writes its next index and advances it while indices are left, else all ones; of another number it writes -2.
(05_harts R118, 05_harts R119) -/
def Obligations.FarmsShareWork : Prop :=
  ∀ (s : State) (d a : BitVec 5), s.Quiet →
    let k := s.hart.farms
    let id := s.hart.place.launch
    let n := (s.rd a).toNat
    let writes := fun (t : State) (v : Word) => ∀ r, t.rd r = if r = 0 then 0 else if r = d then v else s.rd r
    (k < 16 → ∃ t, exec (.farm d a) s = .next t ∧ writes t (BitVec.ofNat 64 k) ∧ t.hart.farms = k + 1
        ∧ t.hart.pc = s.nextPc ∧ (∀ x, t.byte x = s.byte x)
        ∧ t.launches = s.launches.map fun l => if l.id = id ∧ l.farms.length ≤ k then
            { l with farms := l.farms ++ [(n % 2 ^ 32, 0)] } else l)
    ∧ (16 ≤ k → ∃ t, exec (.farm d a) s = .next t ∧ writes t (BitVec.allOnes 64) ∧ t.hart.farms = k + 1 ∧ t.launches = s.launches)
    ∧ (min k 16 ≤ n → Sets s (exec (.fnext d a) s) s.nextPc d (BitVec.ofInt 64 (-2)) fun k => k)
    ∧ (n < min k 16 → ∀ l c i, s.launchOf id = some l → l.farms[n]? = some (c, i) →
        (i < c → ∃ t, exec (.fnext d a) s = .next t ∧ writes t (BitVec.ofNat 64 i) ∧ t.hart.pc = s.nextPc
          ∧ t.launchOf id = some { l with farms := l.farms.set n (c, i + 1) })
        ∧ (c ≤ i → Sets s (exec (.fnext d a) s) s.nextPc d (BitVec.allOnes 64) fun k => k))

namespace Sys2Proof.Machine

/-- A real as a rational number. -/
def Val.rat : Val → ℚ
  | .num s n e _ => (if s then -1 else 1) * n * 2 ^ e
  | _ => 0

/-- A number, a power of two and a mark stand for a positive real: the one that they give, or with the mark, one strictly between
that and the next, known to bits enough for every rounding of 03_formats R74 to R78. -/
def Stands (n : Nat) (e : Int) (st : Bool) (a : ℚ) : Prop :=
  if st then 2 ^ 64 ≤ n ∧ e ≤ -32 ∧ n * 2 ^ e < a ∧ a < (n + 1) * 2 ^ e else a = n * 2 ^ e

/-- The sum, the product, the quotient, the lesser and the greater of two reals are those of the rational numbers, with the signs of
06_varith R133 and R140 at zero; NaN, the infinities and a zero divisor give what R132 says. -/
structure ExactResults : Prop where
  sum : ∀ rdn s n e t m f, let u := Val.num s n e false; let v := Val.num t m f false
    ∃ i k g, u.add rdn v = .num i k g false ∧ (u.add rdn v).rat = u.rat + v.rat
      ∧ (k = 0 → i = if n = 0 ∧ m = 0 then (s && t) || (rdn && (s || t)) else rdn)
  product : ∀ s n e t m f, let u := Val.num s n e false; let v := Val.num t m f false
    ∃ k g, u.mul v = .num (s != t) k g false ∧ (u.mul v).rat = u.rat * v.rat
  quotient : ∀ s n e t m f, let u := Val.num s n e false; let v := Val.num t m f false
    m ≠ 0 → e - f ≤ 300 → ∃ k g st, u.div v = .num (s != t) k g st ∧ Stands k g st |u.rat / v.rat|
  extremes : ∀ s n e t m f, let u := Val.num s n e false; let v := Val.num t m f false
    ∃ i k g j l o, minV u v = .num i k g false ∧ maxV u v = .num j l o false
      ∧ (minV u v).rat = min u.rat v.rat ∧ (maxV u v).rat = max u.rat v.rat
      ∧ (n = 0 → m = 0 → i = (s || t) ∧ j = (s && t))
  nan : ∀ v rdn, Val.add rdn .nan v = .nan ∧ v.add rdn .nan = .nan ∧ Val.mul .nan v = .nan ∧ v.mul .nan = .nan
    ∧ Val.div .nan v = .nan ∧ v.div .nan = .nan ∧ minV .nan v = .nan ∧ minV v .nan = .nan ∧ maxV .nan v = .nan ∧ maxV v .nan = .nan
  inf : ∀ i j rdn s n e, let v := Val.num s n e false
    Val.add rdn (.inf i) (.inf j) = (if i = j then .inf i else .nan)
    ∧ Val.add rdn (.inf i) v = .inf i ∧ v.add rdn (.inf i) = .inf i
    ∧ Val.mul (.inf i) (.inf j) = .inf (i != j) ∧ Val.mul (.inf i) v = (if n = 0 then .nan else .inf (i != s))
    ∧ v.mul (.inf i) = (if n = 0 then .nan else .inf (s != i))
    ∧ Val.div (.inf i) (.inf j) = .nan ∧ Val.div (.inf i) v = .inf (i != s) ∧ v.div (.inf i) = .zero (s != i)
  byZero : ∀ s n e t f, Val.div (.num s n e false) (.num t 0 f false) = if n = 0 then .nan else .inf (s != t)

/-- The pattern that an operand has in a hart at an element: of INT2, TERN and BIN1 the bits of the value, INT2’s extended to
its container by its bit 1 (03_formats R67). -/
def Opnd.readsIn (o : Opnd) (k : Hart) (c : Cfg) (e : Nat) : Nat :=
  match o with
  | .vec v f =>
    let p := k.elem c v (contWidth f) e
    if f = 0x0D then p % 4 + (if p.testBit 1 then 12 else 0) else if f = 0x0E then p % 4 else if f = 0x0F then p % 2 else p
  | .const p _ => p

/-- What every word on vector groups needs to pass the checks of 02_stream R55 alone and to meet no mark: VS is not
OFF, the shapes are legal, VTYPE is not reserved, the descriptor holds no reserved value, every group fits, and no
chunk that an active element reads, nor of its predicate, carries a mark. -/
structure Runs (k : Hart) (x : Entry) (pm : Option (BitVec 3)) (ds ss : List Grp) (read : Nat → List Grp) : Prop where
  on    : k.vec.vs ≠ 0
  legal : k.legal
  typed : x.ill = false
  descr : descrReserved x.fval = false
  fits  : ∀ g ∈ ds ++ ss, g.bad05 k x.cfg = false ∧ g.bad06 k x.cfg = false
  clean : ∀ e < x.vl, ∀ g ∈ read e, k.elemMarked x.cfg g.base g.w e = false
  free  : ∀ e < x.vl, ∀ r ∈ pmReads pm, k.maskMarked r (e / 64) = false

/-- A word rounds a value into the destination format at every active element, in element order, its operands read
from the state before (06_varith R130, R137, 03_formats R78, R79). -/
def Rounds (s : State) (o : Out) (x : Entry) (pm : Option (BitVec 3)) (d : BitVec 5) (v : Nat → Val) : Prop :=
  o = .next ((List.range x.vl).foldl (fun u e => if s.hart.active pm e then u.putRound x.cfg d.toNat x.fmt e (v e) else u) s)

/-- The groups that an element reads: all of them where it is active. -/
def State.reads (s : State) (pm : Option (BitVec 3)) (ss : List Grp) (e : Nat) : List Grp :=
  if s.hart.active pm e then ss else []

/-- The value of an operand of a word at an element. -/
def State.valOf (s : State) (x : Entry) (o : Opnd) (e : Nat) : Val := value o.fmt (o.readsIn s.hart x.cfg e)

end Sys2Proof.Machine

/-- Dispatched on its own, with groups that fit, formats of the value class, no overlap but the coinciding one and no
mark in what it reads, a word of the value class completes: VADD, VSUB, VMUL, VDIV, VMIN, VMAX, VFMA, VFMS, VFNMA,
VABS, VNEG, VCLAMP, VSEL and VINDEX round, in element order, the exact sum, difference, product, quotient, lesser,
greater, fused result, magnitude, negation, clamped value, selected operand or the sum S + e of the operands as they
stood before the word into the destination’s format, at active elements only. The sum, the product, the quotient,
the lesser and the greater of two reals are those of the rational numbers, a zero sum, product or quotient and the
extremes of two zeros having the sign of R133, R132 and R140; NaN, infinities and a zero divisor give what R132
says. That an integer’s zero carries the sign + and a negative integer the sign - is the model’s reading of R132
(log 83), and that 0 divided by a real that is not 0 has the exclusive-or of the signs is the model’s choice (log
101). (06_varith R131, 06_varith R132, 06_varith R133, 06_varith R137, 06_varith R139, 06_varith R140, 06_varith
R141, 06_varith R145, 06_varith R146) -/
def Obligations.ValueClassResults : Prop :=
  ExactResults ∧ ∀ (s : State) (h : VHdr) (d a y f : BitVec 5) (b : VSrc) (z : ClampSrc) (m : BitVec 3) (sr : BitVec 5),
    let one := fun (i : Instr) (r : BitVec 5) (os : Entry → List Opnd) (op : Entry → List Val → Nat → Val) =>
      let x := s.capture r f
      let ds := [x.grp d x.fmt.fd]
      let ss := opndGrps x.vl (os x)
      Runs s.hart x h.pm ds ss (s.reads h.pm ss) → x.fmt.scl = 0 → isValue x.fmt.fd = true →
      (∀ o ∈ os x, isValue o.fmt = true) → overlap137 s.hart x.cfg ds ss = false →
      Rounds s (exec i s) x h.pm d fun e => op x ((os x).map fun o => s.valOf x o e) e
    let two := fun (i : Instr) (op : Bool → Val → Val → Val) =>
      one i (srcReg b) (fun x => [.vec a.toNat x.fmt.fa, bOpnd b x x.fmt.fb])
        fun x vs _ => op (x.fmt.rm == 2) (vs.getD 0 .nan) (vs.getD 1 .nan)
    let three := fun (i : Instr) (op : Bool → Val → Val → Val → Val) =>
      one i (srcReg b) (fun x => [.vec a.toNat x.fmt.fa, bOpnd b x x.fmt.fb, .vec y.toNat x.fmt.fc])
        fun x vs _ => op (x.fmt.rm == 2) (vs.getD 0 .nan) (vs.getD 1 .nan) (vs.getD 2 .nan)
    let un := fun (i : Instr) (op : Val → Val) =>
      one i 0 (fun x => [.vec a.toNat x.fmt.fa]) fun _ vs _ => op (vs.getD 0 .nan)
    two (.vadd h d a b f) (fun rdn u v => u.add rdn v)
    ∧ two (.vsub h d a b f) (fun rdn u v => u.add rdn v.negate)
    ∧ two (.vmul h d a b f) (fun _ u v => u.mul v)
    ∧ two (.vdiv h d a b f) (fun _ u v => u.div v)
    ∧ two (.vmin h d a b f) (fun _ u v => minV u v)
    ∧ two (.vmax h d a b f) (fun _ u v => maxV u v)
    ∧ three (.vfma h d a b y f) (fun rdn u v w => (u.mul v).add rdn w)
    ∧ three (.vfms h d a b y f) (fun rdn u v w => (u.mul v).add rdn w.negate)
    ∧ three (.vfnma h d a b y f) (fun rdn u v w => w.add rdn (u.mul v).negate)
    ∧ un (.vabs h d a f) Val.abs ∧ un (.vneg h d a f) Val.negate
    ∧ one (.vclamp h d a z f) (clampReg z) (fun x => .vec a.toNat x.fmt.fa :: clampOpnds z x)
        (fun _ vs _ => minV (maxV (vs.getD 0 .nan) (vs.getD 1 .nan)) (vs.getD 2 .nan))
    ∧ one (.vindex h d sr f) sr (fun _ => []) (fun x _ e => Val.add (x.fmt.rm == 2) (.ofInt x.sval.toInt) (.ofInt e))
    ∧ (let x := s.capture (srcReg b) f
      let u : Opnd := .vec a.toNat x.fmt.fa
      let v := bOpnd b x x.fmt.fb
      let pick := fun e => if s.hart.maskBit m.toNat e then u else v
      let ds := [x.grp d x.fmt.fd]
      let ss := opndGrps x.vl [u, v]
      Runs s.hart x h.pm ds ss (fun e => s.reads h.pm (opndGrps x.vl [pick e]) e) → x.fmt.scl = 0 → isValue x.fmt.fd = true →
      isValue x.fmt.fa = true → isValue x.fmt.fb = true → overlap137 s.hart x.cfg ds ss = false →
      (∀ e < x.vl, s.hart.active h.pm e = true → s.hart.maskMarked m.toNat (e / 64) = false) →
      Rounds s (exec (.vsel h d a b m f) s) x h.pm d fun e => s.valOf x (pick e) e)

namespace Sys2Proof.Machine

/-- The functions of 06_varith R142 at the special inputs, the square root and its reciprocal of a positive real, and 2^x and log2 x
where they are whole or a power of two. -/
structure ExactFunctions : Prop where
  root : ∀ (n : Nat) (e : ℤ), n ≠ 0 → ∃ k g st, (Val.num false n e false).sqrt = .num false k g st ∧ 2 ^ 64 ≤ k
    ∧ let a : ℚ := n * 2 ^ e
      if st then ((k : ℚ) * 2 ^ g) ^ 2 < a ∧ a < (((k : ℚ) + 1) * 2 ^ g) ^ 2 else a = ((k : ℚ) * 2 ^ g) ^ 2
  recip : ∀ v, v.rcp = Val.div (.num false 1 0 false) v
  rroot : ∀ (n : Nat) (e : ℤ), n ≠ 0 → ∃ k g st, (Val.num false n e false).rsqrt = .num false k g st ∧ 2 ^ 64 ≤ k
    ∧ let a : ℚ := n * 2 ^ e
      if st then a * ((k : ℚ) * 2 ^ g) ^ 2 < 1 ∧ 1 < a * (((k : ℚ) + 1) * 2 ^ g) ^ 2 else a * ((k : ℚ) * 2 ^ g) ^ 2 = 1
  power : ∀ s n e (i : ℤ), |i| ≤ 1000 → (Val.num s n e false).rat = i → (Val.num s n e false).exp2 = .num false 1 i false
  log : ∀ (b : Nat) (e : ℤ), (Val.num false (2 ^ b) e false).log2 = .ofInt (e + b)
  zero : ∀ s e, let z := Val.num s 0 e false
    z.sqrt = .zero s ∧ z.rcp = .inf s ∧ z.rsqrt = .inf s ∧ z.exp2 = .num false 1 0 false ∧ z.log2 = .inf true
  less : ∀ n e, n ≠ 0 → let v := Val.num true n e false; v.sqrt = .nan ∧ v.rsqrt = .nan ∧ v.log2 = .nan
  nan : Val.sqrt .nan = .nan ∧ Val.rcp .nan = .nan ∧ Val.rsqrt .nan = .nan ∧ Val.exp2 .nan = .nan ∧ Val.log2 .nan = .nan
  up : Val.sqrt (.inf false) = .inf false ∧ Val.rcp (.inf false) = .zero false ∧ Val.rsqrt (.inf false) = .zero false
    ∧ Val.exp2 (.inf false) = .inf false ∧ Val.log2 (.inf false) = .inf false
  down : Val.sqrt (.inf true) = .nan ∧ Val.rcp (.inf true) = .zero true ∧ Val.rsqrt (.inf true) = .nan
    ∧ Val.exp2 (.inf true) = .zero false ∧ Val.log2 (.inf true) = .nan

end Sys2Proof.Machine

/-- Dispatched on its own under the same conditions, with formats of the function class, VSQRT, VRCP, VRSQRT, VEXP2 and
VLOG2 complete and round the function’s value at every active element into the destination’s format; VCVT, with any
formats, rounds the source’s value. The square root and its reciprocal of a positive real are known to bits enough
for every rounding, or exactly, the reciprocal is the quotient of 1, 2^x is exact for whole x of at most 1,000 and
log2 x for a power of two, and the special inputs give what the table of R142 says; how 2^x and log2 x are found
elsewhere is the model’s (log 66). (06_varith R131, 06_varith R142, 03_formats R80, 03_formats R74) -/
def Obligations.FunctionAndConversionResults : Prop :=
  ExactFunctions ∧ ∀ (s : State) (h : VHdr) (d a f : BitVec 5),
    let x := s.capture 0 f
    let o : Opnd := .vec a.toNat x.fmt.fa
    let ds := [x.grp d x.fmt.fd]
    let ss := [x.grp a x.fmt.fa]
    Runs s.hart x h.pm ds ss (s.reads h.pm ss) → x.fmt.scl = 0 → overlap137 s.hart x.cfg ds ss = false →
    Rounds s (exec (.vcvt h d a f) s) x h.pm d (fun e => s.valOf x o e)
    ∧ (x.fmt.fa ≤ 3 → x.fmt.fd ≤ 3 →
        Rounds s (exec (.vsqrt h d a f) s) x h.pm d (fun e => (s.valOf x o e).sqrt)
        ∧ Rounds s (exec (.vrcp h d a f) s) x h.pm d (fun e => (s.valOf x o e).rcp)
        ∧ Rounds s (exec (.vrsqrt h d a f) s) x h.pm d (fun e => (s.valOf x o e).rsqrt)
        ∧ Rounds s (exec (.vexp2 h d a f) s) x h.pm d (fun e => (s.valOf x o e).exp2)
        ∧ Rounds s (exec (.vlog2 h d a f) s) x h.pm d (fun e => (s.valOf x o e).log2))

namespace Sys2Proof.Machine

/-- The floating formats by code: exponent bits, mantissa bits, bias, zero bits below (03_formats R65). -/
def floatShape (f : Nat) : Nat × Nat × Nat × Nat :=
  [(8, 23, 127, 0), (8, 10, 127, 13), (5, 10, 15, 0), (8, 7, 127, 0), (5, 2, 15, 0), (4, 3, 7, 0), (3, 2, 3, 0), (2, 3, 1, 0),
   (2, 1, 1, 0)].getD f (0, 0, 0, 0)
/-- The patterns of the largest finite magnitude, of the infinity and of the canonical NaN of a floating format; the last is 0, and the
one before it the largest magnitude, where there is none (R65, R75). -/
def floatEnds (f : Nat) : Nat × Nat × Nat :=
  [(0x7F7FFFFF, 0x7F800000, 0x7FC00000), (0x7F7FE000, 0x7F800000, 0x7FC00000), (0x7BFF, 0x7C00, 0x7E00), (0x7F7F, 0x7F80, 0x7FC0),
   (0x7B, 0x7C, 0x7E), (0x7E, 0x7F, 0x7F), (0x1F, 0x1F, 0), (0x1F, 0x1F, 0), (0x7, 0x7, 0)].getD f (0, 0, 0)
/-- The value of the sign bit of a floating format. -/
def signBit (f : Nat) : Nat := [2 ^ 31, 2 ^ 31, 2 ^ 15, 2 ^ 15, 2 ^ 7, 2 ^ 7, 2 ^ 5, 2 ^ 5, 2 ^ 3].getD f 0
/-- The integer formats: code, width, signed (R65). -/
def intShapes : List (Nat × Nat × Bool) :=
  [(0x09, 8, true), (0x0A, 8, false), (0x0B, 4, true), (0x0C, 4, false), (0x0D, 2, true), (0x10, 16, true), (0x11, 16, false),
   (0x12, 32, true), (0x13, 32, false)]

/-- Whether a mode takes the neighbour farther from zero (R74, R78): `odd` where the nearer one ends in a 1, `fr` the part of a spacing
above it, `r` the 24 bits of the generator. -/
def goesAway (rm r : Nat) (neg odd : Bool) (fr : ℚ) : Bool :=
  match rm with
  | 0 => decide (1 / 2 < fr) || (decide (fr = 1 / 2) && odd)
  | 1 => false
  | 2 => neg && decide (fr ≠ 0)
  | 3 => !neg && decide (fr ≠ 0)
  | 4 => decide (1 / 2 ≤ fr)
  | _ => decide ((r : ℤ) < ⌊fr * 2 ^ 24⌋)
/-- A magnitude of `m` spacings rounded to whole ones (R74). -/
def wholeSpacings (rm r : Nat) (neg : Bool) (m : ℚ) : Nat :=
  ⌊m⌋₊ + if goesAway rm r neg (⌊m⌋₊ % 2 = 1) (m - ⌊m⌋₊) then 1 else 0
/-- What an infinity, or an overflow under a mode that goes to it, gives in a floating format (R75). -/
def infOf (f : Nat) (neg : Bool) : Nat := (floatEnds f).2.1 + if neg && f != 5 then signBit f else 0
/-- What an overflow gives (R75). -/
def overflowOf (f rm : Nat) (sat neg : Bool) : Nat :=
  if sat || rm == 1 || (rm == 2 && !neg) || (rm == 3 && neg) then (floatEnds f).1 + (if neg then signBit f else 0) else infOf f neg

/-- What rounding gives for a real, an infinity and NaN, in each format (R74 to R76). -/
structure RoundsRight (f rm r : Nat) (sat : Bool) : Prop where
  real  : ∀ (s : Bool) (n : Nat) (e : Int) (st : Bool) (a : ℚ), n ≠ 0 → f ≤ 8 → Stands n e st a →
    let p := round f rm sat r (.num s n e st)
    let mb := (floatShape f).2.1
    let q := max (1 - ((floatShape f).2.2.1 : ℤ) - mb) (Int.log 2 a - mb)
    let k := wholeSpacings rm r s (a / 2 ^ q)
    if (k : ℚ) * 2 ^ q ≤ (value f (floatEnds f).1).rat then
      value f p ≠ .nan ∧ (∀ i, value f p ≠ .inf i) ∧ (value f p).rat = (if s then -1 else 1) * k * 2 ^ q ∧ (value f p).neg = s
        ∧ p < 2 * signBit f ∧ p % 2 ^ (floatShape f).2.2.2 = 0
    else p = overflowOf f rm sat s
  zero  : ∀ s e, f ≤ 8 → round f rm sat r (.num s 0 e false) = if s then signBit f else 0
  inf   : ∀ s, f ≤ 8 → round f rm sat r (.inf s) = if sat then (floatEnds f).1 + (if s then signBit f else 0) else infOf f s
  nan   : f ≤ 8 → round f rm sat r .nan = (floatEnds f).2.2
  int   : ∀ w sg, (f, w, sg) ∈ intShapes →
    let lo : ℤ := if sg then -2 ^ (w - 1) else 0
    let hi : ℤ := if sg then 2 ^ (w - 1) - 1 else 2 ^ w - 1
    (∀ (s : Bool) (n : Nat) (e : Int) (st : Bool) (a : ℚ), Stands n e st a → let i : ℤ := (if s then -1 else 1) * wholeSpacings rm r s a
      (round f rm sat r (.num s n e st) : ℤ) = (if sat then max lo (min hi i) else i) % 2 ^ w)
    ∧ (∀ s, (round f rm sat r (.inf s) : ℤ) = (if s then lo else hi) % 2 ^ w) ∧ round f rm sat r .nan = 0
  tern  : f = 0x0E → (∀ (s : Bool) (n : Nat) (e : Int) (st : Bool) (a : ℚ), Stands n e st a → round f rm sat r (.num s n e st) =
      if wholeSpacings rm r s a = 0 then 0 else if s then 3 else 1)
    ∧ (∀ s, round f rm sat r (.inf s) = if s then 3 else 1) ∧ round f rm sat r .nan = 0
  bin   : f = 0x0F → ∀ v, round f rm sat r v = if v.neg then 1 else 0
  scale : f = 0x14 → (∀ (s : Bool) (n : Nat) (e : Int) (st : Bool) (a : ℚ), Stands n e st a → round f rm sat r (.num s n e st) =
      if s = true ∨ n = 0 then 0xFF
      else
        let k := Int.log 2 a
        let p := k + 127 + (if goesAway rm r false ((k + 127) % 2 = 1) (a / 2 ^ k - 1) then 1 else 0)
        if p < 0 then 0 else if p > 254 then (if sat then 0xFE else 0xFF) else p.toNat)
    ∧ round f rm sat r (.inf true) = 0xFF ∧ round f rm sat r (.inf false) = (if sat then 0xFE else 0xFF)
    ∧ round f rm sat r .nan = 0xFF

/-- The generator's next state (R78), as a number. -/
def seedStep (x : Nat) : Nat :=
  let x := x ^^^ x * 2 ^ 13 % 2 ^ 64
  let x := x ^^^ x / 2 ^ 7
  x ^^^ x * 2 ^ 17 % 2 ^ 64

end Sys2Proof.Machine

/-- A floating pattern has the value of R66. Rounding a real that a number and a power of two give exactly or to bits
enough, an infinity or NaN gives, in each format and mode, the neighbour that R74 chooses at the format’s spacing,
with the sign kept, or what R75 and R76 say of overflow, infinities, NaN, the integer formats, TERN, BIN1 and E8M0.
Values rounded into a register group element by element, at the active elements below VL: each active element then
reads as its rounded pattern, under SR with the 24 bits [63:40] of the state that the generator has after one step
more for each active element up to and with it, and SEED holds the state after the last; under another mode SEED
stays. Every inactive element of the group and every chunk outside the elements’ registers is as before, no scalar
register, mask or tile changes, nothing but this hart changes, and if an element was written VDIRTY has the
registers written and VS is DIRTY where it was INITIAL or CLEAN. That an element written into a marked chunk leaves
the mark is the model’s choice (log 17). (03_formats R66, 03_formats R74, 03_formats R75, 03_formats R76, 03_formats
R67, 03_formats R78, 03_formats R79, 06_varith R130, 06_varith R137, 05_harts R369) -/
def Obligations.RoundedElementsLand : Prop :=
  (∀ f ≤ 8, ∀ p : Nat, let z := floatShape f
    let m : Nat := p / 2 ^ z.2.2.2 % 2 ^ z.2.1
    let x : Nat := p / 2 ^ (z.2.2.2 + z.2.1) % 2 ^ z.1
    let s : Nat := p / 2 ^ (z.2.2.2 + z.2.1 + z.1) % 2
    let top := x = 2 ^ z.1 - 1
    (top ∧ (f ≤ 4 ∧ m ≠ 0 ∨ f = 5 ∧ m = 7) → value f p = .nan)
    ∧ (top ∧ f ≤ 4 ∧ m = 0 → value f p = .inf (s == 1))
    ∧ (¬ (top ∧ (f ≤ 4 ∨ f = 5 ∧ m = 7)) → value f p ≠ .nan ∧ (∀ i, value f p ≠ .inf i) ∧ (value f p).neg = (s == 1)
        ∧ (value f p).rat = (if s = 1 then -1 else 1) *
          (if x = 0 then (m : ℚ) / 2 ^ z.2.1 * 2 ^ (1 - (z.2.2.1 : ℤ)) else (1 + (m : ℚ) / 2 ^ z.2.1) * 2 ^ ((x : ℤ) - z.2.2.1))))
  ∧ (∀ f ≤ 0x14, ∀ rm ≤ 5, ∀ r < 2 ^ 24, ∀ sat, RoundsRight f rm r sat)
  ∧ ∀ (s : State) (c : Cfg) (d : Nat) (q : Descr) (n : Nat) (act : Nat → Bool) (v : Nat → Val),
    s.hart.legal → c.nreg = s.hart.cfg.nreg →
    let w := contWidth q.fd
    let t := (List.range n).foldl (fun u e => if act e then u.putRound c d q e (v e) else u) s
    let seed := fun k => seedStep^[k] s.hart.vec.seed.toNat
    let count := fun e => (List.range e).countP act
    SameElse s t
    ∧ (∀ e < n, act e = true → t.hart.elem c d w e =
        round q.fd q.rm q.sat (if q.rm = 5 then seed (count e + 1) / 2 ^ 40 else 0) (v e) % 2 ^ w)
    ∧ t.hart.vec.seed.toNat = (if q.rm = 5 then seed (count n) else s.hart.vec.seed.toNat)
    ∧ (∀ e, e < n ∧ act e = false ∨ n ≤ e → t.hart.elem c d w e = s.hart.elem c d w e)
    ∧ (∀ i, (∀ e < n, act e = true → i ≠ chunkIndex s.hart c d (e / perChunk w)) →
        mget 0 t.hart.store.chunks i = mget 0 s.hart.store.chunks i)
    ∧ t.hart = { s.hart with
        store := { s.hart.store with chunks := t.hart.store.chunks }
        vec := { s.hart.vec with dirtyV := t.hart.vec.dirtyV, vs := t.hart.vec.vs, seed := t.hart.vec.seed } }
    ∧ (∀ r < 32, t.hart.vec.dirtyV.getLsbD r = (s.hart.vec.dirtyV.getLsbD r
        || (List.range n).any fun e => act e && d + e / perChunk w / cpr s.hart c == r))
    ∧ t.hart.vec.vs = if (List.range n).any act then vsDirty s.hart.vec.vs else s.hart.vec.vs

namespace Sys2Proof.Machine

/-- A word writes a pattern at every active element, in element order. -/
def Puts (s : State) (o : Out) (x : Entry) (pm : Option (BitVec 3)) (d : BitVec 5) (p : Nat → Nat) : Prop :=
  o = .next ((List.range x.vl).foldl (fun u e => if s.hart.active pm e then
    u.modHart fun k => k.setElem x.cfg d.toNat (contWidth x.fmt.fd) e (p e) else u) s)

end Sys2Proof.Machine

/-- Dispatched on its own, with groups that fit, containers of one width, a scalar’s under FB among them (for shifts,
integer formats and one value width), no overlap but the coinciding one and no mark in what it reads, each word
completes and writes at every active element: VAND, VOR and VXOR the bitwise result of the patterns, VMOV the
source’s and VSPLAT the scalar’s pattern, cut to the value width with B19’s low bits and the unused TERN pattern
zero; VSHL, VSHR and VSHR.A the pattern shifted by the signed amount, with 0 (for VSHR.A copies of the top bit) for
an amount below 0 or not below the width. VSPLAT’s S has no format of its own (the model’s reading, log 25). Of a
vector source in INT2, TERN or BIN1 the value’s bits are read, INT2’s extended by its sign, as R67 says of every
read (log 94, the model’s reading where FD is wider). (06_varith R131, 06_varith R137, 06_varith R143, 06_varith
R144, 03_formats R67) -/
def Obligations.RawAndShiftResults : Prop :=
  ∀ (s : State) (h : VHdr) (d a f sr : BitVec 5) (b : VSrc),
    let run := fun (x : Entry) (os : List Opnd) =>
      let ds := [x.grp d x.fmt.fd]
      let ss := opndGrps x.vl os
      Runs s.hart x h.pm ds ss (s.reads h.pm ss) ∧ x.fmt.scl = 0 ∧ overlap137 s.hart x.cfg ds ss = false
    let raw := fun (i : Instr) (r : BitVec 5) (os : Entry → List Opnd) (op : Entry → List Nat → Nat) =>
      let x := s.capture r f
      run x (os x) → (∀ o ∈ os x, contWidth o.fmt = contWidth x.fmt.fd) →
      Puts s (exec i s) x h.pm d fun e => rawFix x.fmt.fd (op x ((os x).map fun o => o.readsIn s.hart x.cfg e))
    let bit := fun (i : Instr) (op : Nat → Nat → Nat) =>
      raw i (srcReg b) (fun x => [.vec a.toNat x.fmt.fa, bOpnd b x x.fmt.fb]) fun _ ps => op (ps.getD 0 0) (ps.getD 1 0)
    let shift := fun (i : Instr) (op : Nat → Nat → Int → Nat) =>
      let x := s.capture (srcReg b) f
      let u : Opnd := .vec a.toNat x.fmt.fa
      let v := bOpnd b x x.fmt.fb
      let w := memWidth x.fmt.fa
      run x [u, v] → isInt x.fmt.fa = true → isInt x.fmt.fb = true → isInt x.fmt.fd = true → memWidth x.fmt.fd = w →
      Puts s (exec i s) x h.pm d fun e =>
        op w (u.readsIn s.hart x.cfg e % 2 ^ w) (intValue x.fmt.fb (v.readsIn s.hart x.cfg e))
    bit (.vand h d a b f) (· &&& ·) ∧ bit (.vor h d a b f) (· ||| ·) ∧ bit (.vxor h d a b f) (· ^^^ ·)
    ∧ raw (.vmov h d a f) 0 (fun x => [.vec a.toNat x.fmt.fa]) (fun _ ps => ps.getD 0 0)
    ∧ raw (.vsplat h d sr f) sr (fun _ => []) (fun x _ => x.sval.toNat)
    ∧ shift (.vshl h d a b f) (fun w p n => if 0 ≤ n ∧ n < w then p * 2 ^ n.toNat % 2 ^ w else 0)
    ∧ shift (.vshr h d a b f) (fun w p n => if 0 ≤ n ∧ n < w then p / 2 ^ n.toNat else 0)
    ∧ shift (.vshrA h d a b f) (fun w p n =>
        let sign := p.testBit (w - 1)
        if 0 ≤ n ∧ n < w then p / 2 ^ n.toNat + (if sign then 2 ^ w - 2 ^ (w - n.toNat) else 0)
        else if sign then 2 ^ w - 1 else 0)

namespace Sys2Proof.Machine

/-- A word writes a bit of a mask at every active element, in element order. -/
def PutsBits (s : State) (o : Out) (n : Nat) (pm : Option (BitVec 3)) (d : BitVec 3) (b : Nat → Bool) : Prop :=
  o = .next ((List.range n).foldl (fun u e => if s.hart.active pm e then
    u.modHart fun k => k.setMaskBit d.toNat e (b e) else u) s)

/-- A word of the queues writes a scalar register and changes nothing else. -/
def Gives (s : State) (o : Out) (d : BitVec 5) (v : Word) : Prop :=
  ∃ t, o = .next t ∧ SameElse s t ∧ (∀ r, t.rd r = if r = 0 then 0 else if r = d then v else s.rd r)
    ∧ t.hart = { s.hart with sregs := t.hart.sregs }

/-- What a word on masks alone needs: VS is not OFF, VL is at most the 2^20 bits of a mask, and no chunk of the predicate, nor of a mask
read at an active element, carries a mark. -/
structure MaskRuns (k : Hart) (pm : Option (BitVec 3)) (ms : List (BitVec 3)) : Prop where
  on    : k.vec.vs ≠ 0
  typed : k.cfg.vtype.getLsbD 63 = false
  short : k.cfg.vl.toNat ≤ 2 ^ 20
  free  : ∀ e < k.cfg.vl.toNat, ∀ r ∈ pmReads pm, k.maskMarked r (e / 64) = false
  clean : ∀ e < k.cfg.vl.toNat, k.active pm e = true → ∀ m ∈ ms, k.maskMarked m.toNat (e / 64) = false

end Sys2Proof.Machine

/-- Dispatched on its own, with VS not OFF, VTYPE not reserved, the written mask not bound and no mark in the masks it
reads, each mask logical instruction completes and writes, for each active e, bit e of mD: MAND A[e] and B[e], MOR
A[e] or B[e], MXOR A[e] xor B[e], MANDN A[e] and not B[e], MNOT not A[e], MSET.LT 1 if e < S, else 0, MSET.GE 1 if e
>= S, else 0, the sources being read as they stood before the word; and nothing else is written, no mark of a mask’s
chunk either (log 17, the model’s reading). MSET.GE with s0 sets bits 0 to VL - 1 and MSET.LT with s0 clears them.
(06_varith R148) -/
def Obligations.MaskLogicResults : Prop :=
  ∀ (s : State) (h : VHdr) (d a b : BitVec 3) (sr : BitVec 5),
    let k := s.hart
    let n := k.cfg.vl.toNat
    let x := fun (m : BitVec 3) e => k.maskBit m.toNat e
    let puts := fun (i : Instr) (ms : List (BitVec 3)) (v : Nat → Bool) =>
      MaskRuns k h.pm ms → k.isBound d.toNat = false →
      PutsBits s (exec i s) n h.pm d v
      ∧ ∃ t, exec i s = .next t ∧ SameElse s t
        ∧ (∀ e < 2 ^ 20, t.hart.maskBit d.toNat e = if e < n ∧ k.active h.pm e = true then v e else x d e)
        ∧ (∀ m : BitVec 3, m ≠ d → ∀ e < 2 ^ 20, t.hart.maskBit m.toNat e = x m e)
        ∧ t.hart = { k with
            store := { k.store with masks := t.hart.store.masks, binds := t.hart.store.binds }
            vec := { k.vec with dirtyM := t.hart.vec.dirtyM, vs := t.hart.vec.vs } }
    puts (.mand h d a b) [a, b] (fun e => x a e && x b e)
    ∧ puts (.mor h d a b) [a, b] (fun e => x a e || x b e)
    ∧ puts (.mxor h d a b) [a, b] (fun e => x a e != x b e)
    ∧ puts (.mandn h d a b) [a, b] (fun e => x a e && !x b e)
    ∧ puts (.mnot h d a) [a] (fun e => !x a e)
    ∧ puts (.msetLt h d sr) [] (fun e => decide (e < (s.rd sr).toNat))
    ∧ puts (.msetGe h d sr) [] (fun e => decide ((s.rd sr).toNat ≤ e))
    ∧ puts (.msetGe h d 0) [] (fun _ => true) ∧ puts (.msetLt h d 0) [] (fun _ => false)

/-- Dispatched on its own with C = 0, VS not OFF, VTYPE not reserved and no mark in the masks it reads, MPOP writes s[d]
with the number of active elements below VL whose bit of mA is 1, and MFIRST with the least of them, or -1 where
there is none. No other register changes. (06_varith R149, 06_varith R129, 02_stream R46) -/
def Obligations.MaskCounts : Prop :=
  ∀ (s : State) (h : VHdr) (a : BitVec 3) (r : BitVec 5),
    let k := s.hart
    let hit := fun e => k.active h.pm e && k.maskBit a.toNat e
    h.c = false → MaskRuns k h.pm [a] →
    Gives s (exec (.mpop h r a) s) r (BitVec.ofNat 64 ((List.range k.cfg.vl.toNat).countP hit))
    ∧ (∀ e < k.cfg.vl.toNat, hit e = true → (∀ i < e, hit i = false) → Gives s (exec (.mfirst h r a) s) r (BitVec.ofNat 64 e))
    ∧ ((∀ e < k.cfg.vl.toNat, hit e = false) → Gives s (exec (.mfirst h r a) s) r (BitVec.allOnes 64))

/-- Dispatched on its own, with groups that fit, formats of the value class, mD not bound and no mark in what it reads,
VCMP completes: for each active element bit e of mD is the relation of the two values as they stood before (EQ, NE,
LT, LE, GT and GE of the values, ORD where neither is NaN, UN where one is); with a NaN only NE and UN hold, and +0
equals -0. The order of two reals is that of the rational numbers they stand for; +inf is above and -inf below every
real, and each equals itself. (06_varith R131, 06_varith R147, 06_varith R130) -/
def Obligations.CompareResults : Prop :=
  ∀ (s : State) (h : VHdr) (cc : VCond) (d : BitVec 3) (a f : BitVec 5) (b : VSrc),
    let x := s.capture (srcReg b) f
    let u : Opnd := .vec a.toNat x.fmt.fa
    let v := bOpnd b x x.fmt.fb
    let ss := opndGrps x.vl [u, v]
    (Runs s.hart x h.pm [] ss (s.reads h.pm ss) → x.fmt.scl = 0 → isValue x.fmt.fa = true → isValue x.fmt.fb = true →
      s.hart.isBound d.toNat = false →
      PutsBits s (exec (.vcmp h cc d a b f) s) x.vl h.pm d fun e =>
        match cmpV (s.valOf x u e) (s.valOf x v e) with
        | none => cc == .ne || cc == .un
        | some .lt => cc == .lt || cc == .le || cc == .ne || cc == .ord
        | some .eq => cc == .eq || cc == .le || cc == .ge || cc == .ord
        | some .gt => cc == .gt || cc == .ge || cc == .ne || cc == .ord)
    ∧ cmpV (.zero false) (.zero true) = some .eq ∧ (∀ w, cmpV .nan w = none ∧ cmpV w .nan = none)
    ∧ (∀ p m e q n g, let y := Val.num p m e false; let z := Val.num q n g false
      (cmpV y z = some .lt ↔ y.rat < z.rat) ∧ (cmpV y z = some .eq ↔ y.rat = z.rat) ∧ (cmpV y z = some .gt ↔ z.rat < y.rat))
    ∧ (∀ p m e, let y := Val.num p m e false
      cmpV y (.inf false) = some .lt ∧ cmpV (.inf false) y = some .gt ∧ cmpV y (.inf true) = some .gt ∧ cmpV (.inf true) y = some .lt)
    ∧ ∀ i j, cmpV (.inf i) (.inf j) = some (if i = j then .eq else if i then .lt else .gt)

namespace Sys2Proof.Machine

/-- A node of the fixed tree of 06_varith R151, by level and place: a leaf, or the sum of the two nodes below, the one of them
that is there, or nothing. -/
def treeNode (add : Val → Val → Val) (leaf : Nat → Option Val) : Nat → Nat → Option Val
  | 0, i => leaf i
  | k + 1, i => match treeNode add leaf k (2 * i), treeNode add leaf k (2 * i + 1) with
    | some u, some v => some (add u v)
    | some u, none => some u
    | none, o => o

/-- The signed integer formats, with their widths (03_formats R65). -/
def signedFormats : List (Nat × Nat) := [(0x09, 8), (0x0B, 4), (0x0D, 2), (0x10, 16), (0x12, 32)]

/-- What reductions are made of (06_varith R132, R133, R140, R150, R152): the exact sum of many values, the greatest and the least of
many, the identities of .MAX and .MIN, and a pattern as a scalar. -/
structure ReductionParts : Prop where
  sum : ∀ rdn (l : List (Bool × Nat × Int)), let vs := l.map fun z => Val.num z.1 z.2.1 z.2.2 false
    ∃ i k g, sumV rdn vs = .num i k g false ∧ (sumV rdn vs).rat = (vs.map Val.rat).sum
      ∧ (k = 0 → i = if l.all (fun z => z.2.1 == 0) then (!l.isEmpty && l.all (·.1)) || (rdn && l.any (·.1)) else rdn)
  special : ∀ rdn vs, (.nan ∈ vs ∨ (.inf false ∈ vs ∧ .inf true ∈ vs) → sumV rdn vs = .nan)
    ∧ ∀ i, .nan ∉ vs → .inf i ∈ vs → .inf (!i) ∉ vs → sumV rdn vs = .inf i
  greatest : ∀ (z : Bool × Nat × Int) (l : List (Bool × Nat × Int)), let u := Val.num z.1 z.2.1 z.2.2 false
    let vs := l.map fun z => Val.num z.1 z.2.1 z.2.2 false
    ∃ i k g j m o, vs.foldl maxV u = .num i k g false ∧ vs.foldl minV u = .num j m o false
      ∧ (vs.foldl maxV u).rat = (vs.map Val.rat).foldl max u.rat ∧ (vs.foldl minV u).rat = (vs.map Val.rat).foldl min u.rat
  bounds : ∀ u vs, (.nan ∈ u :: vs → vs.foldl maxV u = .nan ∧ vs.foldl minV u = .nan)
    ∧ (.nan ∉ u :: vs → .inf false ∈ u :: vs → vs.foldl maxV u = .inf false)
    ∧ (.nan ∉ u :: vs → .inf true ∈ u :: vs → vs.foldl minV u = .inf true)
    ∧ ∀ s n e, maxV (.inf true) (.num s n e false) = .num s n e false ∧ maxV (.num s n e false) (.inf true) = .num s n e false
      ∧ minV (.inf false) (.num s n e false) = .num s n e false ∧ minV (.num s n e false) (.inf false) = .num s n e false
  infinite : ∀ f ≤ 4, ∀ i, value f (extreme f i) = .inf i
  finite : ∀ f, 5 ≤ f → f ≤ 0x13 → ∀ p < 2 ^ memWidth f, value f p ≠ .nan →
    (value f (extreme f true)).rat ≤ (value f p).rat ∧ (value f p).rat ≤ (value f (extreme f false)).rat
  scalar : ∀ f ≤ 0x13, ∀ p < 2 ^ memWidth f, redScalar f p = match signedFormats.lookup f with
    | some w => BitVec.ofInt 64 (if p < 2 ^ (w - 1) then (p : Int) else p - 2 ^ w)
    | none => BitVec.ofNat 64 p

end Sys2Proof.Machine

/-- Dispatched on its own with C = 0, a group that fits, accepted formats, a mode other than SR and no mark at an active
element, each VRED writes s[d] and changes nothing else: the initial value (from S under FB) and the active elements
in order are summed with a rounding at each step (.SUMO) or over the fixed tree of pairs with inactive elements
absent (.SUMP), in one rounding for an FD that is not floating; or their greatest, least, bitwise and, or, or
exclusive or is taken. With no term the result is 0, the least or greatest value, all bits of the value width 1, or
0, as it stands. The exact sum of reals is that of the rational numbers they stand for, and the greatest and least
are theirs. The pattern is extended with FD’s sign. Three points are the model’s choice: with VL = 0 an initial
value is rounded and written where R115 alone would give the identity (log 31), TERN and BIN1 are summed exactly, as
the integer formats (log 18), and the identity 0 in BIN1, which has no zero, is pattern 0 (log 102). (06_varith
R150, 06_varith R151, 06_varith R152, 06_varith R143, 06_varith R131) -/
def Obligations.ReductionResults : Prop :=
  ReductionParts ∧ ∀ (s : State) (h : VHdr) (d a f : BitVec 5) (ini : Option (BitVec 5)),
    let x := s.capture (ini.getD 0) f
    let q := x.fmt
    let ss := [x.grp a q.fa]
    let fl := decide (q.fd ≤ 8)
    let es := List.range x.vl
    let pat := fun e => (Opnd.vec a.toNat q.fa).readsIn s.hart x.cfg e
    let first := ini.toList.map fun _ => x.sval.toNat % 2 ^ contWidth q.fb
    let vals := first.map (value q.fb) ++ (es.filter fun e => s.hart.active h.pm e).map fun e => value q.fa (pat e)
    let pats := (first ++ (es.filter fun e => s.hart.active h.pm e).map pat).map (· % 2 ^ memWidth q.fd)
    let rnd := fun v => round q.fd q.rm q.sat 0 v
    let add := fun u v => value q.fd (rnd (u.add (q.rm == 2) v))
    let give := fun (i : Instr) (p : Nat) => Gives s (exec i s) d (redScalar q.fd p)
    h.c = false → Runs s.hart x h.pm [] ss (s.reads h.pm ss) → q.scl = 0 → q.rm ≠ 5 →
    (isValue q.fa = true → isValue q.fd = true → (ini.isSome = true → isValue q.fb = true) →
      give (.vredSumo h d a ini f) (match vals with
        | [] => 0
        | u :: r => rnd (if fl then r.foldl add u else sumV (q.rm == 2) vals))
      ∧ (∀ levels, x.vl ≤ 2 ^ levels → give (.vredSump h d a ini f) (if fl then
          match (first.map (value q.fb)).head?, treeNode add (fun e =>
            if e < x.vl ∧ s.hart.active h.pm e = true then some (value q.fa (pat e)) else none) levels 0 with
          | none, none => 0
          | some u, none | none, some u => rnd u
          | some u, some v => rnd (add u v)
        else match vals with
          | [] => 0
          | _ => rnd (sumV (q.rm == 2) vals)))
      ∧ give (.vredMax h d a ini f) (match vals with
        | [] => extreme q.fd true
        | u :: r => rnd (r.foldl maxV u))
      ∧ give (.vredMin h d a ini f) (match vals with
        | [] => extreme q.fd false
        | u :: r => rnd (r.foldl minV u)))
    ∧ (contWidth q.fa = contWidth q.fd → (ini.isSome = true → contWidth q.fb = contWidth q.fd) →
      give (.vredAnd h d a ini f) (match pats with
        | [] => 2 ^ memWidth q.fd - 1
        | u :: r => rawFix q.fd (r.foldl (· &&& ·) u))
      ∧ give (.vredOr h d a ini f) (rawFix q.fd (pats.foldl (· ||| ·) 0))
      ∧ give (.vredXor h d a ini f) (rawFix q.fd (pats.foldl (· ^^^ ·) 0)))

namespace Sys2Proof.Machine

/-- The formats that VQNT writes, each with its largest finite value M (03_formats R81): E5M2, E4M3, E3M2, E2M3, E2M1, INT8 and INT4. -/
def quantTops : List (Nat × ℚ) := [(4, 57344), (5, 448), (6, 28), (7, 15 / 2), (8, 6), (9, 127), (0x0B, 7)]

end Sys2Proof.Machine

/-- Dispatched on its own, with groups that fit and do not overlap, accepted formats, a scale block in VTYPE and no mark
in what it reads: VQNT does the blocks in order: where a block has an active element, its E8M0 scale is k + 127 and
each active element is its value times 2^-k rounded into FD, k being R81’s exponent of the greatest magnitude: the
smallest with amax·2^-k at most M, the largest value of FD, one more where the two are equal, and kept within -127
and 127 (0 for a block of zeros); with a NaN or an infinity in the block the scale is 0xFF and the active elements
are NaN rounded into FD. VDQNT rounds each active element’s value times 2^(scale - 127), or NaN for scale 0xFF. With
a VL that is no multiple of the block length VQNT’s blocks are those that lie whole below VL, and the elements that
VDQNT finds past them take the scale that follows, both of which are the model’s choice (log 31). (03_formats R80,
03_formats R81, 03_formats R82, 03_formats R371) -/
def Obligations.QuantizationResults : Prop :=
  (∀ p ∈ quantTops, isQuant p.1 = true ∧ (∃ n e, quantMax p.1 = .num false n e false) ∧ (quantMax p.1).rat = p.2
      ∧ ∀ (s : Bool) (n : Nat) (e : ℤ), n ≠ 0 → let a : ℚ := n * 2 ^ e
        ∃ i : ℤ, a * 2 ^ (-i) ≤ p.2 ∧ (∀ j < i, p.2 < a * 2 ^ (-j))
          ∧ quantExp (.num s n e false) (quantMax p.1) = max (-127) (min 127 (if a * 2 ^ (-i) = p.2 then i + 1 else i)))
  ∧ ∀ (s : State) (h : VHdr) (d a y f : BitVec 5),
    let x := s.capture 0 f
    let q := x.fmt
    let k := s.hart
    let bl := 8 <<< (x.cfg.vtype.toNat / 8 % 4)
    let sg : Grp := { base := y.toNat, n := x.vl / bl, w := 8 }
    x.cfg.vtype.toNat / 8 % 4 ≠ 0 →
    (let ds := [x.grp d q.fd, sg]
      let ss := [x.grp a q.fa]
      Runs k x h.pm ds ss (s.reads h.pm ss) → q.scl = 0 → q.fa = 0 → isQuant q.fd = true → overlapAny k x.cfg ds ss = false →
      overlapAny k x.cfg [x.grp d q.fd] [sg] = false →
      let val := fun e => value 0 (k.elem x.cfg a.toNat 32 e)
      exec (.vqnt h d y a f) s = .next ((List.range (x.vl / bl)).foldl (fun u j =>
        let act := ((List.range bl).map (j * bl + ·)).filter fun e => k.active h.pm e
        let bad := act.any fun e => match val e with
          | .num .. => false
          | _ => true
        let big := act.foldl (fun m e => maxV m (val e).abs) (.zero false)
        let n := if big.isZero then 0 else quantExp big (quantMax q.fd)
        if act = [] then u
        else act.foldl (fun u e => u.putRound x.cfg d.toNat q e (if bad then .nan else (val e).scale (-n)))
          (u.modHart fun t => t.setElem x.cfg y.toNat 8 j (if bad then 0xFF else (n + 127).toNat))) s))
    ∧ (let ds := [x.grp d q.fd]
      let ss := [x.grp a q.fa, sg]
      Runs k x h.pm ds ss (s.reads h.pm [x.grp a q.fa]) →
      (∀ e < x.vl, k.active h.pm e = true → k.elemMarked x.cfg y.toNat 8 (e / bl) = false) →
      q.scl = 1 → isQuant q.fa = true → isFunc q.fd = true → overlapAny k x.cfg ds ss = false →
      Rounds s (exec (.vdqnt h d a y f) s) x h.pm d fun e =>
        let sc := k.elem x.cfg y.toNat 8 (e / bl)
        if sc = 0xFF then .nan else (value q.fa (k.elem x.cfg a.toNat (contWidth q.fa) e)).scale ((sc : Int) - 127))

namespace Sys2Proof.Machine

/-- An element that a rearrangement reads by index: zero for an index below 0, or neither below VL nor below VLMAX of the
container (07_rearrange R157). -/
def State.movedElem (s : State) (x : Entry) (a : BitVec 5) (i : Int) : Nat :=
  let w := contWidth x.fmt.fa
  if i < 0 ∨ ((x.vl : Int) ≤ i ∧ (perReg s.hart x.cfg w : Int) ≤ i) then 0 else s.hart.elem x.cfg a.toNat w i.toNat

/-- An element read by index lies in a chunk without a mark, or reads as zero. -/
def State.movable (s : State) (x : Entry) (a : BitVec 5) (i : Int) : Prop :=
  let w := contWidth x.fmt.fa
  0 ≤ i → (i < x.vl ∨ i < perReg s.hart x.cfg w) → s.hart.elemMarked x.cfg a.toNat w i.toNat = false

/-- A rearrangement: selected elements, in order, each to a destination index from a source index. -/
def Moves (s : State) (o : Out) (x : Entry) (d a : BitVec 5) (sel : Nat → Bool) (dst : Nat → Nat) (src : Nat → Int) :
    Prop :=
  (∀ e < x.vl, sel e = true → s.movable x a (src e)) →
  o = .next ((List.range x.vl).foldl (fun u e => if sel e then
    u.modHart fun k => k.setElem x.cfg d.toNat (contWidth x.fmt.fa) (dst e) (s.movedElem x a (src e)) else u) s)

end Sys2Proof.Machine

/-- Dispatched on its own, with containers of one width, groups that fit and do not overlap, and no mark in a chunk
read: VUP copies element e - S to e for active e >= S, VDN element e + S, VGATHR the element that the index names,
VPACK the selected elements to the front in order and VUNPK the front elements to the selected places, each with 0
for an index out of range, though an index below VL past one register’s elements gives the group’s element (log 103,
the model’s reading); VRESH, VRESH.T and VRESH.INV, for a legal shape that fits VL, copy by R163’s index maps, so
that element (i, j) of a row-major matrix goes to its panel index, to that of the transpose, or back; VGTR
transposes blocks of 8 by 8 over eight registers. (07_rearrange R154, 07_rearrange R155, 07_rearrange R157,
07_rearrange R160, 07_rearrange R161, 07_rearrange R162, 07_rearrange R163, 07_rearrange R164) -/
def Obligations.RearrangementResults : Prop :=
  ∀ (s : State) (h : VHdr) (c : Bool) (d a b sr f : BitVec 5) (m : BitVec 3),
    let k := s.hart
    let ok := fun (x : Entry) (pm : Option (BitVec 3)) (ss : List Grp) (read : Nat → List Grp) =>
      Runs k x pm [x.grp d x.fmt.fa] ss read ∧ x.fmt.scl = 0 ∧ contWidth x.fmt.fd = contWidth x.fmt.fa
      ∧ overlapAny k x.cfg [x.grp d x.fmt.fa] ss = false
    let x := s.capture sr f
    let y := s.capture 0 f
    let n := x.sval.toNat
    let below := fun e => (List.range e).countP fun i => k.maskBit m.toNat i
    let idx := fun e => intValue y.fmt.fb (k.elem y.cfg b.toNat (contWidth y.fmt.fb) e)
    (ok x h.pm [x.grp a x.fmt.fa] (fun _ => []) →
      Moves s (exec (.vup h d a sr f) s) x d a (fun e => k.active h.pm e && decide (n ≤ e)) id (fun e => e - n)
      ∧ Moves s (exec (.vdn h d a sr f) s) x d a (k.active h.pm) id (fun e => e + n))
    ∧ (isInt y.fmt.fb = true → ok y h.pm [y.grp a y.fmt.fa, y.grp b y.fmt.fb] (s.reads h.pm [y.grp b y.fmt.fb]) →
      Moves s (exec (.vgathr h d a b f) s) y d a (k.active h.pm) id idx)
    ∧ (ok y (some m) [y.grp a y.fmt.fa] (fun _ => []) →
      Moves s (exec (.vpack c d a m f) s) y d a (k.maskBit m.toNat) below (fun e => e)
      ∧ Moves s (exec (.vunpk c d a m f) s) y d a (k.maskBit m.toNat) id (fun e => below e))
    ∧ (∀ sh, shapeOf x.sval = some sh → sh.rw * sh.cl = x.vl → ok x none [x.grp a x.fmt.fa] (fun _ => []) →
      (sh.cl % sh.p = 0 → Moves s (exec (.vresh c d a sr f) s) x d a (fun _ => true) id (fun e => sh.plainSrc e)
        ∧ Moves s (exec (.vreshInv c d a sr f) s) x d a (fun _ => true) id (fun e => sh.invSrc e))
      ∧ (sh.rw % sh.p = 0 → Moves s (exec (.vreshT c d a sr f) s) x d a (fun _ => true) id (fun e => sh.transSrc e))
      ∧ ∀ i < sh.rw, ∀ j < sh.cl,
          sh.plainSrc (j / sh.p * sh.p * sh.rw + i * sh.p + j % sh.p) = i * sh.cl + j
          ∧ sh.transSrc (i / sh.p * sh.p * sh.cl + j * sh.p + i % sh.p) = i * sh.cl + j
          ∧ sh.invSrc (i * sh.cl + j) = j / sh.p * sh.p * sh.rw + i * sh.p + j % sh.p)
    ∧ (let w := contWidth y.fmt.fa
      let ds := [eightRegs k y d]
      let ss := [eightRegs k y a]
      Runs k y none ds ss (fun _ => []) → y.fmt.scl = 0 → contWidth y.fmt.fd = w → overlapAny k y.cfg ds ss = false →
      y.vl ≤ perReg k y.cfg w →
      (∀ e < y.vl, ∀ r < 8, 8 * (e / 8) + r < y.vl → k.elemMarked y.cfg (a.toNat + e % 8) w (8 * (e / 8) + r) = false) →
      exec (.vgtr c d a f) s = .next ((List.range y.vl).foldl (fun u e => (List.range 8).foldl (fun u r =>
        u.modHart fun t => t.setElem y.cfg (d.toNat + r) w e
          (if 8 * (e / 8) + r < y.vl then k.elem y.cfg (a.toNat + e % 8) w (8 * (e / 8) + r) else 0)) u) s))

namespace Sys2Proof.Machine

/-- What a located element of a load reads (08_memory R180, R181, 03_formats R84). -/
def State.loaded (s : State) (l : Located) : Nat :=
  let p := s.readParts l.ps / 2 ^ l.sh % 2 ^ l.mw
  if l.sf = 0 then p else round 0 0 false 0 (value (sfFormat l.sf) p)

/-- Every part of a located element is sound. -/
def State.soundAt (s : State) (l : Located) : Prop := ∀ p ∈ l.ps, s.Sound p.1

end Sys2Proof.Machine

/-- Dispatched on its own, with a group that fits, a legal index group that it does not overlap, and each active element
passing the checks of R183 and reading sound memory, VLD, VLDS and VLDX write each active element of vD with the
little-endian value at its address (converted from the page’s storage format), and change nothing but that and
cached translations; the .K forms do it for the elements whose bytes the bound mask covers, every byte of an element
lying in the recorded range and having its chunk’s bit set, where no bit read lies in a marked chunk of that mask
(the width by which a strided or indexed form finds the page it converts from is the model’s choice, log 71). VLDFF,
whose first active element passes, loads the active elements before the first that fails a check, and sets exactly
their bits of mD among the bits below VL; where that later element meets an error that no mark records, its own
data’s or its walk’s, the mark stays. (08_memory R178, 08_memory R180, 08_memory R181, 08_memory R183, 08_memory
R184, 12_engines R285, 03_formats R84, 03_formats R85) -/
def Obligations.VectorLoadResults : Prop :=
  ∀ (s : State) (h : VHdr) (d sr b f : BitVec 5) (off : BitVec 16) (c : Bool) (m : BitVec 3) (kf : KForm) (L : Nat → Located),
    let k := s.hart
    let x := s.capture sr f
    let base := x.sval + off.signExtend 64
    let w := contWidth x.fmt.fa
    let ds := [x.grp d x.fmt.fa]
    let fits := fun (fm : AForm) (pm : Option (BitVec 3)) => Runs k x pm ds (fm.grps x) (fun _ => [])
      ∧ x.fmt.scl = 0 ∧ (fm = .unit ∨ 8 ≤ memWidth x.fmt.fa) ∧ (∀ r, fm = .indexed r → isInt x.fmt.fb = true)
      ∧ overlapAny k x.cfg ds (fm.grps x) = false
    let passes := fun (fm : AForm) (ref : Hart → Nat → Bool) e =>
      locate fm .vload base ref x e s = .ok (L e) ∧ s.soundAt (L e)
    let loads := fun (i : Instr) (fm : AForm) (pm : Option (BitVec 3)) (act ref : Hart → Nat → Bool) =>
      fits fm pm → (∀ e < x.vl, act k e = true → passes fm ref e) →
      ∃ t, exec i s = .next t ∧ SameButTlb s t
        ∧ t.hart = (List.range x.vl).foldl (fun u e => if act k e then u.setElem x.cfg d.toNat w e (s.loaded (L e)) else u) k
    let plain := fun (u : Hart) e => u.active h.pm e
    -- what an element of VLDFF that stops the loads leaves: the mark of an error that it met
    let met := fun z => match locate .unit .vload base plain x z s with
      | .error g => s.markWalk s.cc k.ptroot g.1 g.2
      | .ok l => if l.ps.any fun p => s.marked p.1.loc then s else match l.ps.find? fun p => s.hasError p.1.loc with
        | some p => s.mark p.1.loc
        | none => s
    loads (.vld h d sr f off) .unit h.pm plain plain
    ∧ loads (.vlds h d sr b f off) (.strided b) h.pm plain plain
    ∧ loads (.vldx h d sr b f off) (.indexed b) h.pm plain plain
    ∧ (∀ r, k.record m = some r →
        let fm := kForm kf
        let first := fun u e => kActive fm base r m (memWidth x.fmt.fa) x u e
        let mw := match refSf fm .vload base first x s with
          | .ok sf => memWidthOf x sf
          | .error _ => memWidth x.fmt.fa
        ((∀ e < x.vl, kMarked fm base r m mw x k e = false) →
          loads (.vldK c m kf d sr f off) fm none (fun u e => kActive fm base r m mw x u e) first)
        -- the chunk map of a binding record
        ∧ (r.len ≤ 2 ^ 64 → ∀ w e,
          let a := elemAddr fm base x k w e
          let at_ := fun i o => o < r.len ∧ a.1 + BitVec.ofNat 64 i = r.dest + BitVec.ofNat 64 o
          let n := (a.2 + w + 7) / 8
          (kActive fm base r m w x k e = true ↔ ∀ i < n, ∃ o, at_ i o ∧ k.maskBit m.toNat (o / 2 ^ r.csz) = true)
          ∧ (kMarked fm base r m w x k e = true ↔ (∀ i < n, ∃ o, at_ i o)
            ∧ ∃ i < n, ∃ o, at_ i o ∧ k.maskMarked m.toNat (o / 2 ^ r.csz / 64) = true)))
    ∧ (fits .unit h.pm → h.pm ≠ some m → k.isBound m.toNat = false → ∀ z ≤ x.vl,
        (∀ e < z, k.active h.pm e = true → passes .unit plain e) →
        (z = x.vl ∨ (k.active h.pm z = true ∧ (∃ e < z, k.active h.pm e = true)
          ∧ ((∃ g, locate .unit .vload base plain x z s = .error g)
            ∨ ∃ l, locate .unit .vload base plain x z s = .ok l ∧ ∃ p ∈ l.ps, s.marked p.1.loc = true ∨ s.hasError p.1.loc = true))) →
        ∃ t, exec (.vldff h d m sr f off) s = .next t ∧ SameButTlb (if z = x.vl then s else met z) t
          ∧ t.hart = (List.range x.vl).foldl (fun u e =>
              let good := k.active h.pm e && decide (e < z)
              (if good then u.setElem x.cfg d.toNat w e (s.loaded (L e)) else u).setMaskBit m.toNat e good) k)

namespace Sys2Proof.Machine

/-- The state after the first elements of a word, each done in the state that the one before leaves. -/
def afterElems (f : Nat → State → ERes) (s : State) : Nat → State
  | 0 => s
  | n + 1 => match f n (afterElems f s n) with
    | .ok t => t
    | .error _ => afterElems f s n

/-- Where each of `n` elements passes its checks in its turn, a word completes, having done them in order. -/
def RunsElems (s : State) (o : Out) (f : Nat → State → ERes) (n : Nat) : Prop :=
  (∀ e < n, ∃ t, f e (afterElems f s e) = .ok t) → o = .next (afterElems f s n)

end Sys2Proof.Machine

/-- Dispatched on its own, with groups that fit, a scale field of 0, a legal index format and no mark in a chunk of the
predicate, VST, VSTS, VSTX and VSTXO complete where each active element passes its checks in its turn, every element
having been done in order in the state that the one before leaves; inactive elements do nothing. The effect of one
element of each is the subject of the next statement. (08_memory R180, 08_memory R181, 08_memory R182, 08_memory
R183) -/
def Obligations.VectorStoresRunInOrder : Prop :=
  ∀ (s : State) (h : VHdr) (a sr b f : BitVec 5) (off : BitVec 16),
    let k := s.hart
    let x := s.capture sr f
    let base := x.sval + off.signExtend 64
    let act := fun (u : Hart) e => u.active h.pm e
    let stores := fun (i : Instr) (fm : AForm) (anyOrder : Bool) =>
      Runs k x h.pm [] (x.grp a x.fmt.fa :: fm.grps x) (fun _ => []) → x.fmt.scl = 0 →
      (fm = .unit ∨ 8 ≤ memWidth x.fmt.fa) → (∀ r, fm = .indexed r → isInt x.fmt.fb = true) →
      let full := s.fullLines fun _ => goodAccs (storeAccs fm base act a x s) ((List.range x.vl).filter (act k))
      let run : StoreRun := { lo := 0, hi := x.vl, anyOrder := anyOrder, full := full }
      RunsElems s (exec i s) (fun e u => if u.hart.active h.pm e then storeElem fm run base act a x e u else .ok u) x.vl
    stores (.vst h a sr f off) .unit false
    ∧ stores (.vsts h a sr b f off) (.strided b) false
    ∧ stores (.vstx h a sr b f off) (.indexed b) true
    ∧ stores (.vstxo h a sr b f off) (.indexed b) false

namespace Sys2Proof.Machine

/-- A byte of memory after write accesses, from what it was. -/
def memAfter (as : List Acc) (pa : Nat) (b : Byte) : Byte :=
  as.foldl (fun b a => match a.loc with
    | .mem q => if q ≤ pa ∧ pa < q + a.bytes.length then
        mixByte b (a.bytes.getD (pa - q) (0, 0)).1 (a.bytes.getD (pa - q) (0, 0)).2 else b
    | _ => b) b

/-- A byte of a core's lane memory after write accesses, from what it was. -/
def laneAfter (as : List Acc) (c p : Nat) (b : Byte) : Byte :=
  as.foldl (fun b a => match a.loc with
    | .lm c' q => if c' = c ∧ q ≤ p ∧ p < q + a.bytes.length then
        mixByte b (a.bytes.getD (p - q) (0, 0)).1 (a.bytes.getD (p - q) (0, 0)).2 else b
    | _ => b) b

/-- An access covers byte `n` of one that starts at a place. -/
def Acc.covers (o : Acc) (l : Loc) (n : Nat) : Prop :=
  match l, o.loc with
  | .mem q, .mem r => r ≤ q + n ∧ q + n < r + o.bytes.length
  | .lm c q, .lm d r => d = c ∧ r ≤ q + n ∧ q + n < r + o.bytes.length
  | _, _ => False

/-- What remains of the accesses of an element of VSTX beside those of other elements: a byte that none of those covers
is written as it is, and one that some of them cover is written as it is or not at all. -/
def Remains (others : Acc → Prop) (as bs : List Acc) : Prop :=
  bs.length = as.length ∧ ∀ p ∈ as.zip bs, p.2.loc = p.1.loc ∧ p.2.bytes.length = p.1.bytes.length
    ∧ ∀ n < p.1.bytes.length, p.2.bytes[n]? = p.1.bytes[n]?
      ∨ (∃ o, others o ∧ o.covers p.1.loc n) ∧ p.2.bytes[n]? = p.1.bytes[n]?.map fun b => (b.1, 0)

/-- No memory line and no lane-memory word has an error that no mark records. -/
def State.NoErrors (s : State) : Prop := s.latent = [] ∧ ∀ c, (s.coreAt c).lmLatent = []

end Sys2Proof.Machine

/-- With no snapshot under way and no unrecorded error, an element of VST, VSTS, VSTX or VSTXO that is located and whose
chunk has no mark is stored. It is located at the base plus its bit offset under the memory width (VLD, VST), plus
its number times s[b] as it was when the word dispatched (strided), or plus its signed index (indexed), its width
that of FA or of the storage format of its FP32 page, in the memory that the translation of each of its parts names
or in the hart’s own lane memory. The store: D is set in the leaves of its pages, the memory width’s bits of its
pattern, little-endian from its start bit on, replace those bits at its address, and every other bit of memory and
of lane memory is as before; no register but SEED changes. On a converting page the pattern is the FP32 value
rounded by the page’s SRM and the descriptor’s SAT into its storage format, and SEED moves by one step under SR
alone; of an element across two pages the SRM is the lower one’s (log 69, the model’s choice). An element of VSTX
does the same, but that of each byte that an earlier active element of the same run of the word covers as well
either value remains. An element of a register chunk that a unit-stride store without conversion stores as one
access, for all of its elements stand in the run, are active and pass their checks and it begins at an 8-aligned
address, is stored with it: the first element stores its eight bytes, the others nothing of their own. An 8-byte
chunk of VSTW does the same with its 64 bits. A marked chunk of any of these stores is cause 0x19 with the element’s
address, which is the model’s reading of STVAL (log 30); that a run of VSTX begins again where the word was stopped
is the model’s order (log 12). In a line with an error that no mark records, which the instruction does not cover
whole, no byte changes, and the line is marked where the element’s access touches it. (08_memory R171, 08_memory
R174, 08_memory R180, 08_memory R181, 08_memory R182, 08_memory R185, 09_order R201, 09_order R207, 03_formats R84,
00_scope R2) -/
def Obligations.StoredElementBytes : Prop :=
  ∀ (s : State) (fm : AForm) (base : Word) (act : Hart → Nat → Bool) (a : BitVec 5) (x : Entry) (run : StoreRun) (e : Nat)
      (l : Located) (w : WReg) (ps : List (Part × Nat)), s.NoSnapshot →
    (∀ kind z, locate fm kind base act x e s = .ok z →
      let at_ : Word × Nat := match fm with
        | .unit => (base + BitVec.ofNat 64 (e * z.mw / 8), e * z.mw % 8)
        | .strided b => (base + BitVec.ofNat 64 e * x.bval.getD (s.rd b), 0)
        | .indexed b => (base + BitVec.ofInt 64 (intValue x.fmt.fb (s.hart.elem x.cfg b.toNat (contWidth x.fmt.fb) e)), 0)
      (z.a, z.sh) = at_ ∧ z.ps.map (fun p => (p.1.va, p.2)) = partsOf z.a ((z.sh + z.mw + 7) / 8)
      ∧ (x.fmt.fa ≠ 0 → z.sf = 0) ∧ (x.fmt.fa = 0 → ∀ p ∈ z.ps, p.1.sf = z.sf)
      ∧ z.mw = (if z.sf = 0 then memWidth x.fmt.fa else [32, 16, 16, 8, 8].getD z.sf 32)
      ∧ ∀ p ∈ z.ps, (∃ b, spaceOf p.1.va = some (.own b) ∧ p.1.loc = .lm s.cc b ∧ p.1.tr = none ∧ s.hart.inGrant (b / 256) = true)
          ∨ ∃ t, spaceOf p.1.va = some .translated ∧ s.walkStage s.cc s.hart kind p.1.va.toNat = .ok t ∧ p.1.tr = some t.2
            ∧ p.1.loc = s.hart.placeOf t.2.pa ∧ s.permFails s.hart kind ((z.sh + z.mw + 7) / 8) t.1 t.2 = false)
    ∧ (locate fm .vput base act x e s = .ok l → s.hart.elemMarked x.cfg a.toNat (contWidth x.fmt.fa) e = false → run.full = [] →
      let u := (s.touchAll l.ps).setDirty (l.ps.map Prod.fst)
      ∃ t, storeElem fm run base act a x e s = .ok t ∧ ∀ m ∈ u.latent, (∀ pa, lineOf pa = m → t.byte pa = u.byte pa)
        ∧ ((∃ o ∈ elemAccs fm run base act a x s e l (storePat x s.hart a e l).1, ∃ q, o.loc = .mem q ∧ lineOf q = m) → m ∈ t.marks))
    ∧ (s.NoErrors →
    let wrote := fun (o : ERes) (ps : List (Part × Nat)) (as : List Acc) (seed : Word) => ∃ t, o = .ok t
      ∧ (∀ pa, t.byte pa = memAfter as pa ((s.setDirty (ps.map Prod.fst)).byte pa))
      ∧ (∀ c p, (t.coreAt c).lmByte p = laneAfter as c p ((s.coreAt c).lmByte p))
      ∧ t.hart = s.hart.modVec fun v => { v with seed := seed }
    (locate fm .vput base act x e s = .ok l →
      (s.hart.elemMarked x.cfg a.toNat (contWidth x.fmt.fa) e = false →
        let r := storePat x s.hart a e l
        let own := maskedAccs l.ps (r.1 * 2 ^ l.sh) ((2 ^ l.mw - 1) * 2 ^ l.sh)
        let c := contWidth x.fmt.fa
        let n := perChunk c
        let stored := storeElem fm run base act a x e s
        (∀ e0, fullChunk fm run base act a x s e l = some e0 ↔
            fm = .unit ∧ l.mw = c ∧ l.sf = 0 ∧ c ≠ 6 ∧ e0 = e / n * n ∧ run.lo ≤ e0 ∧ e0 + n ≤ run.hi
            ∧ (elemAddr fm base x s.hart c e0).1.toNat % 8 = 0
            ∧ ∀ i < n, act s.hart (e0 + i) = true ∧ (storeAccs fm base act a x s (e0 + i)).isSome = true)
        ∧ (l.sf = 0 → r = (s.hart.elem x.cfg a.toNat c e % 2 ^ l.mw, s.hart.vec.seed))
        ∧ (∀ tr, l.sf ≠ 0 → l.sf ≤ 4 → (l.ps.head?.bind fun p => p.1.tr) = some tr →
            let seed := s.hart.vec.seed.toNat
            let next := seedStep seed
            r.1 = round ([0, 3, 2, 5, 4].getD l.sf 0) ([0, 1, 5].getD tr.srm 4) x.fmt.sat (if tr.srm = 2 then next / 2 ^ 40 else 0)
                (value 0 (s.hart.elem x.cfg a.toNat c e))
              ∧ r.2.toNat = if tr.srm = 2 then next else seed)
        ∧ (∀ e0, fullChunk fm run base act a x s e l = some e0 →
            wrote stored l.ps (if e = e0 then l.ps.map fun p => Acc.ofNat p.1.loc 8 (s.hart.chunk x.cfg a.toNat (e / n)).toNat else []) r.2)
        ∧ (fullChunk fm run base act a x s e l = none → run.anyOrder = false → wrote stored l.ps own r.2)
        ∧ (fullChunk fm run base act a x s e l = none → run.anyOrder = true → ∃ bs, wrote stored l.ps bs r.2
            ∧ Remains (fun o => ∃ i os, run.lo ≤ i ∧ i < e ∧ act s.hart i = true ∧ storeAccs fm base act a x s i = some os ∧ o ∈ os)
                own bs))
      ∧ (s.hart.elemMarked x.cfg a.toNat (contWidth x.fmt.fa) e = true → storeElem fm run base act a x e s = .error (0x19, l.a, s)))
    ∧ (let va := base + BitVec.ofNat 64 (8 * e)
      va.toNat % 8 = 0 → s.parts .vput va 8 = .ok ps → (w.marked s.hart x.cfg e = false) →
      wrote (vstwChunk w base x run.full e s) ps (maskedAccs ps (w.get s.hart x.cfg e).toNat (2 ^ 64 - 1)) s.hart.vec.seed))

/-- Dispatched on its own with C = 0 and VS not OFF, at an address that is a multiple of 8, VLDW of a register below
NREG, or of a mask that is not bound, writes every chunk with the eight bytes at base + 8i and with the mark that
their granule carries, where each address passes its checks and no unrecorded error is met; nothing but the register
and cached translations changes. VSTW completes where each chunk passes its checks in its turn, the chunks being
stored in order. (08_memory R185, 08_memory R186, 08_memory R187) -/
def Obligations.WholeRegisterTransfers : Prop :=
  ∀ (s : State) (r sr : BitVec 5) (m : BitVec 3) (off : BitVec 16) (P : Nat → List (Part × Nat)),
    let k := s.hart
    let x := s.capture sr 0
    let base := x.sval + off.signExtend 64
    let at_ := fun i => base + BitVec.ofNat 64 (8 * i)
    k.vec.vs ≠ 0 → k.legal → x.ill = false → base.toNat % 8 = 0 →
    let loads := fun (i : Instr) (w : WReg) =>
      (∀ n < w.count k x.cfg, s.parts .vload (at_ n) 8 = .ok (P n) ∧ ∀ p ∈ P n, s.hasError p.1.loc = false) →
      ∃ t, exec i s = .next t ∧ SameButTlb s t
        ∧ t.hart = (List.range (w.count k x.cfg)).foldl (fun u n => w.set u x.cfg n (BitVec.ofNat 64 (s.readParts (P n)))
            ((P n).any fun p => s.marked p.1.loc)) k
    let stores := fun (i : Instr) (w : WReg) =>
      let full := s.fullLines fun _ => goodAccs (vstwAccs base s) (List.range (w.count k x.cfg))
      RunsElems s (exec i s) (vstwChunk w base x full) (w.count k x.cfg)
    (r.toNat < x.cfg.nreg.toNat → loads (.vldw false r sr off) (.reg r) ∧ stores (.vstw false r sr off) (.reg r))
    ∧ (k.isBound m.toNat = false → loads (.vldwM false m sr off) (.mask m))
    ∧ stores (.vstwM false m sr off) (.mask m)

/-- Dispatched on its own, with groups that fit and do not overlap the destination, an accepted format and mode, VAMO
completes where each active element passes its checks in its turn, the elements being done in order. An aligned
element whose chunks carry no mark and whose place is sound puts the old 32 bits into vD and stores: ADD the rounded
sum, SWAP the operand, AND and OR the bitwise result, MAX and MIN the greater or lesser value, CAS the operand where
the old bits equal those of vC, else nothing. (09_order R215, 09_order R216, 09_order R217) -/
def Obligations.VectorAtomicsRunInOrder : Prop :=
  ∀ (s : State) (h : VHdr) (d a b y sr f : BitVec 5) (off : BitVec 16),
    let k := s.hart
    let x := s.capture sr f
    let q := x.fmt
    let base := x.sval + off.signExtend 64
    let g := fun (r : BitVec 5) => ({ base := r.toNat, n := x.vl, w := 32 } : Grp)
    let val := value q.fa
    let rnd := fun sat v => round q.fa q.rm sat 0 v
    let does := fun (i : Instr) (ex : Option (BitVec 5)) (float : Bool) (op : Nat → Nat → Nat → Option Nat) =>
      let ss := g a :: x.grp b q.fb :: ex.toList.map g
      Runs k x h.pm [g d] ss (fun _ => []) → q.scl = 0 → q.rm ≠ 5 → isInt q.fb = true →
      (q.fa = 0x12 ∨ q.fa = 0x13 ∨ (q.fa = 0 ∧ float = true)) → overlapAny k x.cfg [g d] ss = false →
      let fn := vamoElem (fun _ => op) base d a b ex x
      RunsElems s (exec i s) (fun e u => if u.hart.active h.pm e then fn e u else .ok u) x.vl
        ∧ ∀ e u ps, u.hart.elemMarked x.cfg a.toNat 32 e = false → (AForm.indexed b).marked x u.hart e = false →
            (∀ r ∈ ex, u.hart.elemMarked x.cfg r.toNat 32 e = false) →
            let va := base + BitVec.ofInt 64 (intValue q.fb (u.hart.elem x.cfg b.toNat (contWidth q.fb) e))
            va.toNat % 4 = 0 → u.parts .vamo va 4 = .ok ps → (∀ p ∈ ps, u.Sound p.1) →
            let old := u.readParts ps
            let new := op old (u.hart.elem x.cfg a.toNat 32 e) ((ex.map fun r => u.hart.elem x.cfg r.toNat 32 e).getD 0)
            let v := match new with
              | some n => u.putParts x.cfg.cstep ps n (2 ^ 32 - 1)
              | none => u.touchAll ps
            fn e u = .ok (v.modHart fun t => t.setElem x.cfg d.toNat 32 e old)
    does (.vamoAdd h d a b sr f off) none true
        (fun u v _ => some (rnd (if q.fa = 0 then false else q.sat) ((val u).add (q.rm == 2) (val v))))
    ∧ does (.vamoSwap h d a b sr f off) none true (fun _ v _ => some v)
    ∧ does (.vamoAnd h d a b sr f off) none false (fun u v _ => some (u &&& v))
    ∧ does (.vamoOr h d a b sr f off) none false (fun u v _ => some (u ||| v))
    ∧ does (.vamoMax h d a b sr f off) none true (fun u v _ => some (round q.fa 0 false 0 (maxV (val u) (val v))))
    ∧ does (.vamoMin h d a b sr f off) none true (fun u v _ => some (round q.fa 0 false 0 (minV (val u) (val v))))
    ∧ does (.vamoCas h d a b y sr f off) (some y) true (fun u v w => if u = w then some v else none)

/-- Dispatched on its own, with groups that fit, an index format, a destination mask that is neither bound nor the
predicate, for VSTP no mark in a chunk of an element that does not fail, and no unrecorded error in lane memory: an
element’s address is good where it has the form of window 0xF0, is aligned to the element and names a core up to 127
of the tenancy that runs a hart of the launch and a row that a hart of the launch has or had there by its grant
(that one which has exited counts is log 24, the model’s reading). VLDP loads each active element with a good
address to an unmarked word, from that core’s lane memory, and sets its bit, and clears the bit of every other
element below VL; VSTP sets the bits of the active elements with such an address, marked or not, and clears the
others, and every lane-memory byte that exactly one of them covers takes that element’s byte, every byte that none
covers stays. No byte of memory changes. (09_order R218, 09_order R219, 09_order R220) -/
def Obligations.PeerAccesses : Prop :=
  ∀ (s : State) (h : VHdr) (d sr b f : BitVec 5) (m : BitVec 3) (off : BitVec 16), s.NoErrors →
    let k := s.hart
    let x := s.capture sr f
    let w := contWidth x.fmt.fa
    let n := memWidth x.fmt.fa / 8
    let ix := x.grp b x.fmt.fb
    let reg := x.grp d x.fmt.fa
    let va := fun e => x.sval + off.signExtend 64 + BitVec.ofInt 64 (intValue x.fmt.fb (k.elem x.cfg b.toNat (contWidth x.fmt.fb) e))
    let place := fun e => peerPlace s (va e) n
    let legal := fun ds ss read => Runs k x none ds ss (fun e => s.reads h.pm (read e) e) ∧ x.fmt.scl = 0 ∧ 8 ≤ memWidth x.fmt.fa
      ∧ isInt x.fmt.fb = true ∧ h.pm ≠ some m ∧ k.isBound m.toNat = false ∧ overlapAny k x.cfg ds ss = false
    (∀ v p q, peerPlace s v n = some (p, q) ↔
      v.toNat / 2 ^ 32 = 0xF0000000 ∧ v.toNat / 2 ^ 21 % 8 = 0 ∧ q = v.toNat % 2 ^ 21 ∧ v.toNat % n = 0 ∧ v.toNat / 2 ^ 24 % 256 ≤ 127
      ∧ s.physCore k.place.ten.toNat (v.toNat / 2 ^ 24 % 256) = some p
      ∧ (∃ u ∈ (s.coreAt p).harts, u.2.place.placed = true ∧ u.2.place.launch = k.place.launch)
      ∧ ∃ u ∈ (s.coreAt p).harts, u.2.place.launch = k.place.launch ∧ u.2.lmbase.toNat ≤ q / 256 ∧ q / 256 < u.2.lmbase.toNat + u.2.lmsize.toNat)
    ∧ (legal [reg] [ix] (fun _ => []) →
      let good := fun e => k.active h.pm e && (place e).any fun p => !s.marked (.lm p.1 p.2)
      ∃ t, exec (.vldp h d m sr b f off) s = .next t ∧ SameElse s t
        ∧ t.hart = (List.range x.vl).foldl (fun u e =>
            (match place e with
              | some p => if good e then u.setElem x.cfg d.toNat w e (s.readLoc (.lm p.1 p.2) n) else u
              | none => u).setMaskBit m.toNat e (good e)) k)
    ∧ (legal [] [reg, ix] (fun e => if (place e).isSome then [reg] else []) →
      let good := fun e => k.active h.pm e && (place e).isSome
      let covers := fun e c q => e < x.vl ∧ k.active h.pm e = true ∧ ∃ p, place e = some p ∧ p.1 = c ∧ p.2 ≤ q ∧ q < p.2 + n
      ∃ t, exec (.vstp h d m sr b f off) s = .next t ∧ (∀ pa, t.byte pa = s.byte pa)
        ∧ t.hart = (List.range x.vl).foldl (fun u e => u.setMaskBit m.toNat e (good e)) k
        ∧ (∀ c q, (∀ e, ¬ covers e c q) → (t.coreAt c).lmByte q = (s.coreAt c).lmByte q)
        ∧ ∀ c q e p, covers e c q → (∀ i, covers i c q → i = e) → place e = some p →
            (t.coreAt c).lmByte q = BitVec.ofNat 8 (k.elem x.cfg d.toNat w e / 256 ^ (q - p.2)))

namespace Sys2Proof.Machine

/-- What a plural word needs to act: VS is not OFF, VTYPE and the descriptor are not reserved, the mode is not SR, the
format is a plural one unless the word is .W, and the first-stage checks of 08_memory R198 pass. -/
structure PluralReady (k : Hart) (x : Entry) (p : Plur) (b : Option Word) : Prop where
  on    : k.vec.vs ≠ 0
  typed : x.ill = false
  descr : descrReserved x.fval = false ∧ x.fmt.scl = 0 ∧ x.fmt.rm ≠ 5
  fmt   : p.wide = true ∨ isPlural x.fmt.fa = true
  check : p.check k b = none

/-- The lane-memory words of a plural operation, bank by bank and row by row: `f` gives the new element from the old one
and the operand, which is a scalar or, in the .B form, the operand row’s element. -/
def Plur.lane (p : Plur) (f : Nat → Nat → Nat) (scal : Nat) (m : Nat → Word) : Nat → Word :=
  (p.places 0 p.n).foldl (fun m ij =>
    let at_ := bankWord (p.first + ij.1) ij.2
    let o := match p.orow with
      | some r => p.elem (m (bankWord (r + ij.1) ij.2))
      | none => scal
    fun i => if i = at_ then p.put (m i) (f (p.elem (m i)) o) else m i) m

end Sys2Proof.Machine

/-- Dispatched on its own with C = 0, where the first-stage checks pass and no word read carries a mark or an error: PST
writes the scalar’s low bits into the element at every row of the run and every bank of the set; POP replaces each
element by its sum, difference, lesser, greater, and, or, exclusive or with the scalar or with the operand row’s
element, or by that operand; PLD writes s[d] with the sum, greatest, least, and, or, exclusive or or count of the
elements, or with the identity and PE set where there is none. No other lane-memory word, no byte of memory and no
other register changes. (08_memory R192, 08_memory R193, 08_memory R194, 08_memory R195, 08_memory R196, 08_memory
R197, 08_memory R198) -/
def Obligations.PluralResults : Prop :=
  ∀ (s : State) (a b y d f : BitVec 5) (rn : Option (BitVec 5)) (row w : Bool), s.NoErrors →
    let k := s.hart
    let x := s.capture (rn.getD 0) f
    let q := x.fmt
    let lane := s.core.lmWord
    let val := value q.fa
    let cut := fun (i : Int) => if q.sat then max (-2 ^ 63) (min (2 ^ 63 - 1) i) else i
    let wide := fun (i : Int) => (BitVec.ofInt 64 (cut i)).toNat
    let clean := fun (p : Plur) => ∀ ij ∈ p.places 0 p.n, ∀ i ∈ p.reads ij.1 ij.2, smem s.core.lmMarks i = false
    let acts := fun (i : Instr) (m : Nat → Word) => ∃ t, exec i s = .next t ∧ t.hart = k
      ∧ (∀ n, t.core.lmWord n = m n) ∧ (∀ pa, t.byte pa = s.byte pa) ∧ (∀ c, c ≠ s.cc → t.coreAt c = s.coreAt c)
      ∧ ∀ h, t.hartAt s.cc h = s.hartAt s.cc h
    let pop := fun (i : Instr) (op : Nat → Nat → Nat) =>
      let o := if row then some (s.rd b) else none
      let p := plurOf x s a y rn w o
      PluralReady k x p o → clean p → acts i (p.lane op ((s.rd b).toNat % 2 ^ p.w) lane)
    let arith := fun (i : Instr) (g : Val → Val → Val) (h : Int → Int → Int) => pop i fun u v =>
      if w then wide (h (sintOf 64 u) (sintOf 64 v)) else round q.fa q.rm q.sat 0 (g (val u) (val v))
    let p := plurOf x s a y rn w none
    let vals := (p.places 0 p.n).map fun ij => p.elem (lane (bankWord (p.first + ij.1) ij.2))
    let ints := vals.map (sintOf 64)
    let pld := fun (i : Instr) (usesFd : Bool) (v : Word) =>
      PluralReady k x p none → (usesFd = true → w = true ∨ isPlural q.fd = true) → clean p →
      ∃ t, exec i s = .next t ∧ SameElse s t ∧ (∀ r, t.rd r = if r = 0 then 0 else if r = d then v else s.rd r)
        ∧ t.hart = { k with sregs := t.hart.sregs, vec := { k.vec with pe := k.vec.pe || vals.isEmpty } }
    let ext := fun n => if w then BitVec.ofNat 64 n else redScalar q.fa n
    let rnd := fun v => redScalar q.fd (round q.fd q.rm q.sat 0 v)
    (PluralReady k x p none → acts (.pst false a b y f rn w) (p.lane (fun _ v => v) ((s.rd b).toNat % 2 ^ p.w) lane))
    ∧ arith (.popAdd false a b y f rn row w) (fun u v => u.add (q.rm == 2) v) (· + ·)
    ∧ arith (.popSub false a b y f rn row w) (fun u v => u.add (q.rm == 2) v.negate) (· - ·)
    ∧ arith (.popMin false a b y f rn row w) minV min
    ∧ arith (.popMax false a b y f rn row w) maxV max
    ∧ pop (.popAnd false a b y f rn row w) (· &&& ·)
    ∧ pop (.popOr false a b y f rn row w) (· ||| ·)
    ∧ pop (.popXor false a b y f rn row w) (· ^^^ ·)
    ∧ pop (.popMov false a b y f rn row w) (fun _ v => v)
    ∧ pld (.pldSum false d a y f rn w) true (if vals = [] then 0 else if w then BitVec.ofInt 64 (cut ints.sum)
        else rnd (sumV (q.rm == 2) (vals.map val)))
    ∧ pld (.pldMax false d a y f rn w) true (match vals with
      | [] => if w then BitVec.ofInt 64 (-2 ^ 63) else redScalar q.fd (extreme q.fd true)
      | u :: r => if w then BitVec.ofInt 64 ((r.map (sintOf 64)).foldl max (sintOf 64 u)) else rnd ((r.map val).foldl maxV (val u)))
    ∧ pld (.pldMin false d a y f rn w) true (match vals with
      | [] => if w then BitVec.ofInt 64 (2 ^ 63 - 1) else redScalar q.fd (extreme q.fd false)
      | u :: r => if w then BitVec.ofInt 64 ((r.map (sintOf 64)).foldl min (sintOf 64 u)) else rnd ((r.map val).foldl minV (val u)))
    ∧ pld (.pldAnd false d a y f rn w) false (ext (vals.foldl (· &&& ·) (2 ^ p.w - 1)))
    ∧ pld (.pldOr false d a y f rn w) false (ext (vals.foldl (· ||| ·) 0))
    ∧ pld (.pldXor false d a y f rn w) false (ext (vals.foldl (· ^^^ ·) 0))
    ∧ pld (.pldCnt false d a y f rn w) false
        (BitVec.ofNat 64 (vals.countP fun v => if w then v != 0 else !(val v).isZero))

namespace Sys2Proof.Machine

/-- A hart whose vector queue runs and begins with a single-word convoy, which waits. -/
structure WaitsAt (k : Hart) (x : Entry) (r : List Entry) (i : Instr) : Prop where
  head  : k.q.vq = x :: r
  instr : instrOf x.word = some i
  last  : x.word.getLsbD 55 = false
  runs  : k.queuesRun [x] = true
  begun : k.q.flight = some [0]
  quiet : k.q.landed = [] ∧ k.q.begun = none

/-- A word begun on its own waits: it stands at the head of the vector queue with what it waits for. -/
def Stalls (s : State) (o : Out) (w : VStall) : Prop :=
  ∃ t x, o = .next t ∧ t.hart.q.vq = x :: s.hart.q.vq ∧ t.hart.q.stall = w ∧ t.hart.sregs = s.hart.sregs
    ∧ t.hart.store = s.hart.store ∧ ∀ a, t.byte a = s.byte a

/-- A waiting word is done: it has left the queue, and nothing waits. -/
def Leaves (r : List Entry) (t : State) : Prop := t.hart.q.vq = r ∧ t.hart.q.flight = none ∧ t.hart.q.stall = .none

/-- The elements of VWAIT that are met: the word at the address equals the value (05_harts R124). -/
def State.meets (s : State) (x : Entry) (d a : BitVec 5) (P : Nat → List (Part × Nat)) (e : Nat) : Prop :=
  let va := s.hart.chunk x.cfg d.toNat e
  s.hart.chunkMarked x.cfg d.toNat e = false ∧ s.hart.chunkMarked x.cfg a.toNat e = false ∧ va.toNat % 8 = 0
    ∧ s.parts .vload va 8 = .ok (P e) ∧ ∀ p ∈ P e, s.Sound p.1

end Sys2Proof.Machine

/-- Dispatched on its own with its checks passed: VWAIT, whose active elements read sound words, completes where each
equals its value or the timeout is 0, having set exactly the bits of the active elements that do not, and waits
otherwise; asleep, a wake and a poll read the unmet ones again and the timeout ends it with no read. RRECV takes at
once where its rows are there or its timeout is 0, and waits otherwise; its take and its timeout end it with the
number of rows taken in s[a] where one row of lane memory holds what it reads, and else begin the take, which goes
on row by row as dispatches do (log 7). FWAIT of a frame that the hart owns writes s[d] with the number of MISSING
contributions and settles the frame where it has closed, and waits otherwise; CWPW completes where the write pointer
has reached S. Their releases end them, and do nothing before. (05_harts R124, 05_harts R125, 11_route R254,
11_route R258, 12_engines R286) -/
def Obligations.WaitingWordsRunAndEnd : Prop :=
  ∀ (s : State) (h : VHdr) (m : BitVec 3) (d a y sr : BitVec 5) (fr n : BitVec 2) (P : Nat → List (Part × Nat)),
    let k := s.hart
    let x := s.capture sr 0
    let g := fun (r : BitVec 5) => ({ base := r.toNat, n := x.vl, w := 64 } : Grp)
    let act := (List.range x.vl).filter (k.active h.pm)
    let ok := fun e => BitVec.ofNat 64 (s.readParts (P e)) = k.chunk x.cfg a.toNat e
    let mask := fun (vl : Nat) (un : Nat → Bool) (t : State) =>
      ∀ e < min vl (2 ^ 20), t.hart.maskBit m.toNat e = (k.active h.pm e && un e)
    -- VWAIT begun
    (Runs k x h.pm [] [g d, g a] (fun _ => []) → h.c = false → k.isBound m.toNat = false → metSoFar s = [] →
      (∀ e ∈ act, s.meets x d a P e) →
      ((x.sval = 0 ∨ ∀ e ∈ act, ok e) → ∃ t, exec (.vwait h m d a sr) s = .next t ∧ SameButTlb s t
          ∧ mask x.vl (fun e => decide (¬ ok e)) t ∧ t.hart.sregs = k.sregs ∧ t.hart.store.chunks = k.store.chunks)
      ∧ (x.sval ≠ 0 → (∃ e ∈ act, ¬ ok e) →
          Stalls s (exec (.vwait h m d a sr) s) (.vwait (act.filter fun e => decide (ok e)))))
    -- VWAIT asleep
    ∧ (∀ z r met, WaitsAt k z r (.vwait h m d a sr) → k.q.stall = .vwait met → maskMark (mVwait h m d a z s) k 0 z.vl = none →
        let un := fun e => !met.contains e
        let ok := fun e => BitVec.ofNat 64 (s.readParts (P e)) = k.chunk z.cfg a.toNat e
        let act := (List.range z.vl).filter (k.active h.pm)
        (∀ e ∈ act, un e = true → s.meets z d a P e) →
        (∃ t, exec .vwaitTimeout s = .next t ∧ Leaves r t ∧ mask z.vl un t)
        ∧ ∀ i ∈ [Instr.vwaitWake, Instr.vwaitPoll],
          ((∀ e ∈ act, un e = true → ok e) → ∃ t, exec i s = .next t ∧ Leaves r t ∧ mask z.vl (fun _ => false) t)
          ∧ (z.sval ≠ 0 → (∃ e ∈ act, un e = true ∧ ¬ ok e) → ∃ t, exec i s = .next t ∧ t.hart.q.vq = z :: r
              ∧ t.hart.q.stall = .vwait (met ++ act.filter fun e => un e && decide (ok e))))
    -- RRECV
    ∧ (let i := k.inbox
      let w := i.w.toNat
      let took := fun (z : Entry) (t : State) =>
        let c := min i.count.toNat (rrecvWant z k)
        t.rd a = (if a = 0 then 0 else BitVec.ofNat 64 c) ∧ t.hart.inbox.count.toNat = i.count.toNat - c
          ∧ (∀ j < c, t.hart.chunk z.cfg y.toNat (2 * j) = BitVec.ofNat 64 (s.core.lmRead (i.slot ((i.head.toNat + j) % i.cap.toNat)) 8)
            ∧ ∀ e < w, t.hart.elem z.cfg d.toNat 32 (j * w + e)
                = s.core.lmRead (i.slot ((i.head.toNat + j) % i.cap.toNat) + 16 + 4 * e) 4)
      let sound := fun (z : Entry) => ∀ j < min i.count.toNat (rrecvWant z k),
        laneScan s.core (i.slot ((i.head.toNat + j) % i.cap.toNat)) (16 + 4 * w) = none
      let ds := fun (z : Entry) => [({ base := d.toNat, n := z.vl, w := 32 } : Grp)]
      let hs := fun (z : Entry) => [({ base := y.toNat, n := 2 * rrecvWant z k, w := 64 } : Grp)]
      let apart := fun z => Runs k z none (ds z ++ hs z) [] (fun _ => []) ∧ overlapAny k z.cfg (ds z) (hs z) = false
      (apart x → sound x → (rrecvWant x k ≤ i.count.toNat ∨ x.sval = 0) →
        ∃ t, exec (.rrecv false d y a sr) s = .next t ∧ took x t ∧ ∀ p, t.byte p = s.byte p)
      ∧ (apart x → i.count.toNat < rrecvWant x k → x.sval ≠ 0 → Stalls s (exec (.rrecv false d y a sr) s) .rrecv)
      ∧ (∀ z r, WaitsAt k z r (.rrecv false d y a sr) → k.q.stall = .rrecv → apart z → sound z →
          (∀ e ∈ [Instr.rrecvTake, .rrecvTimeout], (e = .rrecvTake → rrecvWant z k ≤ i.count.toNat) →
            let ps := rrecvPieces k (min i.count.toNat (rrecvWant z k))
            (ps.length ≤ 1 → ∃ t, exec e s = .next t ∧ Leaves r t ∧ took z t)
            ∧ (1 < ps.length → ∃ t, exec e s = .next t ∧ t.hart.q.vq = z :: r ∧ t.hart.q.stall = .none ∧ t.hart.q.flight = some [1]
              ∧ t.hart.q.begun.isSome = true ∧ t.hart.inbox = i ∧ t.hart.store = k.store ∧ t.hart.sregs = k.sregs))
          ∧ (i.count.toNat < rrecvWant z k → exec .rrecvTake s = .next s)))
    -- FWAIT
    ∧ (let f := s.core.frame fr
      let counts := fun (t : State) => (∀ r, t.rd r = if r = 0 then 0 else if r = d then BitVec.ofNat 64 f.missing else s.rd r)
        ∧ t.core.frame fr = { f with st := 3 } ∧ ∀ p, t.byte p = s.byte p
      (k.vec.vs ≠ 0 → x.ill = false → f.owner.toNat = s.ch →
        (f.st = 2 ∨ f.st = 3 → ∃ t, exec (.fwait false d fr) s = .next t ∧ counts t)
        ∧ (f.st = 1 → Stalls s (exec (.fwait false d fr) s) .fwait))
      ∧ (∀ z r, WaitsAt k z r (.fwait false d fr) → k.q.stall = .fwait →
          (f.st = 2 ∨ f.st = 3 → ∃ t, exec .fwaitRelease s = .next t ∧ Leaves r t ∧ counts t)
          ∧ (f.st = 1 → ∃ t, exec .fwaitRelease s = .next t ∧ t.hart.q.vq = z :: r ∧ t.hart.q.stall = .fwait)))
    -- CWPW
    ∧ (let p := (s.core.chan n).cwp.toNat
      (k.vec.vs ≠ 0 → x.ill = false →
        (x.sval.toNat ≤ p → ∃ t, exec (.cwpw false n sr) s = .next t ∧ SameElse s t
          ∧ t.hart = k.modQ fun q => { q with stall := .none })
        ∧ (p < x.sval.toNat → Stalls s (exec (.cwpw false n sr) s) .cwpw))
      ∧ (∀ z r, WaitsAt k z r (.cwpw false n sr) → k.q.stall = .cwpw →
          (z.sval.toNat ≤ p → ∃ t, exec .cwpwRelease s = .next t ∧ Leaves r t)
          ∧ (p < z.sval.toNat → ∃ t, exec .cwpwRelease s = .next t ∧ t.hart.q.vq = z :: r ∧ t.hart.q.stall = .cwpw)))

namespace Sys2Proof.Machine

/-- The first stage of CTRI (R231): what a term of three exact values is. -/
structure StageOne : Prop where
  nan  : ∀ a b g : Val, (a = .nan ∨ b = .nan ∨ g = .nan) → stage1 a b g = .nan
  inf  : ∀ a b g : Val, a ≠ .nan → b ≠ .nan → g ≠ .nan → (∃ v ∈ [a, b, g], ∃ i, v = .inf i) →
    stage1 a b g = if ∃ v ∈ [a, b, g], v.isZero then .nan else .inf ((a.neg != b.neg) != g.neg)
  real : ∀ (s t u : Bool) (n m l : Nat) (e f h : ℤ), ∃ (n' : Nat) (e' : ℤ),
    let neg := (s != t) != u
    let p : ℚ := (n * 2 ^ e) * (m * 2 ^ f) * (l * 2 ^ h)
    let q : ℤ := Int.log 2 p - 26
    stage1 (.num s n e false) (.num t m f false) (.num u l h false) = .num neg n' e' false
      ∧ ((n' : ℚ) * 2 ^ e' = if p = 0 then 0 else (wholeSpacings 0 0 neg (p / 2 ^ q) : ℚ) * 2 ^ q)

/-- The second stage of CTRI (R232): what a panel's terms with the accumulator give. -/
structure StageTwo (all : List Val) (p : Nat) : Prop where
  nan  : (.nan ∈ all ∨ (.inf true ∈ all ∧ .inf false ∈ all)) → p = 0x7FC00000
  inf  : ∀ i, Val.nan ∉ all → .inf i ∈ all → .inf (!i) ∉ all → p = if i then 0xFF800000 else 0x7F800000
  zero : (∀ v ∈ all, v.isZero = true) → p = if ∀ v ∈ all, v.neg = true then 0x80000000 else 0
  sum  : (∀ v ∈ all, ∃ s n e, v = .num s n e false) → ∀ top : ℤ, (∀ v ∈ all, |v.rat| < 2 ^ (top + 1)) →
    (∃ v ∈ all, 2 ^ top ≤ |v.rat|) →
      let u : ℚ := 2 ^ (top - 40)
      let sum := (all.map fun v => (if v.neg then -1 else 1) * (⌊|v.rat| / u⌋ : ℚ) * u).sum
      (sum = 0 → p = 0)
      ∧ (sum ≠ 0 → ∃ s n e, (Val.num s n e false).rat = sum ∧ p = round 0 0 false 0 (.num s n e false))

/-- What a comb word needs besides its own checks: VS is not OFF, the hart is legal, VTYPE is not reserved, and its
groups fit. -/
structure CombReady (k : Hart) (x : Entry) (gs : List Grp) : Prop where
  on    : k.vec.vs ≠ 0
  legal : k.legal
  typed : x.ill = false
  fits  : ∀ g ∈ gs, g.bad05 k x.cfg = false ∧ g.bad06 k x.cfg = false

/-- A comb word writes elements of one tile and nothing else. -/
def Tiles (s : State) (o : Out) (d : BitVec 3) (v : Nat → Nat → Option (BitVec 32)) : Prop :=
  ∃ t, o = .next t ∧ SameButTlb s t
    ∧ (∀ n i j, i < 32 → j < 32 → t.hart.tileAt n i j = if n = d.toNat then (v i j).getD (s.hart.tileAt n i j) else s.hart.tileAt n i j)
    ∧ t.hart = { s.hart with
        store := { s.hart.store with tiles := t.hart.store.tiles }
        vec := { s.hart.vec with dirtyT := t.hart.vec.dirtyT, vs := t.hart.vec.vs } }

end Sys2Proof.Machine

/-- Issued on its own with its checks passed and no mark or error in what it reads: CTRI replaces each element (i, j), i
< M and j < N, of its tile by the accumulation of R230 over all panels, each with the operand elements at the
indices of R228, the terms of R231 scaled by the E8M0 elements of their blocks, and the sum of R232; and no other
tile element; CZERO makes every element of its tile +0; CSHP sets CSHAPE; CGET and CGETC write the rounded elements
of a tile window into their vector positions; CPUT copies patterns into the window; TSAVE stores the tile’s 1,024
patterns row by row, little-endian, setting D, and TLOAD loads them. A word that names a tile beyond the hart’s
share, of CTRI (with no field set that must be 0), CZERO, CGET, CGETC, CPUT, TSAVE and TLOAD, is cause 0x06 at its
dispatch and has no effect. (10_comb R222, 10_comb R223, 10_comb R227, 10_comb R228, 10_comb R229, 10_comb R230,
10_comb R231, 10_comb R232, 10_comb R233, 10_comb R234, 10_comb R235) -/
def Obligations.CombResults : Prop :=
  ∀ (s : State) (d : BitVec 3) (v a b y sa sb sr f i0 nr j0 nc : BitVec 5) (off : BitVec 16) (ps : List Part),
    let k := s.hart
    let x := s.capture 0 f
    let z := s.capture sr f
    let u := s.capture sr 0
    let q := x.fmt
    let c := cshapeOf k.vec.cshape
    let own := d.toNat < 8 / k.place.h.toNat
    let blen := 8 * 2 ^ (x.cfg.vtype.extractLsb' 3 2).toNat
    let third := fun (c : CShape) => match c.mode with
      | 0 => 0
      | 1 => c.m * c.k
      | 2 => c.k * c.n
      | 3 => c.q * c.n
      | _ => c.k
    let gs : List Grp := [{ base := a.toNat, n := c.m * c.k, w := contWidth q.fa }, { base := b.toNat, n := c.k / c.q * c.n, w := contWidth q.fb }]
      ++ (if c.mode = 0 then [] else [{ base := y.toNat, n := third c, w := contWidth q.fc }])
      ++ (if q.scl % 2 = 1 then [{ base := sa.toNat, n := c.k / blen * c.m, w := 8 }] else [])
      ++ (if q.scl / 2 = 1 then [{ base := sb.toNat, n := c.k / blen * c.n, w := 8 }] else [])
    let clear := fun (g : Grp) => ∀ e < g.n, k.elemMarked x.cfg g.base g.w e = false
    let win := twinOf i0 nr j0 nc z
    let ea := u.sval + off.signExtend 64
    (own → CombReady k x gs → cshapeLegal k.vec.cshape = true → descrReserved x.fval = false →
      (c.mode = 0 → y = 0) → (q.scl % 2 = 0 → sa = 0) → (q.scl / 2 = 0 → sb = 0) →
      q.fa ≤ 0x0F → q.fb ≤ 0x0F → (c.mode ≠ 0 → q.fc ≤ 0x0F) → q.fd = 0 → q.rm ≠ 5 →
      (q.scl ≠ 0 → c.mode ≠ 3 ∧ x.cfg.vtype.extractLsb' 3 2 ≠ 0) → (∀ g ∈ gs, clear g) →
      let els := fun (base : BitVec 5) (n w : Nat) => (List.range n).map fun e => k.elem x.cfg base.toNat w e
      let va := fun n => ((els a (c.m * c.k) (contWidth q.fa)).map (value q.fa)).getD n .nan
      let vb := fun n => ((els b (c.k / c.q * c.n) (contWidth q.fb)).map (value q.fb)).getD n .nan
      let vx := fun n => ((els y (third c) (contWidth q.fc)).map (value q.fc)).getD n .nan
      let aidx := fun i l => l / 64 * 64 * c.m + i * 64 + l % 64
      let bidx := fun l j => l / 64 * 64 * c.n + j * 64 + l % 64
      let per := 64 / c.q
      let scaled := fun (t : Val) (code : Nat) => if code = 0xFF then .nan else match t with
        | .num s n e z => .num s n (e + ((code : ℤ) - 127)) z
        | v => v
      let term := fun i j l =>
        let r := l / c.q
        let t := stage1 (va (aidx i l)) (if c.mode = 3 then vb (r / per * per * c.n + j * per + r % per) else vb (bidx l j))
          (match c.mode with
            | 0 => .num false 1 0 false
            | 1 => vx (aidx i l)
            | 2 => vx (bidx l j)
            | 3 => vx (j * c.q + l % c.q)
            | _ => vx l)
        let t := if q.scl % 2 = 1 then scaled t ((els sa (c.k / blen * c.m) 8).getD (l / blen * c.m + i) 0xFF) else t
        if q.scl / 2 = 1 then scaled t ((els sb (c.k / blen * c.n) 8).getD (l / blen * c.n + j) 0xFF) else t
      Tiles s (exec (.ctri d a b y f sa sb) s) d fun i j =>
        if i < c.m ∧ j < c.n then some
          ((List.range c.kp).foldl (fun v p => BitVec.ofNat 32 (stage2 ((List.range 64).map fun l => term i j (64 * p + l)) (value 0 v.toNat)))
            (k.tileAt d.toNat i j)) else none)
    ∧ StageOne ∧ (∀ terms acc, StageTwo (acc :: terms) (stage2 terms acc))
    ∧ (own → k.vec.vs ≠ 0 → x.ill = false → Tiles s (exec (.czero d) s) d fun _ _ => some 0)
    ∧ (¬ own → k.vec.vs ≠ 0 → k.q.landed = [] →
        let foreign := fun (i : Instr) => ∃ t, exec i s = .next t ∧ SameElse s t ∧ t.hart.trap.scause = (2 : BitVec 2) ++ (0x06 : BitVec 8)
          ∧ t.hart.trap.stval = k.pc ∧ t.hart.store = k.store ∧ t.hart.vec.cshape = k.vec.cshape
        (∀ i ∈ [.czero d, .cget v d sr f i0 nr j0 nc, .cgetc v d sr f i0 nr j0 nc, .cput d v sr f i0 nr j0 nc, .tsave d sr off, .tload d sr off],
          foreign i)
        ∧ ((c.mode = 0 → y = 0) → (q.scl % 2 = 0 → sa = 0) → (q.scl / 2 = 0 → sb = 0) → foreign (.ctri d a b y f sa sb)))
    ∧ (k.vec.vs ≠ 0 → u.ill = false → cshapeLegal u.sval = true → ∃ t, exec (.cshp sr) s = .next t ∧ SameElse s t
        ∧ t.hart = k.modVec fun w => { w with cshape := u.sval })
    ∧ (own → descrReserved z.fval = false → z.fmt.rm ≠ 5 → z.fmt.scl = 0 → isValue z.fmt.fd = true →
        let w := contWidth z.fmt.fd
        let get := fun (i : Instr) (tr : Bool) =>
          CombReady k z [{ base := v.toNat, n := win.count tr, w := w }] → win.bad05 tr z = false →
          ∃ t, exec i s = .next t ∧ SameElse s t
            ∧ t.hart = win.cells.foldl (fun h p => h.setElem z.cfg v.toNat w (win.index tr p.1 p.2)
                (round z.fmt.fd z.fmt.rm z.fmt.sat 0 (value 0 (k.tileAt d.toNat p.1 p.2).toNat))) k
        get (.cget v d sr f i0 nr j0 nc) false ∧ get (.cgetc v d sr f i0 nr j0 nc) true)
    ∧ (own → descrReserved z.fval = false → z.fmt.rm ≠ 5 → z.fmt.scl = 0 → z.fmt.fa = 0 →
        CombReady k z [{ base := v.toNat, n := win.count false, w := 32 }] → win.bad05 false z = false →
        (∀ e < win.count false, k.elemMarked z.cfg v.toNat 32 e = false) →
        Tiles s (exec (.cput d v sr f i0 nr j0 nc) s) d fun i j =>
          if win.i0 ≤ i ∧ i < win.i0 + win.nr ∧ win.j0 ≤ j ∧ j < win.j0 + win.nc then
            some (BitVec.ofNat 32 (k.elem z.cfg v.toNat 32 (win.co + (i - win.i0) * win.rs + (j - win.j0)))) else none)
    ∧ (own → k.vec.vs ≠ 0 → u.ill = false → ea.toNat % 4096 = 0 → s.NoErrors →
        let pairs := (List.range 512).map fun i => (ea + BitVec.ofNat 64 (8 * i), 8)
        (s.checkParts s.cc k .vload 8 pairs = .ok ps → (∀ p ∈ ps, s.Sound p) →
          Tiles s (exec (.tload d sr off) s) d fun i j => (ps[(32 * i + j) / 2]?).map fun p =>
            BitVec.ofNat 32 (s.readLoc p.loc 8 / 2 ^ (32 * (j % 2))))
        ∧ (s.NoSnapshot → s.checkParts s.cc k .vput 8 pairs = .ok ps →
          let pat := fun n => (k.tileAt d.toNat (n / 32) (n % 32)).toNat
          let as := ps.zipIdx.map fun p => Acc.ofNat p.1.loc 8 (pat (2 * p.2) + 2 ^ 32 * pat (2 * p.2 + 1))
          ∃ t, exec (.tsave d sr off) s = .next t ∧ t.hart = k
            ∧ (∀ pa, t.byte pa = memAfter as pa ((s.setDirty ps).byte pa))
            ∧ ∀ c p, (t.coreAt c).lmByte p = laneAfter as c p ((s.coreAt c).lmByte p)))

/-- Where a hart’s queues may run and nothing before it in the other queue holds it back, the comb word at the head that
passes its checks is run and leaves the queue, and a convoy, of one word or of several, that passes its checks and
is done leaves the vector queue, in the state its run leaves, with the hart granted what the word uses before the
run, and after it what it takes once it no longer waits; while VS is OFF, the words stand from before a trap, or a
machine check waits and no instruction that has begun comes before it, nothing changes; that they wait for a machine
check is the model’s choice (log 49). A word that takes a grant for each command, row or line (an ENQ, a plural run,
an RRECV or FREAD, a TSAVE or TLOAD) does with each the work of one, from where the one before it ended, the
dispatch checks coming before the first alone, as the model reads R127 (log 7). A word that fails a check traps with
that cause, VTPC its address; ES0-ES5 are 0 at a trap of the comb word, but where a VLD.C waits, which keeps the
first element of its chunk (R299, which R316 lets go before its table; log 88, the model’s reading). A convoy ends
at its first word with C = 0 or VOP 0; one whose last word is not there waits. Stopped at a boundary it stays with
the progress of its words; at an element fault that progress goes to ES0-ES5 and the element to VTELEM. Words that
meet no fault act as if run one after another (R51), also where one breaks the convoy (R190) or two find their
elements of a register at different places (log 110, the model’s reading): words before one that faults are then
done; else, of words of one length without loads, those before the one that faults at e have run to the end of e’s
group, it to e, those after it to the start of that group, and nothing past that is written. The first word with
which the words so far break R52 to R54, R79, R156 or R182 is cause 0x03 with its address. VSTOP and VNOP change no
state. (02_stream R41, 02_stream R42, 02_stream R50, 02_stream R51, 02_stream R52, 02_stream R55, 02_stream R57,
10_comb R236, 14_system R330, 14_system R316, 13_collective R299, 05_harts R127) -/
def Obligations.QueuesRunTheirHeads : Prop :=
  ∀ (s : State) (x : Entry) (r : List Entry) (c : Bool) (n : BitVec 32), s.Quiet →
    let k := s.hart
    let m := x.meaning s
    let combDone := fun (t : State) => ∃ u, exec .combWordIssue s = .next u ∧ u.hart.q.cq = t.hart.q.cq.drop 1 ∧ u.hart.q.comb = none
      ∧ u.hart.store = t.hart.store ∧ u.hart.vec = t.hart.vec ∧ u.hart.sregs = t.hart.sregs ∧ ∀ a, u.byte a = t.byte a
    (k.q.cq = x :: r → k.q.comb = none → k.queuesRun [x] = true → s.combFree (x, m) = true →
      (dispatchCheck k [(x, m)] = none → m.span 0 = none → ∀ t, m.run (s.grant (s.combUses m)) 0 m.len = .ok t → combDone t)
      ∧ (dispatchCheck k [(x, m)] = none → ∀ hi t, m.span 0 = some hi → m.run (s.grant (s.combUses m)) 0 hi = .ok t →
        exec .combWordIssue s = .next t)
      ∧ (k.q.flight = none → k.q.stall = .none → k.q.landed = [] → ∀ code tval e, dispatchCheck k [(x, m)] = some (code, tval, e) →
        ∃ u, exec .combWordIssue s = .next u ∧ u.hart.trap.scause = (2 : BitVec 2) ++ code ∧ u.hart.trap.stval = tval
          ∧ u.hart.vec.vtpc = x.addr &&& ~~~7 ∧ u.hart.vec.vp = true ∧ u.hart.trap.sepc = k.pc ∧ u.hart.store = k.store
          ∧ (∀ j : Fin 6, u.hart.vec.es[j] = 0) ∧ ∀ a, u.byte a = s.byte a)
      ∧ (k.q.landed = [] → ∀ id j es code tval e, k.q.stall = .vldC id j → k.q.flight = some es → dispatchCheck k [(x, m)] = some (code, tval, e) →
        ∃ u, exec .combWordIssue s = .next u ∧ u.hart.trap.scause = (2 : BitVec 2) ++ code ∧ u.hart.vec.vtpc = x.addr &&& ~~~7
          ∧ u.hart.vec.vp = true ∧ ∀ i : Fin 6, u.hart.vec.es[i] = BitVec.ofNat 32 (es.getD i 0)))
    ∧ (∀ b, k.q.cq = x :: r → k.q.comb = some b → k.place.placed = true → k.halted = false →
      (∀ hi t, m.span b.line = some hi → m.run (s.grant (s.combUses m)) b.line hi = .ok t → exec .combWordIssue s = .next t)
      ∧ (m.span b.line = none → ∀ t, m.run (s.grant (s.combUses m)) b.line m.len = .ok t → combDone t))
    ∧ ((k.q.cq = [] ∨ ∃ y l, k.q.cq = y :: l ∧ k.queuesRun [y] = false) → k.q.comb = none → exec .combWordIssue s = .next s)
    ∧ (k.q.vq = x :: r → x.word.getLsbD 55 = false → k.queuesRun [x] = true → k.q.stall = .none → k.q.flight = none →
      k.q.landed = [] → k.q.comb = none → s.convoyFree [(x, m)] = true →
      (dispatchCheck k [(x, m)] = none → k.q.begun = none → maskMark m k 0 m.len = none → ∀ hi, m.span 0 = some hi →
        exec (.convoyDispatch n) s
          = .next (((m.run (s.grant m.uses) 0 hi).state.modHart fun h => h.modQ fun q => { q with flight := some [hi] }).grant m.takes))
      ∧ (dispatchCheck k [(x, m)] = none → k.q.begun = none → m.span 0 = none → ∀ t, runConvoy (s.grant m.uses) [(x, m)] [] n.toNat = .done t →
        t.hart.q = k.q →
        ∃ u, exec (.convoyDispatch n) s = .next u ∧ u.hart.q.vq = r ∧ u.hart.q.flight = none ∧ u.hart.store = t.hart.store
          ∧ u.hart.vec = t.hart.vec ∧ u.hart.sregs = t.hart.sregs ∧ ∀ a, u.byte a = t.byte a)
      ∧ (∀ code tval e, dispatchCheck k [(x, m)] = some (code, tval, e) →
        ∃ u, exec (.convoyDispatch n) s = .next u ∧ u.hart.trap.scause = (1 : BitVec 2) ++ code ∧ u.hart.trap.stval = tval
          ∧ u.hart.vec.vtpc = x.addr &&& ~~~7 ∧ u.hart.vec.vp = true ∧ u.hart.trap.sepc = k.pc ∧ u.hart.store = k.store
          ∧ ∀ a, u.byte a = s.byte a))
    ∧ (k.q.vq = x :: r → x.word.getLsbD 55 = false → k.queuesRun [x] = true → k.q.stall = .none → k.q.begun.isSome = true →
      s.convoyFree [(x, m)] = true → ∀ lo, k.q.flight = some [lo] →
      (∀ hi, m.span lo = some hi → exec (.convoyDispatch n) s
        = .next ((m.run (s.grant m.uses) lo hi).state.modHart fun h => h.modQ fun q => { q with flight := some [hi] }))
      ∧ (m.span lo = none → ∀ t, runConvoy (s.grant m.uses) [(x, m)] [lo] n.toNat = .done t → t.hart.q = k.q → k.q.landed = [] →
        ∃ u, exec (.convoyDispatch n) s = .next u ∧ u.hart.q.vq = r ∧ u.hart.q.flight = none ∧ u.hart.q.begun = none
          ∧ u.hart.store = t.hart.store ∧ u.hart.vec = t.hart.vec ∧ u.hart.sregs = t.hart.sregs ∧ ∀ a, u.byte a = t.byte a))
    ∧ ((k.q.vq = [] ∨ (∃ y l, k.q.vq = y :: l ∧ y.word.getLsbD 55 = false ∧ k.queuesRun [y] = false)) →
        exec (.convoyDispatch n) s = .next s)
    ∧ ((∀ z ∈ k.q.vq, z.word.getLsbD 55 = true ∧ z.word >>> 56 ≠ 0) → exec (.convoyDispatch n) s = .next s)
    -- a convoy of several words
    ∧ (∀ (xs : List Entry) (y : Entry), k.q.vq = xs ++ y :: r → (∀ z ∈ xs, z.word.getLsbD 55 = true ∧ z.word >>> 56 ≠ 0) →
      (y.word.getLsbD 55 = false ∨ y.word >>> 56 = 0) →
      let all := xs ++ [y]
      let ws := all.map fun z => (z, z.meaning s)
      let v := s.grant (ws.flatMap fun w => w.2.uses)
      let trapped := fun (u : State) (code : BitVec 8) (tval : Word) => u.hart.trap.scause = (1 : BitVec 2) ++ code ∧ u.hart.trap.stval = tval
        ∧ u.hart.vec.vtpc = ((all.map Entry.addr).headD 0) &&& ~~~7 ∧ u.hart.vec.vp = true ∧ u.hart.trap.sepc = k.pc
      (k.queuesRun all = false → exec (.convoyDispatch n) s = .next s)
      ∧ (k.queuesRun all = true → k.q.stall = .none → k.q.flight = none → k.q.landed = [] → k.q.begun = none → k.q.comb = none →
        s.convoyFree ws = true →
        (∀ code tval e, dispatchCheck k ws = some (code, tval, e) → ∃ u, exec (.convoyDispatch n) s = .next u ∧ trapped u code tval
          ∧ (∀ j : Fin 6, u.hart.vec.es[j] = 0) ∧ u.hart.store = k.store ∧ ∀ a, u.byte a = s.byte a)
        ∧ (dispatchCheck k ws = none → (∀ w ∈ ws, w.2.span 0 = none) →
          (∀ t, runConvoy v ws [] n.toNat = .done t → t.hart.q = k.q →
            ∃ u, exec (.convoyDispatch n) s = .next u ∧ u.hart.q.vq = r ∧ u.hart.q.flight = none ∧ u.hart.store = t.hart.store
              ∧ u.hart.vec = t.hart.vec ∧ u.hart.sregs = t.hart.sregs ∧ ∀ a, u.byte a = t.byte a)
          ∧ (∀ es t, runConvoy v ws [] n.toNat = .stopped es t → t.hart.q = k.q →
            ∃ u, exec (.convoyDispatch n) s = .next u ∧ u.hart.q.flight = some es ∧ u.hart.q.vq.map Entry.word = k.q.vq.map Entry.word
              ∧ u.hart.store = t.hart.store ∧ u.hart.sregs = t.hart.sregs ∧ ∀ a, u.byte a = t.byte a)
          ∧ (∀ es e code tval t, runConvoy v ws [] n.toNat = .fault es e code tval t → t.hart.q = k.q → t.hart.pc = k.pc →
            ∃ u, exec (.convoyDispatch n) s = .next u ∧ trapped u code tval ∧ (∀ j : Fin 6, u.hart.vec.es[j] = BitVec.ofNat 32 (es.getD j 0))
              ∧ (∀ i, e = some i → u.hart.vec.vtelem = BitVec.ofNat 32 i) ∧ u.hart.store = t.hart.store ∧ ∀ a, u.byte a = t.byte a))))
    -- which words may form a convoy
    ∧ (let legal := fun (ws : List CWord) =>
        let slots := ws.flatMap fun w => w.2.slots
        ws.length ≤ 6 ∧ slots.count .p + slots.count .p1 ≤ 2 ∧ slots.count .p1 ≤ 1 ∧ slots.count .k ≤ 1 ∧ slots.count .x ≤ 1
        ∧ slots.count .l ≤ 1 ∧ slots.count .s ≤ 1 ∧ (∀ w ∈ ws, w.2.alone = true → w.2.c = false ∧ ws.length = 1)
        ∧ ws.Pairwise (fun a b => writersMeet k a b = false
          ∧ (b.2.moves = true ∨ a.2.ring = true ∨ b.2.ring = true → readsFrom k a b = false)
          ∧ (a.2.moves = true → readsFrom k b a = false) ∧ (Slot.s ∈ a.2.slots → Slot.l ∉ b.2.slots))
        ∧ ((∃ w ∈ ws, w.2.ring = true) → Slot.l ∉ slots ∧ Slot.s ∉ slots) ∧ ws.countP (fun w => w.2.steps) ≤ 1
      ∀ ws : List CWord, (∀ w ∈ ws, w.2.bad02 = false) → (legal ws → find03 k [] ws = none)
        ∧ ∀ a w b, ws = a ++ w :: b → legal a → ¬ legal (a ++ [w]) → dispatchCheck k ws = some (0x03, w.1.addr, none))
    -- words run one after another
    ∧ (∀ (ws : List CWord) (u : Nat → State), (∀ w ∈ ws, 0 < w.2.unit ∧ 0 < w.2.chunk ∧ w.2.len ≤ 2 ^ 32) → u 0 = s →
      (∀ i (w : CWord), ws[i]? = some w → w.2.go (u i) 0 w.2.len = .ok (u (i + 1))) → runConvoy s ws [] (2 ^ 32) = .done (u ws.length))
    ∧ (∀ (p q : CWord) es e code tval t u,
      (p.2.broken = true ∨ q.2.broken = true ∨ crosses k p q = true ∨ crosses k q p = true) →
      (∀ w ∈ [p, q], 0 < w.2.unit ∧ 0 < w.2.chunk ∧ w.2.len ≤ 2 ^ 32) → runConvoy s [p] [] (2 ^ 32) = .done t → t.hart.lanes = s.hart.lanes →
      runConvoy t [q] [] (2 ^ 32) = .fault es e code tval u → runConvoy s [p, q] [] (2 ^ 32) = .fault (p.2.len :: es) e code tval u)
    -- an element fault of word d at element e
    ∧ (∀ (ws : List CWord) (u : Nat → State) (d e vl : Nat) code tval,
      (∀ w ∈ ws, w.2.unit = 1 ∧ 0 < w.2.chunk ∧ w.2.len = vl ∧ w.2.whole = false ∧ w.2.es0 = false ∧ w.2.broken = false
        ∧ w.2.pack = none ∧ Slot.l ∉ w.2.slots ∧ ∀ b ∈ ws, crosses k w b = false) →
      vl ≤ 2 ^ 32 → e < vl → d < ws.length → u 0 = s →
      let epg := convoyEpg k (ws.map Prod.snd)
      let g := epg * (e / epg)
      let upTo := fun i => if i < d then min vl (g + epg) else if i = d then e else g
      (∀ i (w : CWord), ws[i]? = some w → i ≠ d → w.2.go (u i) 0 (if i < d then vl else g) = .ok (u (i + 1))) →
      (∀ w : CWord, ws[d]? = some w → w.2.go (u d) 0 vl = .fault e code tval (u (d + 1))) →
      runConvoy s ws [] (2 ^ 32) = .fault ((List.range ws.length).map upTo) (some e) code tval
        (ws.zipIdx.foldl (fun v w => (w.1.2.go v 0 (if w.2 = d then e + 1 else upTo w.2)).state) s))
    ∧ exec .vstop s = .next s ∧ exec (.vnop c) s = .next s

/-- For a placed hart that is not halted, with no convoy under way and no instruction begun that completes first: the
machine check at the front is taken first, then a trap that the vector queue owes since a machine check came before
it (R314), then a single step with the stepped address in STVAL, then a pre-emption, which PEND with program level
or SIE raises and which clears PEND; each as cause of source 3 with SEPC the PC, the level system and the PC at
STVEC; with none due nothing changes. The number of a tile in STVAL is the one by which the hart names it, as the
model reads R334 (log 95), and for the other units the queues are empty as the check is taken. For a halted hart
nothing changes, a machine check that waits included, and for one whose instruction has begun, both of which are the
model’s choice (log 49); nor for one whose word of several grants has begun (R316). Where a tile’s check is taken
while the convoy in flight is to end in a trap of its own, that trap is owed, and ES0-ES5 are 0 (log 47, the model’s
reading). MACHINE_CHECK makes its trap due; a tile’s elements hold 0x7FC00000, and where a VLD.C waits as that
machine check is taken ES0-ES5 keep the first element of its chunk (log 88, the model’s reading); and the queues’
contents, or all vector state with them, are lost. A promotion raises the hart’s level at a resource that it waits
for by one, up to 3, and does nothing at another. (14_system R311, 14_system R313, 14_system R314, 14_system R331,
14_system R332, 14_system R334, 05_harts R126, 13_collective R299) -/
def Obligations.AsynchronousTraps : Prop :=
  ∀ (s : State) (r : Resource) (u : MCUnit),
    let k := s.hart
    let taken := fun (code : BitVec 8) (tval : Word) => ∃ t, exec .trapTake s = .next t ∧ SameElse s t
      ∧ t.hart.trap.scause = (3 : BitVec 2) ++ code ∧ t.hart.trap.stval = tval ∧ t.hart.trap.sepc = k.pc
      ∧ t.hart.pc = k.trap.stvec &&& ~~~3 ∧ t.hart.trap.system = true ∧ t.hart.trap.sie = false
      ∧ t.hart.trap.spp = k.trap.system ∧ t.hart.trap.spie = k.trap.sie ∧ t.hart.sregs = k.sregs
      ∧ t.hart.trap.stepped = none
      ∧ t.hart.trap.pend = (if code = 0x20 then false else k.trap.pend)
      ∧ t.hart.trap.checks = if code = 0x30 then k.trap.checks.drop 1 else k.trap.checks
    let owed := fun (o : Owed) (vtpc : Word) => ∃ t, exec .trapTake s = .next t ∧ SameElse s t ∧ t.hart.trap.scause = (1 : BitVec 2) ++ o.code
      ∧ t.hart.trap.stval = o.tval ∧ t.hart.trap.sepc = k.pc ∧ t.hart.vec.vp = true ∧ t.hart.vec.vtpc = vtpc &&& ~~~7 ∧ t.hart.q.owed = none
      ∧ (∀ i : Fin 6, t.hart.vec.es[i] = BitVec.ofNat 32 (o.es.getD i 0)) ∧ (∀ e, o.e = some e → t.hart.vec.vtelem = BitVec.ofNat 32 e)
    (k.place.placed = true → k.halted = false → k.wait ≠ .begun → k.q.flight = none → k.q.stall = .none → k.q.landed = [] → k.q.comb = none →
      (∀ v l, k.trap.checks = v :: l → taken 0x30 (match v with
          | .tile t => 1 + 256 * t.setWidth 64
          | .queues => 2
          | .core => 3)
        ∧ ((∀ n, v ≠ .tile n) → ∃ t, exec .trapTake s = .next t ∧ t.hart.q.vq = [] ∧ t.hart.q.cq = []))
      ∧ (∀ o, k.trap.checks = [] → k.q.owed = some o → o.pre = false → k.vec.vs ≠ 0 →
          owed o (match o.last with
            | none => ((k.q.vq.head?).map Entry.addr).getD 0
            | some a => s.nextVector a))
      ∧ (∀ a, k.trap.checks = [] → k.owing = false → k.trap.stepped = some a → taken 0x21 a)
      ∧ (k.trap.checks = [] → k.owing = false → k.trap.stepped = none → k.trap.pend = true → (k.trap.system = false ∨ k.trap.sie = true) →
          taken 0x20 0)
      ∧ (k.due = false → exec .trapTake s = .next s))
    ∧ (k.place.placed = true → k.halted = false → k.wait ≠ .begun → k.busy = false → k.q.stall = .none → ∀ n l xs es fs e code tval t,
        k.trap.checks = .tile n :: l → k.q.flight = some es → headRun k.q.vq = some xs → xs.any Entry.pre = false →
        runConvoy s (xs.map (Entry.cword s)) es (2 ^ 32) = .fault fs e code tval t → t.hart.q = k.q →
        ∃ u, exec .trapTake s = .next u ∧ u.hart.trap.scause = (3 : BitVec 2) ++ (0x30 : BitVec 8) ∧ (∀ i : Fin 6, u.hart.vec.es[i] = 0)
          ∧ u.hart.q.owed = some { es := fs, e := e, code := code, tval := tval, last := none, pre := true })
    ∧ (k.place.placed = true → k.halted = false → k.wait ≠ .begun → k.q.landed = [] → k.q.comb = none → ∀ id j es n l, k.q.stall = .vldC id j → k.q.flight = some es →
        k.trap.checks = .tile n :: l → ∃ t, exec .trapTake s = .next t ∧ t.hart.trap.scause = (3 : BitVec 2) ++ (0x30 : BitVec 8)
          ∧ ∀ i : Fin 6, t.hart.vec.es[i] = BitVec.ofNat 32 (es.getD i 0))
    ∧ (k.place.placed = false ∨ k.halted = true ∨ k.wait = .begun ∨ k.busy = true → exec .trapTake s = .next s)
    ∧ (k.place.placed = true → ∃ t, exec (.machineCheck u) s = .next t ∧ SameElse s t
        ∧ t.hart.trap = { k.trap with checks := k.trap.checks ++ [u] } ∧ t.hart.pc = k.pc ∧ t.hart.sregs = k.sregs
        ∧ match u with
          | .tile n => t.hart.q = k.q ∧ ∀ m i j, i < 32 → j < 32 →
              t.hart.tileAt m i j = if m = n.toNat then 0x7FC00000 else k.tileAt m i j
          | .queues | .core => t.hart.q.vq = [] ∧ t.hart.q.cq = [] ∧ t.hart.q.flight = none ∧ t.hart.q.stall = .none)
    ∧ (s.awaited.contains r = false → exec (.arbitrationPromotion r) s = .next s)
    ∧ (s.awaited.contains r = true → ∃ t, exec (.arbitrationPromotion r) s = .next t ∧ SameElse s t
        ∧ t.hart.place.level r = (if k.place.level r = 3 then 3 else k.place.level r + 1)
        ∧ (∀ q, q ≠ r → t.hart.place.level q = k.place.level q)
        ∧ t.hart = { k with place := { k.place with levels := t.hart.place.levels } })

/-- Dispatched on its own with its checks passed: ROUTE opens its frame with the next generation, the hart as owner, its
weights and, for each row and choice, DROP-MASK, NONE, DROP-DEST, DROP-CAP, or SENT where fewer assignments before
it named the entry than its SHARE; it sends the SENT rows in the order of assignment, where their devices can be
reached, and closes at once where none is sent; a frame that is not IDLE is cause 0x29 and stays as it is. RTSET
writes COUNT route table entries at once, and an illegal one is cause 0x05 with nothing written. RRET sends the
active rows whose headers name a core that the tenancy holds, here or on a device that can be reached, and counts
the others in LOST. FREAD writes each row’s sum of weighted OK contributions, rounded once, and its status byte, and
the frame is IDLE. Nothing else of the core or of memory changes. That a row for a device that cannot be reached
counts in LOST, and which cores another device’s tenancy holds, is the model’s (log 36); so is that marked chunks of
RTSET’s entries and of RRET’s headers go through (log 19). (11_route R244, 11_route R249, 11_route R250, 11_route
R251, 11_route R252, 11_route R255, 11_route R259, 11_route R260) -/
def Obligations.RouteWords : Prop :=
  ∀ (s : State) (pm : Option (BitVec 3)) (fr : BitVec 2) (a b y d sr : BitVec 5),
    let k := s.hart
    let h : VHdr := { c := false, pm := pm }
    let x := s.capture sr 0
    let f := s.core.frame fr
    let own := s.mgr.devnum.toNat
    let rowOf := fun w i => (List.range w).map fun e =>
      (BitVec.ofNat 32 (k.elem x.cfg a.toNat 32 (i * w + e)), k.elemMarked x.cfg a.toNat 32 (i * w + e))
    let elsewhere := fun (t : State) => (∀ p, t.byte p = s.byte p) ∧ (∀ c, c ≠ s.cc → t.coreAt c = s.coreAt c)
      ∧ ∀ p, t.core.lmByte p = s.core.lmByte p
    -- ROUTE
    (let w := (x.sval.extractLsb' 0 11).toNat
      let nrow := x.vl / w
      let gs : List Grp := [{ base := a.toNat, n := x.vl, w := 32 }, { base := b.toNat, n := nrow, w := 16 },
        { base := y.toNat, n := 2 * nrow, w := 32 }]
      let pick := fun (p : Nat × Nat) => k.elem x.cfg b.toNat 16 p.2 / 256 ^ p.1 % 256
      let ent := fun (e : Nat) => s.core.routes[e % 64]?.getD 0
      let order : List (Nat × Nat) := ((List.range nrow).map fun i => (0, i)) ++ (List.range nrow).map fun i => (1, i)
      let earlier := fun (p : Nat × Nat) => order.filter fun q => decide (q.1 < p.1 ∨ (q.1 = p.1 ∧ q.2 < p.2))
      let used := fun p => (earlier p).countP fun q => k.active pm q.2 && pick q == pick p
      let status : Nat × Nat → Option (BitVec 3) := fun p =>
        if k.active pm p.2 = false then some 2
        else if pick p = 255 then some 1
        else if 63 < pick p then some 5
        else if ((ent (pick p)).extractLsb' 0 9).toNat ≤ used p then some 3 else none
      let sent : List (Nat × Nat) := order.filter fun p => (status p).isNone
      let devOf := fun p => ((ent (pick p)).extractLsb' 47 17).toNat
      let row := fun (p : Nat × Nat) => Msg.row { ten := k.place.ten, sdev := own, score := s.cc, ddev := devOf p
                                                  dcore := ((ent (pick p)).extractLsb' 32 8).toNat
                                                  dhart := ((ent (pick p)).extractLsb' 24 3).toNat
                                                  h0 := header0 own ((s.tenCore k.place.ten.toNat s.cc).getD 0) fr (f.gen + 1) p.2 p.1 w
                                                  h1 := header1 s.core.ltag (pick p), data := rowOf w p.2 }
      Runs k x pm [] gs (fun _ => []) →
      (f.st = 0 → x.sval >>> 11 = 0 → 0 < w → w ≤ 1024 → w = f.w.toNat → x.vl % w = 0 → nrow ≤ f.maxr.toNat →
        0 < f.maxr.toNat → f.maxr.toNat ≤ 256 → k.lmbase.toNat ≤ f.base.toNat →
        f.base.toNat + (f.maxr.toNat * w + 31) / 32 ≤ k.lmbase.toNat + k.lmsize.toNat →
        (∀ i < nrow, k.elemMarked x.cfg b.toNat 16 i = false ∧ k.elemMarked x.cfg y.toNat 32 (2 * i) = false
          ∧ k.elemMarked x.cfg y.toNat 32 (2 * i + 1) = false) → (∀ p ∈ sent, s.reachable (devOf p) = true) →
        ∃ t, exec (.route h fr a b y sr) s = .next t ∧ t.hart = k ∧ elsewhere t
          ∧ t.core.frame fr = { f with
              gen := f.gen + 1, st := if sent = [] then 2 else 1, owner := BitVec.ofNat 3 s.ch, nrow := nrow
              wts := (List.range (2 * nrow)).map fun i => BitVec.ofNat 32 (k.elem x.cfg y.toNat 32 i)
              stat := (List.range (2 * nrow)).map fun i => status (i % 2, i / 2) }
          ∧ (∀ g, g ≠ fr → t.core.frame g = s.core.frame g) ∧ { t.core with frames := s.core.frames } = s.core
          ∧ t.fabric = s.fabric ++ (sent.filter fun p => devOf p == own).map row
          ∧ t.out = s.out ++ (sent.filter fun p => devOf p != own).map row
          ∧ { t with cores := [], fabric := [], out := [] } = { s with cores := [], fabric := [], out := [] })
      ∧ (f.st ≠ 0 → k.q.landed = [] → ∃ t, exec (.route h fr a b y sr) s = .next t ∧ t.hart.trap.scause = (1 : BitVec 2) ++ (0x29 : BitVec 8)
          ∧ t.hart.trap.stval = fr.setWidth 64 ∧ t.core.frame fr = f ∧ t.hart.store = k.store ∧ t.fabric = s.fabric))
    -- the header of a row
    ∧ (∀ dev core row c w tag e, dev < 2 ^ 17 → core < 256 → row < 256 → c < 2 → w < 2 ^ 11 → e < 64 →
        let h0 := header0 dev core fr f.gen row c w
        h0.extractLsb' 47 17 = BitVec.ofNat 17 dev ∧ h0.extractLsb' 39 8 = BitVec.ofNat 8 core ∧ h0.extractLsb' 37 2 = fr
          ∧ h0.extractLsb' 35 2 = f.gen ∧ h0.extractLsb' 27 8 = BitVec.ofNat 8 row ∧ h0.extractLsb' 26 1 = BitVec.ofNat 1 c
          ∧ h0.extractLsb' 15 11 = BitVec.ofNat 11 w ∧ h0.extractLsb' 0 15 = 0 ∧ (header1 tag e).extractLsb' 8 56 = tag
          ∧ (header1 tag e).extractLsb' 0 8 = BitVec.ofNat 8 e)
    -- RTSET
    ∧ (let n := (x.sval.extractLsb' 8 7).toNat
      let first := (x.sval.extractLsb' 0 6).toNat
      let ents := fun i => k.chunk x.cfg a.toNat i
      let legal := n ≠ 0 ∧ first + n ≤ 64 ∧ x.sval.extractLsb' 6 2 = 0 ∧ x.sval >>> 15 = 0 ∧ ∀ i < n, (ents i).extractLsb' 40 7 = 0
        ∧ (ents i).extractLsb' 27 5 = 0 ∧ (ents i).extractLsb' 9 15 = 0 ∧ ((ents i).extractLsb' 0 9).toNat ≤ 256
      Runs k x none [] [{ base := a.toNat, n := n, w := 64 }] (fun _ => []) →
      (legal → ∃ t, exec (.rtset false a sr) s = .next t ∧ t.hart = k ∧ elsewhere t
          ∧ (∀ i, i < 64 → t.core.routes[i]?.getD 0 = if first ≤ i ∧ i < first + n then ents (i - first) else s.core.routes[i]?.getD 0)
          ∧ { t.core with routes := s.core.routes } = s.core ∧ { t with cores := [] } = { s with cores := [] })
      ∧ (¬ legal → k.q.landed = [] → ∃ t, exec (.rtset false a sr) s = .next t
          ∧ t.hart.trap.scause = (1 : BitVec 2) ++ (0x05 : BitVec 8) ∧ t.hart.trap.stval = k.pc ∧ t.core.routes = s.core.routes))
    -- RRET
    ∧ (let z := s.capture 0 0
      let w := k.inbox.w.toNat
      let nrow := z.vl / w
      let h0 := fun j => k.chunk z.cfg y.toNat (2 * j)
      let devOf := fun j => ((h0 j).extractLsb' 47 17).toNat
      let core := fun j => ((h0 j).extractLsb' 39 8).toNat
      let names := fun j => if devOf j = own then (s.physCore k.place.ten.toNat (core j)).isSome else
        decide (core j < 128) && Config.holdsCore (devOf j) k.place.ten.toNat (core j) && s.reachable (devOf j)
      let rows := (List.range nrow).filter (k.active pm)
      let msg := fun j => Msg.ret { ten := k.place.ten, score := s.cc, ddev := devOf j, dcore := core j, h0 := h0 j
                                    h1 := k.chunk z.cfg y.toNat (2 * j + 1), w := w, data := rowOf w j, full := false }
      Runs k z pm [] [{ base := a.toNat, n := z.vl, w := 32 }, { base := y.toNat, n := 2 * nrow, w := 64 }] (fun _ => []) →
      w ≠ 0 → z.vl % w = 0 →
      ∃ t, exec (.rret h a y) s = .next t ∧ t.hart = k ∧ elsewhere t
        ∧ t.core.lost.toNat = min 0xFFFF (s.core.lost.toNat + (rows.filter fun j => !names j).length)
        ∧ { t.core with lost := s.core.lost } = s.core
        ∧ t.fabric = s.fabric ++ (rows.filter fun j => names j && devOf j == own).map msg
        ∧ t.out = s.out ++ (rows.filter fun j => names j && devOf j != own).map msg
        ∧ { t with cores := [], fabric := [], out := [] } = { s with cores := [], fabric := [], out := [] })
    -- FREAD
    ∧ (let z := s.capture 0 0
      let w := f.w.toNat
      let ds : List Grp := [{ base := d.toNat, n := f.nrow * w, w := 32 }]
      let ys : List Grp := [{ base := y.toNat, n := f.nrow, w := 8 }]
      let oks := fun i => [0, 1].filter fun c => f.stat.getD (2 * i + c) none == some 0
      let at_ := fun i c => f.base.toNat * 256 + (2 * i + c) * 4 * w
      let term := fun i e c => (value 0 (f.wts.getD (2 * i + c) 0).toNat).mul (value 0 (s.core.lmRead (at_ i c + 4 * e) 4))
      let sum := fun i e => if oks i = [] then 0 else round 0 0 false 0 (sumV false ((oks i).map (term i e)))
      let code := fun i c => ((f.stat.getD (2 * i + c) none).getD 0).toNat
      Runs k z none (ds ++ ys) [] (fun _ => []) → overlapAny k z.cfg ds ys = false → f.st = 3 → f.owner.toNat = s.ch →
      (∀ i < f.nrow, ∀ c ∈ oks i, laneScan s.core (at_ i c) (4 * w) = none) →
      ∃ t, exec (.fread false d y fr) s = .next t ∧ elsewhere t
        ∧ t.hart = (List.range f.nrow).foldl (fun g i =>
            ((List.range w).foldl (fun g e => g.setElem z.cfg d.toNat 32 (i * w + e) (sum i e)) g).setElem z.cfg y.toNat 8 i
              (code i 0 + 8 * code i 1)) k
        ∧ t.core.frame fr = { f with st := 0 } ∧ (∀ g, g ≠ fr → t.core.frame g = s.core.frame g)
        ∧ { t.core with frames := s.core.frames, harts := [] } = { s.core with harts := [] }
        ∧ { t with cores := [] } = { s with cores := [] })

/-- The first message of its stream: a row of the launch that runs at its destination enters the hart’s inbox where it
is open, of the row’s width and not full, its header and data in the slot at HEAD + COUNT, and COUNT rises; it is
refused as full where only COUNT fails, else otherwise; a row of another launch is dropped. A return or a refusal at
its core is dropped for another launch tag, counted STALE for another generation, LATE for a frame that is not OPEN,
STALE for a contribution not expected or a return of another width, and else sets its status, a return with its data
in the frame’s storage; the frame closes with its last. FRAME_TIMEOUT closes an open frame with a timeout, on a core
whose clock runs, what is still SENT becoming MISSING. An event that names no message of its kind changes nothing.
Which comes first of refused and dropped, where the core runs no launch or one of another tenancy, is the model’s
choice (log 60). (11_route R243, 11_route R245, 11_route R246, 11_route R247, 11_route R252, 11_route R256) -/
def Obligations.RouteArrivals : Prop :=
  ∀ (s : State) (n : BitVec 16) (i : Nat), s.NoErrors →
    let u := s.takeMsg i
    let own := s.mgr.devnum.toNat
    let put := fun (c p0 : Nat) (bs : List Byte) (t : State) =>
      ∀ p, (t.coreAt c).lmByte p = if p0 ≤ p ∧ p < p0 + bs.length then bs.getD (p - p0) 0 else (s.coreAt c).lmByte p
    let words := fun (l : List (BitVec 32 × Bool)) => l.flatMap fun v => bytesOf 4 v.1.toNat
    let sides := fun (c : Nat) (t : State) => (∀ p, t.byte p = s.byte p) ∧ (∀ e, e ≠ c → t.coreAt e = s.coreAt e)
      ∧ { t with cores := [] } = { u with cores := [] }
    -- rows
    (∀ m, s.earliest n.toNat = some (i, .row m) →
      let refused := fun full => exec (.rowArrival n) s = .next (u.send m.sdev (.refusal
        { ten := m.ten, score := m.dcore, ddev := m.sdev, dcore := (m.h0.extractLsb' 39 8).toNat, h0 := m.h0, h1 := m.h1
          w := (m.h0.extractLsb' 15 11).toNat, data := [], full := full }))
      (s.physCore m.ten.toNat m.dcore = none → refused false)
      ∧ ∀ c, s.physCore m.ten.toNat m.dcore = some c →
        (s.runningOn c = none → refused false)
        ∧ ∀ l, s.runningOn c = some l →
          let same := m.sdev ≠ own ∨ ∃ o, s.physCore m.ten.toNat (m.h0.extractLsb' 39 8).toNat = some o ∧ (o, m.h1.extractLsb' 8 56) ∈ l.tags
          let k := s.hartAt c m.dhart
          let open_ := k.place.placed = true ∧ k.place.launch = l.id ∧ k.inbox.cap ≠ 0 ∧ k.inbox.w = m.h0.extractLsb' 15 11
          let slot := k.inbox.base.toNat + (k.inbox.head.toNat + k.inbox.count.toNat) % k.inbox.cap.toNat * ((16 + 4 * k.inbox.w.toNat + 255) / 256)
          (l.ten ≠ m.ten → refused false)
          ∧ (l.ten = m.ten → ¬ same → exec (.rowArrival n) s = .next u)
          ∧ (l.ten = m.ten → same → ¬ open_ → refused false)
          ∧ (l.ten = m.ten → same → open_ → k.inbox.cap.toNat ≤ k.inbox.count.toNat → refused true)
          ∧ (l.ten = m.ten → same → open_ → k.inbox.count.toNat < k.inbox.cap.toNat → ∃ t, exec (.rowArrival n) s = .next t ∧ sides c t
              ∧ put c (slot * 256) (bytesOf 8 m.h0.toNat ++ bytesOf 8 m.h1.toNat ++ words m.data) t
              ∧ t.hartAt c m.dhart = { k with inbox := { k.inbox with count := k.inbox.count + 1 } }
              ∧ ∀ h, h ≠ m.dhart → t.hartAt c h = s.hartAt c h))
    -- returns and refusals
    ∧ (∀ (m : RetMsg) (ev : Instr) (ret : Bool),
        (if ret then ev = .returnArrival n ∧ s.earliest n.toNat = some (i, .ret m)
          else ev = .refusalArrival n ∧ s.earliest n.toNat = some (i, .refusal m)) →
        (s.physCore m.ten.toNat m.dcore = none → exec ev s = .next u)
        ∧ ∀ c, s.physCore m.ten.toNat m.dcore = some c →
          let y := s.coreAt c
          let fr : BitVec 2 := m.h0.extractLsb' 37 2
          let f := y.frame fr
          let row := (m.h0.extractLsb' 27 8).toNat
          let j := 2 * row + (m.h0.extractLsb' 26 1).toNat
          let tagged := m.h1.extractLsb' 8 56 = y.ltag
          let gen := m.h0.extractLsb' 35 2 = f.gen
          let expected := row < f.nrow ∧ f.stat[j]? = some none
          let leaves := fun (z : Core) => ∃ t, exec ev s = .next t ∧ t.coreAt c = z ∧ sides c t
          let stale := leaves { y with stale := if y.stale = 0xFFFF then 0xFFFF else y.stale + 1 }
          (¬ tagged → leaves y)
          ∧ (tagged → ¬ gen → stale)
          ∧ (tagged → gen → f.st ≠ 1 → leaves { y with late := if y.late = 0xFFFF then 0xFFFF else y.late + 1 })
          ∧ (tagged → gen → f.st = 1 → ¬ expected → stale)
          ∧ (tagged → gen → f.st = 1 → expected → ret = true → m.w ≠ f.w.toNat → stale)
          ∧ (tagged → gen → f.st = 1 → expected → (ret = true → m.w = f.w.toNat) →
              let code : BitVec 3 := if ret then 0 else if m.full then 4 else 5
              let stat := f.stat.set j (some code)
              ∃ t, exec ev s = .next t ∧ sides c t
                ∧ (t.coreAt c).frame fr = { f with stat := stat, st := if none ∈ stat then 1 else 2 }
                ∧ (∀ g, g ≠ fr → (t.coreAt c).frame g = y.frame g)
                ∧ put c (f.base.toNat * 256 + j * 4 * f.w.toNat) (if ret then words m.data else []) t
                ∧ (t.coreAt c).harts = y.harts ∧ (t.coreAt c).stale = y.stale ∧ (t.coreAt c).late = y.late))
    -- timeouts
    ∧ (∀ fr : BitVec 2,
        let f := s.core.frame fr
        (f.st = 1 → f.timeout ≠ 0 → s.core.power ≠ 2 → ∃ t, exec (.frameTimeout fr) s = .next t
          ∧ t.core.frame fr = { f with st := 2, stat := f.stat.map fun v => some (v.getD 6) }
          ∧ (∀ g, g ≠ fr → t.core.frame g = s.core.frame g) ∧ { t.core with frames := s.core.frames } = s.core
          ∧ (∀ c, c ≠ s.cc → t.coreAt c = s.coreAt c) ∧ { t with cores := [] } = { s with cores := [] })
        ∧ (f.st ≠ 1 ∨ f.timeout = 0 ∨ s.core.power = 2 → exec (.frameTimeout fr) s = .next s))
    ∧ (s.earliest n.toNat = none → exec (.rowArrival n) s = .next s ∧ exec (.returnArrival n) s = .next s
        ∧ exec (.refusalArrival n) s = .next s)

namespace Sys2Proof.Machine

/-- A stack card keeps the ranges of 12_engines R270, its completion address apart. -/
def CardLegal (q : Slot8) : Prop :=
  let n := slotByte q 1
  let fmt := slotByte q 2
  let fl := slotByte q 3
  let tail := chunkOf q 4 = 0 ∧ chunkOf q 5 = 0 ∧ chunkOf q 6 = 0 ∧ chunkOf q 7 = 0
  (slotByte q 0 = 1 ∧ 1 ≤ n ∧ n ≤ 8 ∧ (fmt = 0 ∨ fmt = 2 ∨ fmt = 3) ∧ fl ≤ 1 ∧ 1 ≤ slotWord1 q ∧ slotWord1 q ≤ 2048
    ∧ ∀ j, n ≤ j → j < 8 → slotIndex q j = 0)
  ∨ (slotByte q 0 = 2 ∧ 1 ≤ n ∧ n ≤ 64 ∧ fmt = 0 ∧ fl = 0 ∧ slotWord1 q = 0 ∧ tail)
  ∨ (slotByte q 0 = 3 ∧ 1 ≤ n ∧ n ≤ 64 ∧ fmt = 0 ∧ fl ≤ 1 ∧ slotWord1 q = 0 ∧ tail ∧ (fl = 1 ∨ chunkOf q 1 = 0))

/-- A copy command keeps 12_engines R281 and the FORM rules of R282, for a hart with so many lanes. -/
def CopyLegal (q : Slot8) (lanes : Nat) : Prop :=
  let csz := slotByte q 2
  let fl := slotByte q 3
  let len := copyLen q
  slotByte q 0 = 0x20 ∧ slotByte q 1 ≤ 3 ∧ 8 ≤ csz ∧ csz ≤ 16 ∧ fl < 16 ∧ (fl % 2 = 0 → fl = 0) ∧ slotWord1 q = 0
    ∧ (len % 8 = 0 → 8 ≤ len ∧ len ≤ 2 ^ 32) ∧ chunkOf q 5 = 0 ∧ chunkOf q 6 = 0 ∧ chunkOf q 7 = 0
    ∧ rangesMeet (chunkOf q 1) (chunkOf q 2) len = false ∧ (fl % 2 = 1 → (len + 2 ^ csz - 1) / 2 ^ csz ≤ lanes * 32768)

/-- The first check that fails, of checks in order with what each answers: reason and FIELD. -/
def firstOf (l : List (Bool × Nat × Nat)) : Option (Nat × Nat) := (l.find? fun p => p.1).map Prod.snd

end Sys2Proof.Machine

/-- Dispatched on its own with its checks passed, ENQ takes its commands in increasing order: an inactive one clears its
bit; a refused one clears its bit and its chunk takes FIELD and reason, and an error that a failed walk of it met
leaves its mark; an accepted one sets its bit, its chunk takes its information, and it is queued. With VL = 0 it
sends nothing and changes nothing, its mask included, as R115 and R267 say, though R266 speaks of a cleared mask
(log 22, the model’s reading). In the queue the grant of one command ends with the first active one where more
follow (R127). A command is refused by the first of FORM, ALIGN, WALK, PERM, SPACE, BOUND, CAP and QFULL, FIELD by
FIELD. An accepted card sets D in the leaves of its destination and completion word and is the last of its tenancy’s
queue at the stack of its destination; an accepted copy is the last of its channel, its information ends at the
write pointer’s value there, and with BIND its mask is bound, its first NC bits clear. The FIELD where no address is
at fault, 0 or that of the completion address, is the model’s reading where R268 does not name it (log 37), and so
is that all commands are checked before a later one’s slot is overwritten, that a failed walk marks (log 39), and
that QFULL counts the copy that its channel runs among the 16 (log 105). CAP counts the hart’s cards at the stack,
those that have ended since the ENQ dispatched among them, which a grant keeps for the next (R271). (12_engines
R265, 12_engines R266, 12_engines R267, 12_engines R268, 12_engines R270, 12_engines R271, 12_engines R272,
12_engines R273, 12_engines R281, 12_engines R282, 12_engines R284, 05_harts R115) -/
def Obligations.EngineCommands : Prop :=
  ∀ (s : State) (stk : Bool) (pm : Option (BitVec 3)) (d : BitVec 3) (y a : BitVec 5) (q : Slot8),
    let k := s.hart
    let h : VHdr := { c := false, pm := pm }
    let x := s.capture 0 0
    let gs : List Grp := [{ base := a.toNat, n := x.vl, w := 512 }]
    let ys : List Grp := [{ base := y.toNat, n := x.vl, w := 64 }]
    let slot := fun e => (List.range 8).map fun i => k.chunk x.cfg a.toNat (8 * e + i)
    let one := fun (t : State) (e : Nat) =>
      let ends := fun (b : Bool) (v : Word) (u : State) =>
        u.modHart fun g => (g.setMaskBit d.toNat e b).setChunk x.cfg y.toNat e v false
      if k.active pm e = false then t.modHart fun g => g.setMaskBit d.toNat e false
      else match if stk then cardReason (slot e) (cardRanges (slot e) t) [] t else copyReason (slot e) (copyRanges (slot e) t) t with
        | some (r, f) =>
          let ps := if stk then (let c := cardRanges (slot e) t; c.rows.flatMap id ++ c.dst ++ c.comp)
            else (let c := copyRanges (slot e) t; c.src ++ c.dst ++ c.comp)
          ends false (BitVec.ofNat 64 (256 * f + r)) ((ps.filter Piece.walk).foldl (fun t p => t.markWalk t.cc t.hart.ptroot 0x1A p.va) t)
        | none =>
          let u := if stk then acceptCard (slot e) (cardRanges (slot e) t) x t else acceptCopy (slot e) (copyRanges (slot e) t) x t
          ends true u.1 u.2
    let walk := fun (l : List Piece) => l.any Piece.walk
    let perm := fun (l : List Piece) => l.any Piece.perm
    let space := fun (l : List Piece) => l.any Piece.space
    let off := fun (v : Word) n => decide (v.toNat % n ≠ 0)
    -- ENQ
    (Runs k x pm ys gs (fun _ => []) → x.vl = 0 → overlapAny k x.cfg ys gs = false → k.isBound d.toNat = false →
      exec (if stk then .enqStk h d y a else .enqCpy h d y a) s = .next s)
    ∧ (x.vl ≤ 64 → k.q.begun = none → ∀ lo hi,
      ((if stk then mEnqStk h d y a x s else mEnqCpy h d y a x s).span lo = some hi ↔
        lo < hi ∧ hi < x.vl ∧ k.active pm (hi - 1) = true ∧ (∀ e, lo ≤ e → e + 1 < hi → k.active pm e = false)
          ∧ ∃ e, hi ≤ e ∧ e < x.vl ∧ k.active pm e = true))
    ∧ (Runs k x pm ys gs (fun _ => []) → 1 ≤ x.vl → x.vl ≤ 64 → overlapAny k x.cfg ys gs = false → k.isBound d.toNat = false →
      (∀ e < x.vl, k.active pm e = true → ∀ i < 8, k.chunkMarked x.cfg a.toNat (8 * e + i) = false) →
      exec (if stk then .enqStk h d y a else .enqCpy h d y a) s = .next ((List.range x.vl).foldl one s))
    ∧ (∀ lo hi, hi < x.vl → ∃ p, ((if stk then mEnqStk h d y a x s else mEnqCpy h d y a x s).run s lo hi).state.hart.q.begun = some p ∧ ∀ i < 16,
        p.outs.getD i 0 = ((if stk then mEnqStk h d y a x s else mEnqCpy h d y a x s).run s lo hi).state.outstanding i + (s.cardsGone lo).getD i 0)
    ∧ (∀ lo, (lo = 0 ∨ k.q.begun = none → s.cardsGone lo = [])
      ∧ ∀ p, lo ≠ 0 → k.q.begun = some p → ∀ i < 16, (s.cardsGone lo).getD i 0 = p.outs.getD i 0 - s.outstanding i)
    -- cards
    ∧ (let c := cardRanges q s
      let op := slotByte q 0
      let rows := c.rows.flatMap id
      let ten := k.place.ten
      let legal := CardLegal q
      (∀ (gone : List Nat) [Decidable legal], cardReason q c gone s = firstOf
          [(!decide legal, 6, 0), (chunkOf q 3 == 0, 6, 3),
           ((op == 1 && off (chunkOf q 1) (if slotByte q 2 = 0 then 4 else 2)) || (op == 2 && off (chunkOf q 1) 2048), 7, 1),
           (off (chunkOf q 2) (if op = 1 then 4 else 2048), 7, 2), (off (chunkOf q 3) 8, 7, 3),
           (walk rows, 3, 1), (walk c.dst, 3, 2), (walk c.comp, 3, 3), (perm rows, 4, 1), (perm c.dst, 4, 2), (perm c.comp, 4, 3),
           (space rows, 5, 1), (space c.dst, 5, 2), (space c.comp, 5, 3), (decide (k.ecap.toNat ≤ s.outstanding c.stack + gone.getD c.stack 0), 2, 0),
           (decide (64 ≤ ((s.stackAt c.stack).ofTen ten.toNat).length), 1, 0)])
      ∧ ((∃ gone, cardReason q c gone s = none) →
        let u := acceptCard q c x s
        u.1 = BitVec.ofNat 64 (256 * c.stack) ∧ u.2.hart = k
          ∧ (∀ pa, u.2.byte pa = if (c.dst ++ c.comp).any (fun p => p.leaf == some pa) then s.byte pa ||| 0x20 else s.byte pa)
          ∧ (∀ n, n ≠ c.stack → u.2.stackAt n = s.stackAt n)
          ∧ (∀ t, t ≠ ten.toNat → (u.2.stackAt c.stack).ofTen t = (s.stackAt c.stack).ofTen t)
          ∧ ∃ card, (u.2.stackAt c.stack).ofTen ten.toNat = (s.stackAt c.stack).ofTen ten.toNat ++ [card]
            ∧ card.op.toNat = op ∧ card.count = slotByte q 1 ∧ card.fmt.toNat = slotByte q 2 ∧ card.acc = decide (slotByte q 3 % 2 = 1)
            ∧ card.pat = chunkOf q 1 ∧ card.dlen = slotWord1 q ∧ card.rows = c.rows.map segsOf ∧ card.dst = segsOf c.dst
            ∧ card.comp = ((segsOf c.comp).map Seg.pa).headD 0 ∧ card.ten = ten ∧ card.core = s.cc ∧ card.hart = s.ch
            ∧ card.launch = k.place.launch ∧ card.step = x.cfg.cstep))
    -- copies
    ∧ (let c := copyRanges q s
      let ch := copyChan q
      let m := (copyMask q).toNat
      let n := s.core.chan ch
      let nc := (copyLen q + 2 ^ slotByte q 2 - 1) / 2 ^ slotByte q 2
      let legal := CopyLegal q k.lanes
      (∀ [Decidable legal], copyReason q c s = firstOf
          [(!decide legal, 6, 0), (off (chunkOf q 1) 8, 7, 1), (off (chunkOf q 2) 8, 7, 2), (off (chunkOf q 3) 8, 7, 3),
           (decide (copyLen q % 8 ≠ 0), 7, 0), (walk c.src, 3, 1), (walk c.dst, 3, 2), (walk c.comp, 3, 3), (perm c.src, 4, 1),
           (perm c.dst, 4, 2), (perm c.comp, 4, 3), (space c.src, 5, 1), (space c.dst, 5, 2), (space c.comp, 5, 3),
           (copyBind q && k.isBound m, 8, 0), (decide (16 ≤ n.cmds.length), 1, 0)])
      ∧ (copyReason q c s = none →
        let u := acceptCopy q c x s
        let p := n.cwp.toNat + (n.cmds.map CopyCmd.len).sum - n.written
        u.1 = BitVec.ofNat 64 ((p + copyLen q) % 2 ^ 48 * 65536 + 256 * slotByte q 1)
          ∧ (∀ pa, u.2.byte pa = if (c.dst ++ c.comp).any (fun p => p.leaf == some pa) then s.byte pa ||| 0x20 else s.byte pa)
          ∧ (∀ o, o ≠ ch → u.2.core.chan o = s.core.chan o)
          ∧ (∃ cmd, u.2.core.chan ch = { n with cmds := n.cmds ++ [cmd] } ∧ cmd.src = copyEnd c.src ∧ cmd.dst = copyEnd c.dst
            ∧ cmd.len = copyLen q ∧ cmd.csz = slotByte q 2 ∧ cmd.comp = (segsOf c.comp).head?
            ∧ cmd.bind = (if copyBind q then some (copyMask q) else none) ∧ cmd.hart = s.ch ∧ cmd.launch = k.place.launch
            ∧ cmd.ten = k.place.ten ∧ cmd.step = x.cfg.cstep ∧ cmd.poison = false)
          ∧ (copyBind q = false → u.2.hart = k)
          ∧ (copyBind q = true → u.2.hart.isBound m = true
            ∧ u.2.hart.record (copyMask q) = some { dest := chunkOf q 2, len := copyLen q, csz := slotByte q 2, nc := nc, bound := true }
            ∧ (∀ o e, e < 2 ^ 20 → u.2.hart.maskBit o e = if o = m ∧ e < nc then false else k.maskBit o e)
            ∧ u.2.hart.store.chunks = k.store.chunks ∧ u.2.hart.sregs = k.sregs)))

namespace Sys2Proof.Machine

/-- The physical bytes of segments, in order. -/
def segBytes (l : List Seg) : List Nat := l.flatMap fun g => (List.range g.n).map (g.pa + ·)

/-- No line of memory and no word of lane memory carries a mark. -/
def State.NoMarks (s : State) : Prop := s.marks = [] ∧ ∀ c, (s.coreAt c).lmMarks = []

/-- Bytes land at places, and eight more hold a number, little-endian; every other byte of memory is as it was. -/
def Lands (s t : State) (at_ : List Nat) (bs : List Byte) (comp : Option Nat) (v : Nat) : Prop :=
  (∀ j < at_.length, t.byte (at_.getD j 0) = bs.getD j 0)
    ∧ (∀ p, comp = some p → ∀ i < 8, t.byte (p + i) = BitVec.ofNat 8 (v / 256 ^ i))
    ∧ ∀ pa, pa ∉ at_ → (∀ p, comp = some p → pa < p ∨ p + 8 ≤ pa) → t.byte pa = s.byte pa

/-- A card that a stack engine runs next, as its acceptance leaves one (12_engines R270, R273): its destination’s bytes
are distinct and its completion word is apart from them, and its rows are of the card’s size. -/
structure CardRuns (s : State) (st t : Nat) (c : Card) (row dst : Nat) : Prop where
  next  : (s.stackAt st).next = some (t, c)
  count : 1 ≤ c.count
  rows  : c.op ≠ 3 → c.rows.length = c.count
  size  : c.op ≠ 3 → ∀ r ∈ c.rows, (segBytes r).length = row ∧ ∀ g ∈ r, 0 < g.n
  fits  : (segBytes c.dst).length = dst ∧ (segBytes c.dst).Nodup
  line  : c.op ≠ 1 → ∀ g ∈ c.dst, g.pa % 256 = 0 ∧ g.n % 256 = 0 ∧ 0 < g.n
  apart : ∀ i < 8, c.comp + i ∉ segBytes c.dst
  calm  : s.NoErrors ∧ s.NoSnapshot ∧ s.NoMarks

end Sys2Proof.Machine

/-- Where nothing is marked or in error and no snapshot runs: IRED writes at its destination the sums of the rows’
elements as DRAM holds them, and of the destination with ACC, each rounded once; RCOPY copies its rows one after
another from DRAM; RFILL fills them with zeros or the pattern; each then writes DONE, PATH and STATUS 1 and leaves
its queue; a card that has read from another stack may stop at its bound, with so many sub-operations done, an IRED
none of its destination, and STATUS 3; any other has no bound. A reduction packet’s bytes land and its chunk’s
record holds the step, where the core still runs the packet’s launch (the record of another launch stays, log 59,
the model’s reading). A started copy’s next chunk lands, the write pointer rises by its bytes, its bit of a bound
mask sets, and after the last chunk the completion word is written and the binding ends; a waiting command of an
idle channel starts. With nothing to do, nothing changes. That a chunk or a row is read whole and then written,
where source and destination meet, is the model’s choice (log 38), and so is what a bound counts (log 40).
(12_engines R272, 12_engines R274, 12_engines R275, 12_engines R276, 12_engines R277, 12_engines R278, 12_engines
R279, 12_engines R283, 12_engines R284, 12_engines R289, 12_engines R290) -/
def Obligations.EngineWork : Prop :=
  ∀ (s : State) (st : BitVec 4) (t : Nat) (c : Card),
    let gone := fun (u : State) => (u.stackAt st.toNat).ofTen t = ((s.stackAt st.toNat).ofTen t).drop 1
      ∧ (u.stackAt st.toNat).last = t ∧ (∀ o, o ≠ t → (u.stackAt st.toNat).ofTen o = (s.stackAt st.toNat).ofTen o)
      ∧ (∀ o, o ≠ st.toNat → u.stackAt o = s.stackAt o) ∧ u.cores = s.cores
    let D := segBytes c.dst
    let afar := fun (n : Nat) => ∃ r ∈ c.rows.take n, ∃ g ∈ r, stackOf g.pa ≠ st.toNat
    let S := fun i => segBytes (c.rows.getD i [])
    let done := fun (i : Instr) (n path status : Nat) (at_ : List Nat) (bs : List Byte) =>
      ∃ u, exec i s = .next u ∧ gone u ∧ Lands s u at_ bs (some c.comp) (n * 2 ^ 32 + path * 2 ^ 17 + status)
    -- IRED
    (let w := if c.fmt = 0 then 4 else 2
      let num := fun (l : List Nat) n e => (List.range n).foldr (fun i v => (s.dramByte (l.getD (e * n + i) 0)).toNat + 256 * v) 0
      let terms := fun e => (if c.acc then [value 0 (num D 4 e)] else [])
        ++ (List.range c.count).map fun i => value c.fmt.toNat (num (S i) w e)
      c.op = 1 → (c.fmt = 0 ∨ c.fmt = 2 ∨ c.fmt = 3) → CardRuns s st.toNat t c (c.dlen * w) (4 * c.dlen) →
      done (.ired st) c.count 0 1 D ((List.range c.dlen).flatMap fun e => bytesOf 4 (round 0 0 false 0 (sumV false (terms e))))
      ∧ ∀ n : BitVec 7, 1 ≤ n.toNat → n.toNat < c.count → afar n.toNat → done (.cardBound st n) n.toNat 0 3 [] [])
    -- RCOPY
    ∧ (c.op = 2 → CardRuns s st.toNat t c 2048 (2048 * c.count) →
      let goes := fun i => (D.drop (2048 * i)).take 2048
      let after := fun n => (List.range n).foldl (fun (m : Nat → Byte) i pa => match (goes i).idxOf? pa with
        | some j => m ((S i).getD j 0)
        | none => m pa) s.dramByte
      let inside := fun i => (S i).headD 0 % 2 ^ 40 / 2 ^ 20 == (goes i).headD 0 % 2 ^ 40 / 2 ^ 20
      let path := fun n => if (List.range n).all inside then 1 else if (List.range n).any inside then 3 else 2
      let upTo := fun n => D.take (2048 * n)
      done (.rcopy st) c.count (path c.count) 1 D (D.map (after c.count))
      ∧ ∀ n : BitVec 7, 1 ≤ n.toNat → n.toNat < c.count → afar n.toNat →
          done (.cardBound st n) n.toNat (path n.toNat) 3 (upTo n.toNat) ((upTo n.toNat).map (after n.toNat)))
    -- RFILL
    ∧ (c.op = 3 → CardRuns s st.toNat t c 0 (2048 * c.count) →
      let fill := fun n => (List.range (2048 * n)).map fun j => if c.acc then c.pat.extractLsb' (8 * (j % 8)) 8 else (0 : Byte)
      done (.rfill st) c.count 0 1 D (fill c.count))
    -- no bound without reads from another stack
    ∧ (∀ n : BitVec 7, (s.stackAt st.toNat).next = some (t, c) → (n = 0 ∨ c.count ≤ n.toNat ∨ ¬ afar n.toNat) →
        exec (.cardBound st n) s = .next s)
    ∧ ((s.stackAt st.toNat).next = none → exec (.ired st) s = .next s ∧ exec (.rcopy st) s = .next s ∧ exec (.rfill st) s = .next s
        ∧ ∀ n, exec (.cardBound st n) s = .next s)
    -- reduction packets
    ∧ (∀ p r, (s.stackAt st.toNat).rq = p :: r → s.NoErrors → s.NoSnapshot → (segBytes p.segs).length = p.bytes.length →
        (segBytes p.segs).Nodup →
        ∃ u, exec (.reductionPacket st) s = .next u ∧ Lands s u (segBytes p.segs) p.bytes none 0
          ∧ u.stackAt st.toNat = { s.stackAt st.toNat with rq := r }
          ∧ (p.launch = (s.coreAt p.core).launch → (u.coreAt p.core).chunkRec p.handle p.chunk
            = { (s.coreAt p.core).chunkRec p.handle p.chunk with ls := some p.step, served := 0 })
          ∧ (p.launch ≠ (s.coreAt p.core).launch →
            (u.coreAt p.core).chunkRec p.handle p.chunk = (s.coreAt p.core).chunkRec p.handle p.chunk))
    ∧ ((s.stackAt st.toNat).rq = [] → exec (.reductionPacket st) s = .next s)
    -- copies
    ∧ (∀ ch : BitVec 2,
        let n := s.core.chan ch
        (n.started = false → n.cmds ≠ [] → ∃ u, exec (.copyCommand ch) s = .next u ∧ u.core.chan ch = { n with started := true, chunk := 0 }
          ∧ (∀ o, o ≠ ch → u.core.chan o = s.core.chan o) ∧ u.core.harts = s.core.harts ∧ ∀ pa, u.byte pa = s.byte pa)
        ∧ (n.started = true ∨ n.cmds = [] → exec (.copyCommand ch) s = .next s)
        ∧ (n.started = false ∨ n.cmds = [] → exec (.copyChunk ch) s = .next s)
        ∧ ∀ cmd r, n.cmds = cmd :: r → n.started = true → s.NoErrors → s.NoSnapshot → s.NoMarks →
          let off := n.chunk * 2 ^ cmd.csz
          let m := min (2 ^ cmd.csz) (cmd.len - off)
          let last := decide (cmd.len ≤ off + m)
          let locs := fun (e : CopyEnd) => ((e.runs s.cc cmd.len).flatMap Run.locs).drop off |>.take m
          let src := locs cmd.src
          let dst := locs cmd.dst
          let k := s.hartAt s.cc cmd.hart
          let comp := if last then cmd.comp.map Seg.pa else none
          src.length = m → dst.length = m → dst.Nodup → (∀ g, cmd.comp = some g → g.n = 8 ∧ ∀ i < 8, Loc.mem (g.pa + i) ∉ dst) →
          n.chunk < 2 ^ 20 →
          ∃ u, exec (.copyChunk ch) s = .next u
            ∧ (∀ j < m, u.byteAt false (dst.getD j (.mem 0)) = s.byteAt false (src.getD j (.mem 0)))
            ∧ (∀ pa, Loc.mem pa ∉ dst → (∀ p, comp = some p → pa < p ∨ p + 8 ≤ pa) → u.byte pa = s.byte pa)
            ∧ (∀ o p, Loc.lm o p ∉ dst → (u.coreAt o).lmByte p = (s.coreAt o).lmByte p)
            ∧ (∀ p, comp = some p → ∀ i < 8, u.byte (p + i) = BitVec.ofNat 8 (((cmd.len + 2 ^ cmd.csz - 1) / 2 ^ cmd.csz * 2 ^ 32
                + (if cmd.poison then 2 ^ 16 else 0) + 1) / 256 ^ i))
            ∧ u.core.chan ch = { cmds := if last then r else cmd :: r, cwp := n.cwp + BitVec.ofNat 64 m, started := !last
                                 chunk := if last then 0 else n.chunk + 1 }
            ∧ (cmd.bind = none ∨ k.place.placed = false ∨ k.place.launch ≠ cmd.launch → u.hartAt s.cc cmd.hart = k)
            ∧ (∀ b, cmd.bind = some b → k.place.placed = true → k.place.launch = cmd.launch → k.q.flight = none → k.q.stall = .none →
                (∀ e < 2 ^ 20, (u.hartAt s.cc cmd.hart).maskBit b.toNat e = (k.maskBit b.toNat e || e == n.chunk))
                ∧ (u.hartAt s.cc cmd.hart).isBound b.toNat = (k.isBound b.toNat && !last)))

namespace Sys2Proof.Machine

/-- The hart’s vector queue begins with a single-word convoy under way from element 0. -/
structure Begun (k : Hart) (x : Entry) (r : List Entry) (i : Instr) : Prop where
  head  : k.q.vq = x :: r
  instr : instrOf x.word = some i
  last  : x.word.getLsbD 55 = false
  begun : k.q.flight = some [0]
  quiet : k.q.landed = [] ∧ k.q.comb = none ∧ k.store.poison = []

/-- The first word of the hart’s vector queue is done and has left it. -/
def LeftQueue (k : Hart) (r : List Entry) : Prop := k.q.vq = r ∧ k.q.flight = none ∧ k.q.stall = .none

/-- The hart has taken a trap of its vector queue. -/
def TookTrap (k : Hart) (code : BitVec 8) (tval : Word) : Prop :=
  k.trap.scause = (1 : BitVec 2) ++ code ∧ k.trap.stval = tval ∧ k.vec.vp = true ∧ k.q.flight = none ∧ k.q.stall = .none

/-- A message has been sent after all others, into the fabric of the module or out of it; one to a device that cannot be reached is gone. -/
def Sent (s t : State) (dev : Nat) (m : Msg) : Prop :=
  t.fabric = (if dev = s.mgr.devnum.toNat then s.fabric ++ [m] else s.fabric)
    ∧ t.out = (if dev ≠ s.mgr.devnum.toNat ∧ s.reachable dev = true then s.out ++ [m] else s.out)

end Sys2Proof.Machine

/-- Dispatched on its own with its checks passed: VST.C sends each chunk to its owner, whole or the K elements of
greatest magnitude of each block of 32, writes the residual and waits for the acknowledgements; VLD.C loads own
chunks whose result is written, fetches another’s, waits for one not written, and faults at a failed one; VSTR sets
its mask to the active elements, sends a train with its header and tail to each device of the pod that can be
reached and waits, the bits of elements for another device clear. A contribution is staged and acknowledged, or,
where 2 MiB are staged and a staged chunk can be combined, held back; a second one or one of a step that is past
dropped, one with no owner refused; the port combines a chunk of all ranks, step after step and in rank order, in
memory or as a reduction packet, or marks it failed. A fetch is answered once the step is written. A train is
written up to its first failing element and its count sent back; acknowledgements end VST.C, with cause 0x2A after a
refusal, and VSTR, having cleared the bits of what was not written. A message that finds nothing waiting for it is
dropped. The model’s own are: cause 0x2A of a VST.C before cause 0x19 where its data also carries a mark (log 97),
the level at which a port writes and reads, that of the harts it serves (log 108), the causes 0x10 and 0x12 of a
failed fetch (log 33), the entries of an element in parts (log 32), the packet to the first stack that a chunk lies
in (log 52), whose OP, FA, RM and SAT rule where the contributions of a chunk differ (rank 0’s), the waits for room
in staging or for an owner, what is dropped but acknowledged, and the counts of fetches served (log 59).
(13_collective R294, 13_collective R295, 13_collective R296, 13_collective R297, 13_collective R298, 13_collective
R299, 13_collective R300, 13_collective R301, 13_collective R302, 13_collective R303) -/
def Obligations.Collectives : Prop :=
  ∀ (s : State) (n : BitVec 16) (i : Nat),
    let own := s.mgr.devnum.toNat
    let u := s.takeMsg i
    let is := fun (m : Msg) => s.earliest n.toNat = some (i, m)
    let local_ := fun (l : List Nat) (dev : Nat → Nat) (m : Nat → Msg) => (l.filter fun j => dev j == own).map m
    let away := fun (l : List Nat) (dev : Nat → Nat) (m : Nat → Msg) => (l.filter fun j => dev j != own).map m
    -- VST.C and VLD.C begun
    (∀ (d a sr f : BitVec 5) (off : BitVec 16) (g : GroupEnt) (r : Nat),
      let k := s.hart
      let x := s.capture sr f
      let q := x.fmt
      let w := winOf x off
      let c := contWidth q.fa
      let K := x.coprK
      let owner := fun (j : Nat) => g.members.getD ((w.first + j) % g.members.length) 0
      let dev := fun j => recDev (owner j)
      winBad05 x off = false → k.q.stall = .none →
      (let ds := if K = 0 then [] else [x.grp d q.fa]
        let p := fun j e => k.elem x.cfg a.toNat c (j * w.per + e)
        let v := fun j e => value q.fa (p j e)
        let before := fun j e o => decide (o / 32 = e / 32) && (magAbove (v j o) (v j e) || (!magAbove (v j e) (v j o) && decide (o < e)))
        let sent := fun j e => K == 0 || decide ((List.range w.per).countP (before j e) < K)
        let msg := fun j => Msg.contrib
          { ten := k.place.ten, system := k.trap.system, handle := x.handle, step := x.cfg.cstep, chunk := w.first + j, rank := r, ranks := g.members.length
            gather := g.gather, op := x.cfg.copr.extractLsb' 0 2, fa := BitVec.ofNat 5 q.fa, rm := BitVec.ofNat 3 q.rm, sat := q.sat
            stride := w.str, elems := (List.range w.per).map fun e => if sent j e then BitVec.ofNat 32 (p j e) else 0
            marked := false, odev := dev j, ocore := recCore (owner j), ohart := recHart (owner j), sdev := own, score := s.cc
            shart := s.ch, id := s.nextId }
        Runs k x none ds [x.grp a q.fa] (fun _ => []) → (K = 0 → d = 0) → overlapAny k x.cfg ds [x.grp a q.fa] = false → 0 < w.n →
        (s.groupOf x.handle = some g → s.rankIn g = some r → (∀ e < x.vl, k.elemMarked x.cfg a.toNat c e = false) →
          (∀ j < w.n, s.reachable (dev j) = true) →
          ∃ t y, exec (.vstC false d a sr f off) s = .next t ∧ t.hart.q.vq = y :: k.q.vq ∧ t.hart.q.stall = .vstC s.nextId w.n []
            ∧ t.fabric = s.fabric ++ local_ (List.range w.n) dev msg ∧ t.out = s.out ++ away (List.range w.n) dev msg
            ∧ (K = 0 → t.hart.store = k.store)
            ∧ (K ≠ 0 → ∀ j < w.n, ∀ e < w.per, t.hart.elem x.cfg d.toNat c (j * w.per + e) = if sent j e then 0 else p j e)
            ∧ t.hart.sregs = k.sregs ∧ ∀ pa, t.byte pa = s.byte pa)
        ∧ ((s.groupOf x.handle = none ∨ s.groupOf x.handle = some g ∧ s.rankIn g = none) →
          ∃ t, exec (.vstC false d a sr f off) s = .next t ∧ TookTrap t.hart 0x2A (BitVec.ofNat 64 x.handle)))
      ∧ (∀ P : Nat → List (Part × Nat), Runs k x none [x.grp d q.fa] [] (fun _ => []) → s.groupOf x.handle = some g →
        s.rankIn g = some r → (g.gather = true ∨ ∀ j < w.n, (w.first + j) % g.members.length = r) →
        let b := memWidth q.fa / 8
        let rec_ := fun j => s.core.chunkRec x.handle (w.first + j)
        let written := fun j => ∃ l, (rec_ j).ls = some l ∧ x.cfg.cstep.toNat ≤ l.toNat
        let failed := fun j => x.cfg.cstep ∈ (rec_ j).failed
        let mine := fun j => (w.first + j) % g.members.length = r
        ((∀ j < w.n, mine j ∧ ¬ failed j ∧ written j) →
          (∀ e < x.vl, s.parts .vload (w.addr + BitVec.ofNat 64 (b * e)) b = .ok (P e) ∧ ∀ p ∈ P e, s.Sound p.1) →
          ∃ t, exec (.vldC false d sr f off) s = .next t ∧ (∀ pa, t.byte pa = s.byte pa)
            ∧ t.hart = (List.range x.vl).foldl (fun h e => h.setElem x.cfg d.toNat c e (s.readParts (P e))) k)
        ∧ (0 < w.n → mine 0 → ¬ failed 0 → ¬ written 0 → Stalls s (exec (.vldC false d sr f off) s) (.vldC 0 w.first))
        ∧ (0 < w.n → mine 0 → failed 0 → ∃ t, exec (.vldC false d sr f off) s = .next t
            ∧ TookTrap t.hart 0x2A (BitVec.ofNat 64 (w.first * w.str)) ∧ t.hart.vec.vtelem = 0)
        ∧ (0 < w.n → ¬ mine 0 → Stalls s (exec (.vldC false d sr f off) s) (.vldC s.nextId w.first)
            ∧ ∃ t, exec (.vldC false d sr f off) s = .next t ∧ Sent s t (dev 0) (.fetch
              { ten := k.place.ten, system := k.trap.system, handle := x.handle, step := x.cfg.cstep, chunk := w.first, stride := w.str, odev := dev 0
                ocore := recCore (owner 0), ohart := recHart (owner 0), sdev := own, score := s.cc, shart := s.ch, id := s.nextId }))))
    -- VSTR begun
    ∧ (∀ (pm : Option (BitVec 3)) (m : BitVec 3) (a b sr f : BitVec 5) (off : BitVec 16) (P : Nat → List (Part × Nat)),
      let k := s.hart
      let x := s.capture sr f
      let c := contWidth x.fmt.fa
      let act := (List.range x.vl).filter (k.active pm)
      let all := act.flatMap fun e => tentOf e (P e) (k.elem x.cfg a.toNat c e)
      let devs := (all.map TEnt.dev).eraseDups
      let train := fun dv => all.filter fun p => p.dev == dv
      let msg := fun dv => Msg.train
        { ten := k.place.ten, sdev := own, score := (s.tenCore k.place.ten.toNat s.cc).getD 0, shart := s.ch, tag := s.core.ltag
          id := s.nextId, ddev := dv, width := memWidth x.fmt.fa / 8, step := x.cfg.cstep
          elems := (train dv).map fun p => { pa := p.pa, n := p.n, cls := p.cls, data := p.data }
          count := BitVec.ofNat 32 (train dv).length, check := Config.checkCode ((train dv).map fun p => (p.pa, p.data.toNat)) }
      let reached := fun dv => dv == own || (s.reachable dv && Config.inPod dv)
      let met := devs.filter reached
      Runs k x pm [] [x.grp a x.fmt.fa, x.grp b x.fmt.fb] (fun _ => []) → memBad05 (.indexed b) x = false → pm ≠ some m →
      k.isBound m.toNat = false → k.q.stall = .none →
      (∀ e ∈ act, s.parts .vremote (elemAddr (.indexed b) (baseOf x off) x k c e).1 (memWidth x.fmt.fa / 8) = .ok (P e)
        ∧ k.elemMarked x.cfg a.toNat c e = false ∧ (AForm.indexed b).marked x k e = false) →
      ∃ t, exec (.vstr { c := false, pm := pm } a m sr b f off) s = .next t
        ∧ (∀ e < 2 ^ 20, t.hart.maskBit m.toNat e =
            if e < x.vl then k.active pm e && !(all.any fun p => p.e == e && !reached p.dev) else k.maskBit m.toNat e)
        ∧ t.fabric = s.fabric ++ local_ met id msg ∧ t.out = s.out ++ away met id msg
        ∧ (met = [] → t.hart.q = k.q)
        ∧ (met ≠ [] → t.hart.q.stall = .vstr s.nextId (met.map fun dv => (dv, (train dv).map TEnt.e)) none
          ∧ ∃ y, t.hart.q.vq = y :: k.q.vq)
        ∧ t.hart.store.chunks = k.store.chunks ∧ t.hart.sregs = k.sregs
        ∧ ∀ pa, t.byte pa = (s.setDirty ((act.flatMap P).map Prod.fst)).byte pa)
    -- contributions at their owner
    ∧ (∀ m, is (.contrib m) →
      let ack := fun ok => Msg.contribAck m.sdev m.score m.shart m.id (m.chunk % m.ranks) ok
      (s.ownerHart m.ten m.ocore m.ohart = none → exec (.contributionArrival n) s = .next (u.send m.sdev (ack false)))
      ∧ ∀ c, s.ownerHart m.ten m.ocore m.ohart = some c →
        let y := s.coreAt c
        let rec_ := y.chunkRec m.handle m.chunk
        let known := (∃ o ∈ y.staged, o.handle = m.handle ∧ o.step = m.step ∧ o.chunk = m.chunk ∧ o.rank = m.rank)
          ∨ (∃ l, rec_.ls = some l ∧ m.step.toNat ≤ l.toNat) ∨ m.step ∈ rec_.failed
          ∨ ∃ e ∈ s.engines, ∃ p ∈ e.2.rq, p.core = c ∧ p.launch = y.launch ∧ p.handle = m.handle ∧ p.chunk = m.chunk ∧ p.step = m.step
        let full := 2 ^ 21 < (y.staged.map Contrib.size).sum + m.size ∧ ∃ o ∈ y.staged, (s.combinable c o).isSome = true
        (known → exec (.contributionArrival n) s = .next (u.send m.sdev (ack true)))
        ∧ (¬ known → full → exec (.contributionArrival n) s = .next s)
        ∧ (¬ known → ¬ full → ∃ t, exec (.contributionArrival n) s = .next t ∧ t.coreAt c = { y with staged := y.staged ++ [m] }
          ∧ Sent u t m.sdev (ack true) ∧ (∀ o, o ≠ c → t.coreAt o = s.coreAt o) ∧ ∀ pa, t.byte pa = s.byte pa))
    -- the port combines
    ∧ (∀ c o ms, s.combinable c o = some ms ↔
      (s.coreAt c).allRanks o = some ms
        ∧ (∀ p ∈ (s.coreAt c).staged, p.handle = o.handle → p.chunk = o.chunk → p.step.toNat < o.step.toNat → (s.coreAt c).allRanks p = none)
        ∧ (∀ e ∈ s.engines, ∀ p ∈ e.2.rq, ¬ (p.core = c ∧ p.launch = (s.coreAt c).launch ∧ p.handle = o.handle ∧ p.chunk = o.chunk))
        ∧ (o.gather = true → ((s.coreAt c).chunkRec o.handle o.chunk).ls ≠ none → o.ranks ≤ ((s.coreAt c).chunkRec o.handle o.chunk).served + 1))
    ∧ ((s.core.staged[n.toNat]? = none → exec (.collectiveCombine n) s = .next s)
      ∧ ∀ m ms, s.core.staged[n.toNat]? = some m →
        let y := s.core
        let rec_ := y.chunkRec m.handle m.chunk
        let fa := m.fa.toNat
        let b := memWidth fa / 8
        let v := s.at s.cc m.ohart
        let ps := checkRange { r := false, w := true, lpd := true, lane := false } (v.asLevel (ms.all Contrib.system)) (BitVec.ofNat 64 (m.chunk * m.stride)) (m.elems.length * b)
        let segs := segsOf ps
        let z := ms.headD m
        let fz := z.fa.toNat
        let rnd := round fz z.rm.toNat z.sat 0
        let op := fun p o => if z.op = 0 then p.add (z.rm == 2) o else if z.op = 1 then maxV p o else minV p o
        let elem := fun e => match ms.map fun (o : Contrib) => (o.elems.getD e 0).toNat with
          | [] => 0
          | p :: r => round fz 0 false 0 (r.foldl (fun acc o => value fz (rnd (op acc (value fz o)))) (value fz p))
        let bs := (List.range m.elems.length).flatMap fun e => bytesOf b (elem e)
        let staged := y.staged.filter fun o => !o.sameChunk m
        (s.combinable s.cc m = none → exec (.collectiveCombine n) s = .next s)
        ∧ (s.combinable s.cc m = some ms →
          (rangeReason [(0, ps)] ≠ none → ∃ t, exec (.collectiveCombine n) s = .next t ∧ t.core.staged = staged
            ∧ t.core.chunkRec m.handle m.chunk = { rec_ with failed := rec_.failed ++ [m.step] } ∧ ∀ pa, t.byte pa = s.byte pa)
          ∧ (rangeReason [(0, ps)] = none → (∀ g ∈ segs, regionOf g.pa ≠ 0) → s.NoErrors → s.NoSnapshot →
            (segBytes segs).length = m.elems.length * b → (segBytes segs).Nodup →
            ∃ t, exec (.collectiveCombine n) s = .next t ∧ Lands (v.dirtyPieces ps) t (segBytes segs) bs none 0 ∧ t.core.staged = staged
              ∧ t.core.chunkRec m.handle m.chunk = { rec_ with ls := some m.step, served := 0 })
          ∧ (rangeReason [(0, ps)] = none → ∀ g, segs.head? = some g → regionOf g.pa = 0 →
            (64 ≤ (s.stackAt (stackOf g.pa)).rq.length → exec (.collectiveCombine n) s = .next s)
            ∧ ((s.stackAt (stackOf g.pa)).rq.length < 64 → ∃ t p, exec (.collectiveCombine n) s = .next t ∧ t.core.staged = staged
              ∧ (t.stackAt (stackOf g.pa)).rq = (s.stackAt (stackOf g.pa)).rq ++ [p] ∧ p.segs = segs ∧ p.bytes = bs ∧ p.core = s.cc ∧ p.launch = y.launch
              ∧ p.handle = m.handle ∧ p.chunk = m.chunk ∧ p.step = m.step ∧ t.core.chunkRec m.handle m.chunk = rec_
              ∧ ∀ pa, t.byte pa = (v.dirtyPieces ps).byte pa))))
    -- fetches
    ∧ (∀ m, is (.fetch m) →
      (s.ownerHart m.ten m.ocore m.ohart = none → exec (.chunkFetch n) s = .next s)
      ∧ ∀ c, s.ownerHart m.ten m.ocore m.ohart = some c →
        let rec_ := (s.coreAt c).chunkRec m.handle m.chunk
        let written := ∃ l, rec_.ls = some l ∧ m.step.toNat ≤ l.toNat
        let ps := checkRange { r := true, w := false, lpd := true, lane := false } ((s.at c m.ohart).asLevel m.system) (BitVec.ofNat 64 (m.chunk * m.stride)) m.stride
        let answer := fun bs cause => Msg.fetched m.sdev m.score m.shart m.id m.chunk bs cause
        let served := fun bs cause => ∃ t, exec (.chunkFetch n) s = .next t ∧ Sent u t m.sdev (answer bs cause)
          ∧ (t.coreAt c).chunkRec m.handle m.chunk = { rec_ with served := if rec_.ls = some m.step then rec_.served + 1 else rec_.served }
          ∧ ∀ pa, t.byte pa = s.byte pa
        (m.step ∈ rec_.failed → exec (.chunkFetch n) s = .next (u.send m.sdev (answer [] 0x2A)))
        ∧ (m.step ∉ rec_.failed → ¬ written → exec (.chunkFetch n) s = .next s)
        ∧ (m.step ∉ rec_.failed → written →
          (∀ p, rangeReason [(0, ps)] = some p → served [] (if p.1 = 3 then 0x10 else 0x12))
          ∧ (rangeReason [(0, ps)] = none → s.NoErrors → s.NoMarks → served ((segBytes (segsOf ps)).map s.byte) 0)))
    ∧ (∀ dv c h num j bs cause, is (.fetched dv c h num j bs cause) →
      let k := s.hartAt c h
      (k.q.stall ≠ .vldC num j → exec (.chunkFetch n) s = .next u)
      ∧ ∀ x r d sr f off, Begun { k with q := { k.q with flight := some [0] } } x r (.vldC false d sr f off) → k.q.stall = .vldC num j →
        let w := winOf x off
        let e0 := (j - w.first) * w.per
        (cause = 0 → e0 + w.per = x.vl → 0 < x.vl → dispatchCheck k [(x, x.meaning (s.at c h))] = none →
          ∃ t, exec (.chunkFetch n) s = .next t ∧ LeftQueue (t.hartAt c h) r ∧ (t.hartAt c h).store =
            ((List.range w.per).foldl (fun g e => g.setElem x.cfg d.toNat (contWidth x.fmt.fa) (e0 + e)
              (numAt bs (memWidth x.fmt.fa / 8) e)) k).store)
        ∧ (cause ≠ 0 → ∃ t, exec (.chunkFetch n) s = .next t ∧ TookTrap (t.hartAt c h) cause (BitVec.ofNat 64 (j * w.str))
            ∧ (t.hartAt c h).vec.vtelem = BitVec.ofNat 32 e0 ∧ (t.hartAt c h).store = k.store))
    -- acknowledgements of VST.C
    ∧ (∀ dv c h num rank ok, is (.contribAck dv c h num rank ok) →
      let k := s.hartAt c h
      ((∀ left refused, k.q.stall ≠ .vstC num left refused) → exec (.contributionAck n) s = .next u)
      ∧ ∀ x r d a sr f off left refused, Begun k x r (.vstC false d a sr f off) → x.vl ≠ 0 → k.q.stall = .vstC num left refused →
        let no := if ok then refused else refused ++ [rank]
        (1 < left → ∃ t, exec (.contributionAck n) s = .next t
          ∧ t.hartAt c h = { k with q := { k.q with stall := .vstC num (left - 1) no } })
        ∧ (left ≤ 1 → no = [] → ∃ t, exec (.contributionAck n) s = .next t ∧ LeftQueue (t.hartAt c h) r)
        ∧ (left ≤ 1 → ∀ p l, no = p :: l → ∃ t, exec (.contributionAck n) s = .next t
          ∧ TookTrap (t.hartAt c h) 0x2A (BitVec.ofNat 64 (l.foldl min p)) ∧ (t.hartAt c h).q.vq.length = r.length))
    -- trains
    ∧ (∀ m, is (.train m) → s.NoErrors → s.NoSnapshot →
      let good := fun (e : TrainElem) => (List.range e.n).all fun i => memExists (e.pa + i) && s.windowOpen m.ten.toNat (e.pa + i)
      let els := m.elems.takeWhile good
      ∃ t, exec (.trainArrival n) s = .next t ∧ Sent u t m.sdev (.trainAck m.ten m.sdev m.score m.shart m.id own els.length)
        ∧ (∀ pa, t.byte pa = memAfter (els.map fun e => Acc.ofNat (.mem e.pa) e.n (e.data.toNat % 256 ^ e.n)) pa (s.byte pa))
        ∧ ∀ c, t.coreAt c = s.coreAt c)
    ∧ (∀ ten dv core h num from_ cnt, is (.trainAck ten dv core h num from_ cnt) →
      -- core 128 is none
      let c := (s.physCore ten.toNat core).getD 128
      let k := s.hartAt c h
      ((∀ left f, k.q.stall ≠ .vstr num left f) → exec (.trainAck n) s = .next u)
      ∧ ∀ x r vh a m sr b fr off left f, Begun k x r (.vstr vh a m sr b fr off) → k.q.stall = .vstr num left f →
        let lost := (left.filter fun p => p.1 == from_).flatMap fun p => p.2.drop cnt
        let rest := left.filter fun p => p.1 != from_
        let cleared := fun (t : State) => ∀ e < 2 ^ 20, (t.hartAt c h).maskBit m.toNat e = (k.maskBit m.toNat e && !lost.contains e)
        (∀ e ∈ lost, e < 2 ^ 20) →
        (rest ≠ [] → ∃ t, exec (.trainAck n) s = .next t ∧ (t.hartAt c h).q = { k.q with stall := .vstr num rest f } ∧ cleared t)
        ∧ (rest = [] → f = none → ∃ t, exec (.trainAck n) s = .next t ∧ LeftQueue (t.hartAt c h) r ∧ cleared t)
        ∧ (rest = [] → ∀ e code tval, f = some (e, code, tval) → ∃ t, exec (.trainAck n) s = .next t
          ∧ TookTrap (t.hartAt c h) code tval ∧ (t.hartAt c h).vec.vtelem = BitVec.ofNat 32 e ∧ cleared t))

/-- HLAUNCH appends the 16 words at s[a], PTROOT and PRIO bounded at program level, and s[d] is 0, or 1 where 64 wait; a
misaligned address is cause 0x08; while it waits for the stores before it, those of words from before a trap apart
(log 44), it has begun, so that no asynchronous trap comes first. LAUNCH_CHECK passes the head descriptor, or
refuses it with the first failing reason of the table in its completion word, or with ERRADDR where DONE cannot be
used. LAUNCH_PLACE gives the head the lowest idle cores and every hart its start; of written windows, which take
effect first, it fails a snapshot that they would not hold with REASON 4. LAUNCH_COMPLETE writes the number of
harts, through the windows in effect. A grant is 1 to 8. Arming fails for a bad area or a hart past N, else the
units are noted; a unit is copied to the next place of the area for a store past the cut that waits in a buffer or
is about to be performed in it, a full area failing the snapshot while a hart is to cut and holding the store’s work
back after that, and CW is set in the leaves not yet drained that map it, but not in a line with an error that no
mark records, which is marked (R174); after the last cut the drain begins; a unit drained leaves a record with its
image, the last one ends it with DONE; a refused drain fails. What does not apply changes nothing. The model’s own
are: the windows and the end of the area (log 90), PAREA checked before the harts, ARM = 1 ignored whole, the
latched N and area, where a copy and a record stand, what holds the drain up, the copy made ahead and what waits
with a store (logs 41, 50); DONE checked in the windows to come, check and placement as two events and their order,
and premises that keep errors and snapshots out (log 58); no check or placement in a module that does not run (log
53); LMBASE of 8,192 read as 0 (log 100); the words read as scalar loads (log 73). (05_harts R104, 05_harts R105,
05_harts R106, 05_harts R107, 05_harts R108, 05_harts R114, 05_harts R122, 11_route R241, 13_collective R304,
13_collective R305, 13_collective R307, 13_collective R308) -/
def Obligations.LaunchesAndSnapshots : Prop :=
  ∀ (s : State) (t : BitVec 6),
    let n := t.toNat
    let x := s.tenAt n
    let only := fun (u : State) (y : Ten) => u.tenAt n = y ∧ (∀ o, o ≠ n → u.tenAt o = s.tenAt o) ∧ u.cores = s.cores
    let bytes := fun (u : State) => ∀ pa, u.byte pa = s.byte pa
    let done := fun (u : State) (ws : List (Nat × Nat × Nat)) (root va : Word) (v : Nat) => match s.doneAt n ws root va with
      | none => bytes u
      | some (l, tr) => (∀ i < 8, u.byte (tr.pa + i) = BitVec.ofNat 8 (v / 256 ^ i))
        ∧ ∀ pa, pa < tr.pa ∨ tr.pa + 8 ≤ pa → u.byte pa = if pa = l.at_ then s.byte pa ||| 0x20 else s.byte pa
    let calm := s.NoErrors ∧ s.NoSnapshot
    -- the area of a snapshot that runs, and the units it is still to drain with their leaves, lie in some windows
    let held := fun (ws : List (Nat × Nat × Nat)) => x.prop.st ∈ [1, 2, 3] → s.areaIn ws x.prop.area = true
      ∧ ∀ y ∈ x.prop.units, y.drained = true ∨ (inWindows ws (65536 * y.unit) = true ∧ inWindows ws y.leafAt = true)
    -- a snapshot that the windows no longer hold fails, and every CW that is set goes
    let gone := fun (u : State) => (u.tenAt n).prop.st = 5 ∧ (u.tenAt n).prop.reason = 4 ∧ (u.tenAt n).prop.units = []
      ∧ (u.tenAt n).intstat = x.intstat ||| 2
      ∧ ((∀ y ∈ x.prop.units, smem s.latent (lineOf y.leafAt) = false) →
        ∀ a, u.byte a = if x.prop.units.any (fun y => y.leafAt == a) then s.byte a &&& 0x7F else s.byte a)
    -- HLAUNCH
    (∀ (d a : BitVec 5) (P : Nat → Part),
      let k := s.hart
      let va := s.rd a
      let ten := k.place.ten.toNat
      (va.toNat % 128 ≠ 0 → s.Calm → Traps s (exec (.hlaunch d a) s) 0x08 va)
      ∧ (va.toNat % 128 = 0 → k.vec.vs ≠ 0 → (s.memoryQueued = true ∨ k.sbuf ≠ []) →
          exec (.hlaunch d a) s = .next (s.modHart fun h => { h with wait := .begun }))
      ∧ (s.memoryQueued = false ↔ ∀ w ∈ k.q.vq ++ k.q.cq, w.pre = true ∨ (w.meaning s).memory = false)
      ∧ (va.toNat % 128 = 0 → s.memoryQueued = false → k.sbuf = [] → s.Quiet →
        (∀ j < 16, s.checkScalar .load 8 (va + BitVec.ofNat 64 (8 * j)) = .ok (P j) ∧ s.Sound (P j)) →
        let word := fun j => (BitVec.ofNat 64 (s.readLoc (P j).loc 8) : Word)
        let prio := (word 1).extractLsb' 16 2
        let low := if prio.toNat ≤ k.place.prio.toNat then prio else k.place.prio
        let put := fun j => if k.trap.system then word j else if j = 3 then k.ptroot
          else if j = 1 then (word 1).extractLsb' 18 46 ++ low ++ (word 1).extractLsb' 0 16 else word j
        let full := 64 ≤ (s.tenAt ten).lq.length
        ∃ u, exec (.hlaunch d a) s = .next u ∧ (∀ r, u.rd r = if r = 0 then 0 else if r = d then (if full then 1 else 0) else s.rd r)
          ∧ u.hart = { k.retire s.nextPc with sregs := u.hart.sregs } ∧ bytes u
          ∧ (full → u.tens = s.tens)
          ∧ (¬ full → ∃ c, (u.tenAt ten) = { s.tenAt ten with lq := (s.tenAt ten).lq ++ [c] } ∧ c.src = va
            ∧ c.words.toList = (List.range 16).map put)))
    -- LAUNCH_CHECK
    ∧ (∀ c r, s.mgr.state = 1 → x.lq = c :: r → x.checked = false → calm →
      let w := fun i => c.words.toList.getD i 0
      let f := fun i lo len => ((w i).extractLsb' lo len).toNat
      let reasons : List (Bool × Nat) :=
        [(decide ((w 0).toNat % 4 ≠ 0), 5), (decide (f 1 0 8 ∉ [1, 2, 4, 8]), 1), (decide (f 1 8 8 ∉ [8, 16, 32]), 2),
         (decide (f 1 18 6 ≠ 0), 6), (decide (f 1 24 8 ≠ 0), 6),
         (decide (f 1 32 16 = 0) || decide (8 * (s.groupsOf n).length < f 1 32 16), 3), (decide (f 1 48 16 ≠ 0), 6),
         (decide (8192 < f 2 0 16 + f 1 0 8 * f 2 16 16), 4), (decide (f 2 32 32 ≠ 0), 6), (decide ((w 4).toNat % 8 ≠ 0), 7),
         (decide (w 14 ≠ 0 ∨ w 15 ≠ 0), 6)]
      let place := s.doneAt n x.openWins (w 3 &&& ~~~0xFFFF) (w 5)
      (place = none → ∃ u, exec (.launchCheck t) s = .next u ∧ bytes u
        ∧ only u { x with lq := r, checked := false, erraddr := c.src, intstat := x.intstat ||| 1 })
      ∧ (place ≠ none → ∀ p, reasons.find? (fun p => p.1) = some p → ∃ u, exec (.launchCheck t) s = .next u
        ∧ (u.tenAt n).lq = r ∧ (u.tenAt n).checked = false ∧ done u x.openWins (w 3 &&& ~~~0xFFFF) (w 5) (256 * p.2 + 2))
      ∧ (place ≠ none → reasons.find? (fun p => p.1) = none → ∃ u, exec (.launchCheck t) s = .next u ∧ bytes u
        ∧ only u { x with checked := true }))
    ∧ (s.mgr.state ≠ 1 ∨ x.lq = [] ∨ x.checked = true → exec (.launchCheck t) s = .next s)
    -- LAUNCH_PLACE
    ∧ (∀ ws, s.snapshotIn n ws = true ↔ held ws)
    ∧ (s.mgr.state ≠ 1 ∨ x.lq = [] ∨ x.checked = false → exec (.launchPlace t) s = .next s)
    ∧ (∀ c r, s.mgr.state = 1 → x.lq = c :: r → x.checked = true →
      let w := fun i => c.words.toList.getD i 0
      let f := fun i lo len => ((w i).extractLsb' lo len).toNat
      let idle := ((s.groupsOf n).flatMap fun g => (List.range 8).map (8 * g + ·)).filter fun c => (s.coreAt c).launch == none
      (idle.length < f 1 32 16 → exec (.launchPlace t) s = .next s)
      ∧ (f 1 32 16 ≤ idle.length → ∃ u l, exec (.launchPlace t) s = .next u
        ∧ (x.winSet = false ∨ s.snapshotIn n x.openWins = true → bytes u ∧ (x.prop.st ∉ [1, 2] → (u.tenAt n).prop = x.prop))
        ∧ (x.winSet = true → s.snapshotIn n x.openWins = false → gone u)
        ∧ (u.tenAt n).lq = r
        ∧ (u.tenAt n).checked = false ∧ (u.tenAt n).wins = (if x.winSet then x.openWins else x.wins) ∧ (u.tenAt n).winSet = false ∧ u.launches = s.launches ++ [l] ∧ l.id = s.nextId ∧ l.ten = t
        ∧ l.cores = idle.take (f 1 32 16) ∧ l.left = f 1 0 8 * f 1 32 16 ∧ l.groups = w 4 ∧ l.done = w 5 ∧ l.farms = []
        ∧ (∀ o, o ∉ l.cores → (u.coreAt o).harts = (s.coreAt o).harts ∧ (u.coreAt o).launch = (s.coreAt o).launch)
        ∧ ∀ j < f 1 32 16,
          let p := l.cores.getD j 0
          let y := u.coreAt p
          y.launch = some l.id ∧ y.ltag = (s.coreAt p).ltag + 1 ∧ (p, y.ltag) ∈ l.tags ∧ (∀ e < 64, y.routes[e]?.getD 0 = 0)
            ∧ (∀ g, y.frame g = Frame.init) ∧ y.lost = 0 ∧ y.stale = 0 ∧ y.late = 0 ∧ (∀ q, (y.chan q).cwp = 0 ∧ (y.chan q).cmds = [])
            ∧ y.lm = (s.coreAt p).lm
            ∧ ∀ h < f 1 0 8,
              let k := u.hartAt p h
              k.pc = w 0 ∧ (∀ r : BitVec 5, k.rd r = if 3 ≤ r.toNat ∧ r.toNat ≤ 10 then w (r.toNat + 3) else 0)
                ∧ k.cfg = Cfg.init (BitVec.ofNat 64 (f 1 8 8)) ∧ k.vec = VecRegs.init
                ∧ k.trap = { TrapRegs.init with stvec := x.trapvec, dbg := x.session }
                ∧ k.store = { chunks := [], poison := [], masks := [], binds := [], tiles := [] } ∧ k.ptroot = w 3 &&& ~~~0xFFFF
                ∧ k.lmbase = BitVec.ofNat 13 (f 2 0 16 + h * f 2 16 16) ∧ k.lmsize = BitVec.ofNat 14 (f 2 16 16) ∧ k.ecap = 64
                ∧ k.inbox = Hart.init.inbox ∧ k.q = Hart.init.q ∧ k.sbuf = [] ∧ k.wait = .none ∧ k.farms = 0 ∧ k.halted = false
                ∧ k.place = { placed := true, launch := l.id, ten := t, h := BitVec.ofNat 8 (f 1 0 8), lcore := BitVec.ofNat 8 j
                              prio := BitVec.ofNat 2 (f 1 16 2), levels := [] }))
    -- LAUNCH_COMPLETE
    ∧ (∀ i : BitVec 16, (∀ l, s.launches[i.toNat]? = some l → l.left ≠ 0) → exec (.launchComplete i) s = .next s)
    ∧ (∀ (i : BitVec 16) l, s.launches[i.toNat]? = some l → l.left = 0 → l.ten = t → calm → ∃ u, exec (.launchComplete i) s = .next u
      ∧ u.launches = s.launches.filter (fun o => o.id != l.id) ∧ done u x.wins l.ptroot l.done (2 ^ 32 * (l.h * l.cores.length) + 1)
      ∧ u.tens = s.tens)
    -- power
    ∧ (∀ (c : BitVec 7) (g : BitVec 4) (half : Bool),
      (1 ≤ g.toNat → g.toNat ≤ 8 → ∃ u, exec (.vgrantWrite c g) s = .next u ∧ u.coreAt c.toNat = { s.coreAt c.toNat with vgrant := g }
        ∧ (∀ o, o ≠ c.toNat → u.coreAt o = s.coreAt o) ∧ { u with cores := [] } = { s with cores := [] })
      ∧ (g.toNat = 0 ∨ 8 < g.toNat → exec (.vgrantWrite c g) s = .next s)
      ∧ ∃ u, exec (.combRateHalve c half) s = .next u ∧ u.coreAt c.toNat = { s.coreAt c.toNat with halfRate := half }
        ∧ (∀ o, o ≠ c.toNat → u.coreAt o = s.coreAt o) ∧ { u with cores := [] } = { s with cores := [] })
    -- Propolis
    ∧ (let p := x.prop
      let failed := fun (u : State) (reason : BitVec 5) => (u.tenAt n).prop.st = 5 ∧ (u.tenAt n).prop.reason = reason
        ∧ (u.tenAt n).prop.units = [] ∧ (u.tenAt n).intstat = x.intstat ||| 2
      let armed := fun v : Word => v.extractLsb' 0 48
      let past := fun v : Word => ∃ h ∈ s.hartsOf n, (armed v).toNat < (s.hartAt h.1 h.2).cfg.cstep.toNat
      let free := p.st = 0 ∨ p.st = 4 ∨ p.st = 5
      -- every CW that is set goes
      -- no line of a leaf has an error that no mark records
      let sound := ∀ y ∈ p.units, smem s.latent (lineOf y.leafAt) = false
      let uncw := fun (u : State) => sound → ∀ a, u.byte a = if p.units.any (fun y => y.leafAt == a) then s.byte a &&& 0x7F else s.byte a
      -- the unit of the area that holds a copy
      let at_ := fun (slot : Nat) => ((p.area >>> 16).toNat + slot) % 2 ^ 31
      (∀ v : Word,
        (v.getLsbD 63 = false → ∃ u, exec (.propolisArm t v) s = .next u ∧ bytes u
          ∧ only u { x with prop := { p with arm := false, step := armed v } })
        ∧ (v.getLsbD 63 = true → ¬ free → exec (.propolisArm t v) s = .next s)
        ∧ (v.getLsbD 63 = true → free → ∃ u, exec (.propolisArm t v) s = .next u ∧ bytes u ∧ (u.tenAt n).prop.n = armed v
          ∧ (u.tenAt n).prop.area = p.parea ∧ (u.tenAt n).prop.arm = true
          ∧ (s.areaGood n p.parea = false → failed u 4) ∧ (s.areaGood n p.parea = true → past v → failed u 1)
          ∧ (s.areaGood n p.parea = true → ¬ past v → (u.tenAt n).prop.st = 1 ∧ (u.tenAt n).prop.reason = 0
            ∧ (u.tenAt n).prop.uncut = s.hartsOf n ∧ (u.tenAt n).prop.copied = 0 ∧ (u.tenAt n).prop.drained = 0
            ∧ (∀ l ∈ s.launchesOf n, ∀ y ∈ s.snUnits n l.ptroot, ∃ z ∈ (u.tenAt n).prop.units, z.unit = y.unit ∧ z.page = y.page ∧ z.root = y.root)
            ∧ ∀ z ∈ (u.tenAt n).prop.units, ∃ l ∈ s.launchesOf n, z ∈ s.snUnits n l.ptroot)))
      ∧ (∀ i : BitVec 32,
        let cw := fun (a : Nat) (z : Sys2Proof.Machine.PUnit) => p.units.any fun y => y.unit == z.unit && !y.drained && y.leafAt == a
        let full := (p.area.toNat % 65536) * 16 ≤ p.copied.toNat
        (∀ v, s.storeAwaits p.n v = true ↔ ∃ c ∈ s.cores, ∃ h ∈ c.2.harts, ∃ b ∈ h.2.sbuf, p.n.toNat < b.step.toNat
          ∧ ∃ pa, b.loc = .mem pa ∧ (pa / 65536 = v ∨ (pa + b.n - 1) / 65536 = v))
        ∧ ((∀ z, p.units[i.toNat]? = some z →
            ¬ ((p.st = 2 ∨ p.st = 3) ∧ z.image = none ∧ z.drained = false ∧ s.storeAwaits p.n z.unit = true ∧ ¬ (full ∧ p.uncut = []))) →
          exec (.propolisUnitCopy t i) s = .next s)
        ∧ ∀ z, p.units[i.toNat]? = some z → (p.st = 2 ∨ p.st = 3) → z.image = none → z.drained = false →
          ((∀ o, o ≠ n → (s.tenAt o).prop.st ∉ [1, 2, 3]) → ∀ (step : Option Word) pa (v m : Byte),
            p.units.find? (fun y => y.unit == pa / 65536 && !y.drained) = some z →
            (∀ c, step = some c → p.n.toNat < c.toNat) → s.beforeStore step pa v m = s.copyUnit n z.unit)
          ∧ (full → p.uncut ≠ [] → failed (s.copyUnit n z.unit) 2 ∧ uncw (s.copyUnit n z.unit))
          ∧ (full → p.uncut = [] → (s.copyUnit n z.unit).storeWaits = true)
          ∧ (s.storeAwaits p.n z.unit = true → ¬ (full ∧ p.uncut = []) → exec (.propolisUnitCopy t i) s = .next (s.copyUnit n z.unit))
          ∧ (¬ full → s.memOk → ∃ u, s.copyUnit n z.unit = u
            ∧ (u.tenAt n).prop.units[i.toNat]? = some { z with image := some p.copied.toNat }
            ∧ (u.tenAt n).prop.st = p.st ∧ (u.tenAt n).prop.copied = p.copied + 1
            ∧ (sound → ∀ a, u.byte a = if a / 65536 = at_ p.copied.toNat then s.byte (65536 * z.unit + a % 65536)
                else if cw a z then s.byte a ||| 0x80 else s.byte a)))
      -- what waits for a drain waits whole; a waiting card lets the other tenancies’ cards go first
      ∧ (∀ (w : State) (o : Turn) u, turnWork o (o.start w) = .next u → u.storeWaits = true → takeTurn o w = .next (o.start w))
      ∧ (∀ (st : BitVec 4) ten c, (s.stackAt st.toNat).next = some (ten, c) → (runCard st.toNat ten c c.count s).storeWaits = true →
        exec (if c.op = 1 then .ired st else if c.op = 2 then .rcopy st else .rfill st) s
          = .next (if c.op.toNat ∈ [1, 2, 3] then s.modStackAt st.toNat fun e => { e with last := ten } else s))
      ∧ (let ended := (p.st = 1 ∨ p.st = 2) ∧ p.uncut = [] ∧ s.preCutLeft n p.n = false
        (¬ ended → exec (.propolisLastCut t) s = .next s)
        ∧ (ended → ∃ u, exec (.propolisLastCut t) s = .next u ∧ (u.tenAt n) = { x with prop := { p with st := 3 } }
          ∧ (sound → ∀ a, u.byte a = if p.units.any (fun y => y.image == none && y.leafAt == a) then s.byte a ||| 0x80 else s.byte a)))
      ∧ (p.st ≠ 3 ∨ s.reachable (p.pdest >>> 47).toNat = false → exec (.propolisDrainUnit t) s = .next s)
      ∧ (p.st = 3 → s.reachable (p.pdest >>> 47).toNat = true → ∀ l y r, p.units = l ++ y :: r → (∀ z ∈ l, z.drained = true) →
        y.drained = false →
        let units := l ++ { y with drained := true, image := none } :: r
        ∃ u, exec (.propolisDrainUnit t) s = .next u
          ∧ u.drains = s.drains ++ [Drain.mk (p.pdest + BitVec.ofNat 64 (65600 * p.drained.toNat)) (BitVec.ofNat 64 (65536 * y.page)) y.root
              (p.n.setWidth 64) ((s.mem.filter fun b => b.1 / 65536 == (match y.image with
                | some slot => at_ slot
                | none => y.unit)).map fun b => (b.1 % 65536, b.2))]
          ∧ ((u.tenAt n).prop.drained = p.drained + 1)
          ∧ (units.all (fun z => z.drained) = false → (u.tenAt n).prop.st = 3 ∧ (u.tenAt n).prop.units = units)
          ∧ (units.all (fun z => z.drained) = true → (u.tenAt n).prop.st = 4 ∧ (u.tenAt n).prop.units = [] ∧ (u.tenAt n).intstat = x.intstat ||| 2)
          ∧ (smem s.latent (lineOf y.leafAt) = false →
            ∀ a, u.byte a = if a = y.leafAt ∧ units.all (fun z => z.leafAt != y.leafAt || z.drained) then s.byte a &&& 0x7F else s.byte a))
      ∧ (p.st = 3 → s.reachable (p.pdest >>> 47).toNat = true → (∀ z ∈ p.units, z.drained = true) →
        ∃ u, exec (.propolisDrainUnit t) s = .next u ∧ bytes u ∧ u.drains = s.drains ∧ (u.tenAt n).prop.st = 4
          ∧ (u.tenAt n).intstat = x.intstat ||| 2)
      ∧ (p.st ≠ 3 → exec (.propolisDrainRefused t) s = .next s)
      ∧ (p.st = 3 → ∃ u, exec (.propolisDrainRefused t) s = .next u ∧ failed u 3 ∧ uncw u)
      ∧ (∀ y, p.st = 3 → p.units = [y] → smem s.latent (lineOf y.leafAt) = true → ∃ u, exec (.propolisDrainRefused t) s = .next u
          ∧ failed u 3 ∧ bytes u ∧ u.marks = sadd s.marks (lineOf y.leafAt) ∧ u.latent = sdel s.latent (lineOf y.leafAt)))

/-- Sixteen LQPUSH writes in order append a descriptor where fewer than 64 wait; any other pattern drops the staging and
sets LERR. INTSTAT bits clear by ones; PREEMPT sets PEND in all harts of the tenancy, or in one; ATTREQ builds the
report; the other registers of the block take their fields, and a write of any of these offsets is the same event.
DEVNUM is taken once; PLIMIT from 1,000 to 3,400; GROUPOWN while the group is idle, its cores zeroised; a window
while no launch runs. PWRREQ of 1 is refused while a launch runs, else memory, cores and sessions are gone; leaving
OFF, or power on, boots. While STATE is 2 or 3 the block takes nothing but PWRREQ. One of the 72 ports goes down or
up. A host write to a module that runs lands where the address exists, and faults otherwise (the model’s stop). The
model’s own are: the 64 bits of INTMASK and the pattern of LQPUSH (log 51), the boot of the last image by PWRREQ and
what OFF ends (log 53), the values of GROUPOWN that are ignored and what is zeroised (log 61), the 47 bits of a
host’s address (log 63), what HBM4 reads as after OFF (log 4), and of a boot the ports that stay down (log 27) and
the zeros that it leaves where no reset value is given (log 26). (15_device R338, 15_device R340, 15_device R341,
15_device R342, 15_device R345, 15_device R346, 15_device R347, 15_device R348, 15_device R351, 15_device R352,
15_device R355, 15_device R357) -/
def Obligations.HostAndManagerWrites : Prop :=
  ∀ (s : State) (t : BitVec 6) (v : Word),
    let n := t.toNat
    let x := s.tenAt n
    let m := s.mgr
    let takes := fun (i : Instr) (y : Ten) => ∃ u, exec i s = .next u ∧ u.tenAt n = y ∧ (∀ o, o ≠ n → u.tenAt o = s.tenAt o)
      ∧ { u with tens := [], msix := [] } = { s with tens := [], msix := [] }
    let reg := fun (off : Nat) => Instr.registerWrite (.ten t) (BitVec.ofNat 16 off) v
    let same := fun (i : Instr) => exec i s = .next s
    let mgr := fun (off : Nat) => Instr.registerWrite .mgr (BitVec.ofNat 16 off) v
    let lets := fun (i : Instr) (y : Mgr) => exec i s = .next { s with mgr := y }
    let open_ := m.state ≠ 2 ∧ m.state ≠ 3
    let boots := fun (i : Instr) (img : Word) => exec i s = .next { State.reset with
      tick := s.tick, agenda := s.agenda, msix := s.msix, out := s.out, drains := s.drains, down := s.down
      mgr := { Mgr.init with
        boots := m.boots + 1
        image := img
        sec := (Config.imageVerdict img).getD false
        state := if (Config.imageVerdict img).isSome then 1 else 2 } }
    -- the launch queue
    (takes (.lqpush t 0 v) { x with staging := [v], intstat := if x.staging = [] then x.intstat else x.intstat ||| 1 })
    ∧ (∀ i : BitVec 4, i ≠ 0 → (x.staging = [] ∨ x.staging.length ≠ i.toNat) →
        takes (.lqpush t i v) { x with staging := [], intstat := x.intstat ||| 1 })
    ∧ (∀ i : BitVec 4, i ≠ 0 → i ≠ 15 → x.staging.length = i.toNat → takes (.lqpush t i v) { x with staging := x.staging ++ [v] })
    ∧ (x.staging.length = 15 → x.lq.length < 64 → ∃ c, c.words.toList = x.staging ++ [v] ∧ c.src = BitVec.allOnes 64
        ∧ takes (.lqpush t 15 v) { x with staging := [], lq := x.lq ++ [c] })
    ∧ (x.staging.length = 15 → 64 ≤ x.lq.length → takes (.lqpush t 15 v) { x with staging := [], intstat := x.intstat ||| 1 })
    -- interrupts, pre-emption
    ∧ takes (.intstatClear t v) { x with intstat := x.intstat &&& ~~~(v.extractLsb' 0 3) }
    ∧ (∃ u, exec (.preempt t v) s = .next u ∧ { u with cores := [] } = { s with cores := [] } ∧ ∀ c h, u.hartAt c h =
        if (c, h) ∈ s.hartsOf n ∧ (v.getLsbD 31 = true ∨ (s.physCore n (v.extractLsb' 8 7).toNat = some c ∧ h = (v.extractLsb' 0 3).toNat))
        then { s.hartAt c h with trap := { (s.hartAt c h).trap with pend := true } } else s.hartAt c h)
    -- attestation
    ∧ (v ≠ 1 → same (.attreq t v))
    ∧ (v = 1 → ∃ r, takes (.attreq t v) { x with attrep := r } ∧ r.length = 192 ∧ r.take 4 = x.attnonce.toList
        ∧ r.getD 12 0 = m.devnum.setWidth 64 ∧ r.getD 13 0 = (if m.sec then 1 else 0) + 2 ^ 8 * BitVec.ofNat 64 n
          + 2 ^ 16 * ((if x.session then 2 else 0) + (if x.token then 1 else 0))
        ∧ (∀ i < 128, ((r.getD (14 + i / 32) 0).extractLsb' (2 * (i % 32)) 2).toNat
          = ((s.physCore n i).map fun c => (s.coreAt c).power).getD 0) ∧ ∀ i, 26 ≤ i → i < 32 → r.getD i 0 = 0)
    -- the other registers of the block
    ∧ takes (reg 0x88) { x with trapvec := v &&& ~~~3 } ∧ takes (reg 0x98) { x with intmask := v }
    ∧ takes (reg 0x208) { x with prop := { x.prop with parea := v } }
    ∧ takes (reg 0x210) { x with prop := { x.prop with pdest := v &&& ~~~0xFFFF } }
    ∧ (∀ i < 8, ∃ u, exec (reg (0x100 + 8 * i)) s = .next u ∧ ∀ j < 8,
        (u.tenAt n).classes[j]? = if j = i then x.classes[j]?.map (fun c =>
          SliceClass.mk (if v.extractLsb' 22 2 = 3 then c.pol else v.extractLsb' 22 2) (v.extractLsb' 20 2) (v.extractLsb' 0 16))
          else x.classes[j]?)
    ∧ (∀ i < 4, ∃ u, exec (reg (0x400 + 8 * i)) s = .next u ∧ ∀ j < 4, (u.tenAt n).attnonce[j]? = if j = i then some v else x.attnonce[j]?)
    ∧ (∀ off ∈ [0x80, 0xA8, 0xB0, 0xB8, 0xC0, 0x140, 0x218, 0x300, 0x428, 0x1000, 0x15F8, 0xFFF8], same (reg off))
    ∧ (∀ i : BitVec 4, exec (reg (8 * i.toNat)) s = exec (.lqpush t i v) s) ∧ exec (reg 0x90) s = exec (.intstatClear t v) s
    ∧ exec (reg 0xA0) s = exec (.preempt t v) s ∧ exec (reg 0x200) s = exec (.propolisArm t v) s
    ∧ exec (reg 0x420) s = exec (.attreq t v) s
    -- the manager block
    ∧ (open_ → m.devlock = false → lets (.devnumWrite v) { m with devnum := v.setWidth 17, devlock := true })
    ∧ (¬ open_ ∨ m.devlock = true → same (.devnumWrite v))
    ∧ (let w := (v.extractLsb' 0 12).toNat
      (open_ → 1000 ≤ w → w ≤ 3400 → lets (.plimitWrite v) { m with plimit := v.extractLsb' 0 12 })
      ∧ (¬ open_ ∨ w < 1000 ∨ 3400 < w → same (.plimitWrite v)))
    ∧ (∀ g : BitVec 4,
        let o := v.extractLsb' 0 7
        let cs := (List.range 8).map (8 * g.toNat + ·)
        let good := open_ ∧ (o.toNat < 64 ∨ o = 0x7F) ∧ (∀ c ∈ cs, (s.coreAt c).launch = none) ∧ m.groupown[g.toNat]? ≠ some o
        (¬ good → same (.groupownWrite g v))
        ∧ (good → ∃ u, exec (.groupownWrite g v) s = .next u ∧ u.mgr = { m with groupown := m.groupown.setIfInBounds g.toNat o, traced := m.traced.filter fun p => !cs.contains p.1 }
          ∧ (∀ c, c ∉ cs → u.coreAt c = s.coreAt c) ∧ (∀ c ∈ cs, u.coreAt c = { Core.init with
            vgrant := (s.coreAt c).vgrant, halfRate := (s.coreAt c).halfRate, ltag := (s.coreAt c).ltag, tlb := (s.coreAt c).tlb })
          ∧ { u with cores := [], mgr := m } = { s with cores := [] }))
    ∧ (∀ i : BitVec 2,
        let b := x.winbase[i.toNat]?.getD 0
        let region := (v.extractLsb' 44 3).toNat
        let lim := x.winlim[i.toNat]?.getD 0
        let base : Word := (v &&& 0x00007FFFFFFF0000) ||| (if v.getLsbD 63 && decide (region < 2)
          && decide ((v.extractLsb' 16 28).toNat < (lim.extractLsb' 16 28).toNat) then (1 : Word) <<< 63 else 0)
        let good := open_ ∧ ∀ l ∈ s.launches, l.ten = t → l.left = 0
        (¬ good → same (.windowWrite t i false v) ∧ same (.windowWrite t i true v))
        ∧ (good → takes (.windowWrite t i false v) { x with winSet := true, winbase := x.winbase.setIfInBounds i.toNat base }
          ∧ takes (.windowWrite t i true v) { x with
              winSet := true
              winlim := x.winlim.setIfInBounds i.toNat (v &&& 0x00000FFFFFFF0000)
              winbase := if (v.extractLsb' 16 28).toNat ≤ (b.extractLsb' 16 28).toNat
                then x.winbase.setIfInBounds i.toNat (b &&& ~~~((1 : Word) <<< 63)) else x.winbase }))
    ∧ (open_ → lets (mgr 0x3000) { m with dbgsel := v &&& 0x077F003F } ∧ lets (mgr 0x3018) { m with dbgaddr := v }
        ∧ lets (mgr 0x3020) { m with dbgdata := v } ∧ lets (mgr 0x3028) { m with dbgtbuf := v }
        ∧ (∀ i < 512, ∃ u, exec (mgr (0x2000 + 8 * i)) s = .next u ∧ { u with mgr := m } = s
          ∧ ∀ j, mget 0 u.mgr.tkeys j = if j = i then v else mget 0 m.tkeys j)
        ∧ ∀ i < 512, ∃ u, exec (mgr (0x4000 + 8 * i)) s = .next u ∧ { u with mgr := m } = s
          ∧ ∀ j, u.mgr.bufWord j = if j = i then v else m.bufWord j)
    ∧ (¬ open_ → ∀ off < 2 ^ 16, off / 8 ≠ 3 → same (mgr off))
    ∧ (∀ p ∈ [(1, Instr.nonce), (2, .token), (3, .attach), (4, .detach), (5, .halt), (6, .resume), (7, .step), (8, .read), (9, .write),
        (10, .traceon), (11, .traceoff)], v.toNat = p.1 → exec (mgr 0x3008) s = exec p.2 s)
    -- power
    ∧ (s.launches.any (fun l => l.left != 0) = true → lets .pwrreqEnterOff { m with offref := true })
    ∧ (s.launches.any (fun l => l.left != 0) = false → ∃ u, exec .pwrreqEnterOff s = .next u
        ∧ u.mgr = { m with state := 3, offref := false, traced := none, busy := none } ∧ u.cores = [] ∧ u.launches = [] ∧ u.fabric = [] ∧ u.engines = []
        ∧ (∀ a, u.byte a = memDefault ∧ u.marked (.mem a) = false) ∧ ∀ o, (u.tenAt o).session = false ∧ (u.tenAt o).token = false
          ∧ ((s.tenAt o).session = true → (u.tenAt o).intstat.getLsbD 2 = true))
    ∧ (m.state = 3 → boots (.pwrreqLeaveOff v) v) ∧ (m.state ≠ 3 → same (.pwrreqLeaveOff v))
    ∧ (m.state = 0 → boots (.powerOn v) v) ∧ (m.state ≠ 0 → same (.powerOn v))
    ∧ (v = 1 → exec (mgr 0x18) s = exec .pwrreqEnterOff s) ∧ (v = 2 → exec (mgr 0x18) s = exec (.pwrreqLeaveOff m.image) s)
    -- ports and memory
    ∧ (∀ k : BitVec 16, 72 ≤ k.toNat → same (.tamlinkPortDown k) ∧ same (.tamlinkPortUp k))
    ∧ (∀ k : BitVec 16, k.toNat < 72 → ∃ d e, exec (.tamlinkPortDown k) s = .next { s with down := d } ∧ exec (.tamlinkPortUp k) s = .next { s with down := e }
        ∧ ∀ p, (p ∈ d ↔ p ∈ s.down ∨ p = k.toNat) ∧ (p ∈ e ↔ p ∈ s.down ∧ p ≠ k.toNat))
    ∧ (∀ (pa : Word) (w : BitVec 3),
        let a := pa.toNat % 2 ^ 47
        let len := w.toNat + 1
        let there := memExists a ∧ memExists (a + len - 1)
        (m.state = 1 → there → s.NoErrors → s.NoSnapshot → ∃ u, exec (.hostWrite pa w v) s = .next u ∧ u.cores = s.cores ∧ u.tens = s.tens
          ∧ ∀ p, u.byte p = if a ≤ p ∧ p < a + len then v.extractLsb' (8 * (p - a)) 8 else s.byte p)
        ∧ (m.state ≠ 1 → same (.hostWrite pa w v))
        ∧ (m.state = 1 → ¬ there → exec (.hostWrite pa w v) s = .fault (.noSuchAddress pa.toNat)))

/-- A module that is OFF or not verified ignores commands, and so does the port while one is under way. Every command is
refused with reason 6 where the module has not booted. NONCE writes a fresh nonce, whatever it is; TOKEN accepts a
staged token that verifies, else reason 5. Every other command is refused with reason 1 in PRODUCTION without a
token, 2 without a session but ATTACH, 3 without such a core or hart, 4 where the hart must be halted and is not, 7
for a bad space, index or buffer, and then only DBGRES changes. ATTACH opens a session and sets SSTATUS.DBG; DETACH
resumes its harts and ends it; HALT stops the hart where it stands, at the end of an instruction that has begun, or
once a word of several grants that has begun is done (14_system R316); RESUME lets it go on; STEP for one
instruction, at whose end it halts and the command is done; READ and WRITE move eight bytes of the place that
DBGADDR names; TRACEON begins the trace of a hart, and TRACEOFF and DETACH end it for the harts of their tenancy.
DONE is set. The model’s own are the order of the reasons, the low bits that WRITE clears in the PC and its leaving
VDIRTY, the even index of a tile, and the values of DBGCMD that name nothing (log 62); whether a token verifies is
not the model’s to say, so that clause has no witness (log 14). (15_device R349, 15_device R350, 15_device R358,
14_system R333) -/
def Obligations.DebugPort : Prop :=
  ∀ (s : State),
    let m := s.mgr
    let n := (m.dbgsel.extractLsb' 0 6).toNat
    let x := s.tenAt n
    let refuse := fun (i : Instr) (r : Nat) => exec i s = .next { s with mgr := { m with dbgres := BitVec.ofNat 64 (256 * r + 2 + 1) } }
    let sealed := m.sec = true ∧ x.token = false
    let idle := m.state ≠ 2 ∧ m.state ≠ 3 ∧ m.busy = none
    let runs := idle ∧ m.state = 1
    let able := runs ∧ ¬ sealed
    let live := able ∧ x.session = true
    let rest := fun (u : State) => u.mem = s.mem ∧ u.marks = s.marks ∧ u.launches = s.launches ∧ u.fabric = s.fabric
    let done := fun (u : State) => u.mgr = { m with dbgres := 1 } ∧ rest u
    let others := fun (u : State) c h => ∀ d i, (d, i) ≠ (c, h) → u.hartAt d i = s.hartAt d i
    -- NONCE and TOKEN
    (runs → ∃ u, exec .nonce s = .next u ∧ u.mgr = { m with dbgres := 1, dbgnonce := u.mgr.dbgnonce } ∧ { u with mgr := m } = s)
    ∧ (runs → s.tokenGood = true → ∃ u, exec .token s = .next u ∧ done u ∧ u.tenAt n = { x with token := true }
        ∧ (∀ o, o ≠ n → u.tenAt o = s.tenAt o) ∧ u.cores = s.cores)
    ∧ (runs → s.tokenGood = false → refuse .token 5)
    -- refusals
    ∧ (∀ i ∈ [Instr.nonce, .token, .attach, .detach, .halt, .resume, .step, .read, .write, .traceon, .traceoff],
        (¬ idle → exec i s = .next s) ∧ (idle → m.state ≠ 1 → refuse i 6))
    ∧ (∀ i ∈ [Instr.attach, .detach, .halt, .resume, .step, .read, .write, .traceon, .traceoff],
        (runs → sealed → refuse i 1) ∧ (able → x.session = false → i ≠ .attach → refuse i 2))
    ∧ (∀ i ∈ [Instr.halt, .resume, .step, .read, .write, .traceon, .traceoff], live → s.selCore = none → refuse i 3)
    -- sessions
    ∧ (able → ∃ u, exec .attach s = .next u ∧ done u ∧ (u.tenAt n) = { x with session := true, intstat := x.intstat ||| 4 }
        ∧ ∀ c h, u.hartAt c h = if (c, h) ∈ s.hartsOf n then { s.hartAt c h with trap := { (s.hartAt c h).trap with dbg := true } }
          else s.hartAt c h)
    ∧ (live → ∃ u, exec .detach s = .next u
        ∧ u.mgr = { m with dbgres := 1, traced := m.traced.filter fun p => !(s.ownerOf p.1 == n) } ∧ rest u ∧ (u.tenAt n) = { x with session := false, token := false, intstat := x.intstat ||| 4 }
        ∧ ∀ c h, (c, h) ∈ s.hartsOf n → (u.hartAt c h).halted = false ∧ (u.hartAt c h).trap.dbg = false
          ∧ (u.hartAt c h).pc = (s.hartAt c h).pc ∧ (u.hartAt c h).sregs = (s.hartAt c h).sregs)
    -- a core, a hart
    ∧ (∀ c, live → s.selCore = some c →
      let h := (m.dbgsel.extractLsb' 24 3).toNat
      let k := s.hartAt c h
      let begun := fun (u : State) => u.mgr = { m with dbgres := 0, busy := some (c, h) } ∧ rest u
      let goes := fun (g : Hart) => g.halted = false ∧ g.pc = k.pc ∧ g.sregs = k.sregs ∧ g.trap = k.trap ∧ g.store = k.store
      (∀ i ∈ [Instr.halt, .resume, .step], k.place.placed = false → refuse i 3)
      ∧ (∀ i ∈ [Instr.resume, .step], k.place.placed = true → k.halted = false → refuse i 4)
      ∧ (k.place.placed = true → k.halted = false → k.wait = .begun → ∃ u, exec .halt s = .next u ∧ begun u ∧ others u c h
        ∧ u.hartAt c h = { k with dbgStep := true })
      ∧ (k.place.placed = true → (k.halted = true ∨ k.wait ≠ .begun ∧ k.busy = false) → ∃ u, exec .halt s = .next u ∧ done u ∧ others u c h ∧ (u.hartAt c h).halted = true
        ∧ (u.hartAt c h).pc = k.pc ∧ (u.hartAt c h).sregs = k.sregs ∧ (u.hartAt c h).trap = k.trap
        ∧ (u.hartAt c h).store.chunks = k.store.chunks
        ∧ (k.halted = true → u.hartAt c h = k) ∧ (k.halted = false → (u.hartAt c h).wait = .none ∧ (u.hartAt c h).dbgStep = false))
      ∧ (k.place.placed = true → k.halted = false → k.wait ≠ .begun → k.sequencing = true → k.q.comb = none → ∀ xs es t, headRun k.q.vq = some xs →
        k.q.flight = some es → runConvoy (s.at c h) (xs.map (Entry.cword (s.at c h))) es (2 ^ 32) = .done t → t.cc = c → t.ch = h →
        ∃ u, exec .halt s = .next u ∧ (u.hartAt c h).halted = true ∧ (u.hartAt c h).q.vq = t.hart.q.vq.drop xs.length
          ∧ ∀ pa, u.byte pa = t.byte pa)
      ∧ (k.place.placed = true → k.halted = true →
        (∃ u, exec .resume s = .next u ∧ done u ∧ others u c h ∧ goes (u.hartAt c h) ∧ (u.hartAt c h).dbgStep = k.dbgStep)
        ∧ ∃ u, exec .step s = .next u ∧ begun u ∧ others u c h ∧ goes (u.hartAt c h) ∧ (u.hartAt c h).dbgStep = true)
      -- READ and WRITE
      ∧ (let i := (m.dbgaddr.extractLsb' 0 56).toNat
        let y := s.coreAt c
        let halted := k.place.placed = true ∧ k.halted = true
        let at_ : Option (Word × Bool) := match (m.dbgaddr.extractLsb' 56 8).toNat with
          | 0 => if i < 32 then some (k.rd (BitVec.ofNat 5 i), true) else none
          | 1 => if csrReads true i then some (s.csr c h i, csrWrites true i) else none
          | 2 => if i < 2 ^ 21 ∧ i / 65536 < k.cfg.nreg.toNat ∧ i % 65536 < cpr k k.cfg then some (k.chunk k.cfg (i / 65536) (i % 65536), true) else none
          | 3 => if i < 2 ^ 19 ∧ i % 65536 < k.lanes * 512 then some (k.maskChunk (i / 65536) (i % 65536), true) else none
          | 4 => if i < 2 ^ 13 ∧ i % 2 = 0 ∧ i / 1024 < 8 / k.place.h.toNat then
              some (k.tileAt (i / 1024) (i / 32 % 32) (i / 2 % 16 * 2 + 1) ++ k.tileAt (i / 1024) (i / 32 % 32) (i / 2 % 16 * 2), true) else none
          | 5 => if i < 2 ^ 11 ∧ i < k.image.length then some (k.image.getD i 0, false) else none
          | 6 => if i < 2 ^ 18 then some (y.lmWord i, true) else none
          | 7 => if i < 64 then some (y.routes[i]?.getD 0, true) else none
          | 8 => if i = 0 then some (k.pc, true) else none
          | _ => none
        let space := (m.dbgaddr.extractLsb' 56 8).toNat
        let free := space = 6 ∨ space = 7 ∨ halted
        (at_ = none → free → refuse .read 7 ∧ refuse .write 7)
        ∧ (∀ v w, at_ = some (v, w) → free →
          exec .read s = .next { s with mgr := { m with dbgdata := v, dbgres := 1 } }
          ∧ (w = false → refuse .write 7)
          ∧ (w = true → ∃ u, exec .write s = .next u ∧ done u ∧ others u c h ∧ (u.tenAt n) = x
            ∧ (match space with
              | 0 => ∀ r, (u.hartAt c h).rd r = if r = 0 then 0 else if r.toNat = i then m.dbgdata else k.rd r
              | 1 => u = { s.putCsr true c h i m.dbgdata with mgr := { m with dbgres := 1 } }
              | 2 => ∀ e, mget 0 (u.hartAt c h).store.chunks e = if e = i / 65536 * cpr k k.cfg + i % 65536 then m.dbgdata else mget 0 k.store.chunks e
              | 3 => ∀ a b, b < 16384 → ((u.hartAt c h).maskChunk a b = if a = i / 65536 ∧ b = i % 65536 then m.dbgdata else k.maskChunk a b)
                  ∧ (u.hartAt c h).store.binds = k.store.binds.filter fun r => r.1 != i / 65536 || r.2.bound
              | 4 => ∀ a b d, b < 32 → d < 32 → (u.hartAt c h).tileAt a b d = if a = i / 1024 ∧ b = i / 32 % 32 ∧ d / 2 = i / 2 % 16 then
                  m.dbgdata.extractLsb' (32 * (d % 2)) 32 else k.tileAt a b d
              | 6 => (∀ e, (u.coreAt c).lmWord e = if e = i then m.dbgdata else y.lmWord e) ∧ u.hartAt c h = k
              | 7 => (∀ e < 64, (u.coreAt c).routes[e]?.getD 0 = if e = i then m.dbgdata else y.routes[e]?.getD 0) ∧ u.hartAt c h = k
              | _ => u.hartAt c h = { k with pc := m.dbgdata &&& ~~~3 })))
        ∧ (space < 9 → space ≠ 6 → space ≠ 7 → m.dbgPlace ≠ none → k.place.placed = false → refuse .read 3 ∧ refuse .write 3)
        ∧ (space < 9 → space ≠ 6 → space ≠ 7 → m.dbgPlace ≠ none → k.place.placed = true → k.halted = false →
          refuse .read 4 ∧ refuse .write 4))
      -- trace
      ∧ (s.traceGood = false → refuse .traceon 7)
      ∧ (s.traceGood = true → exec .traceon s = .next { s with mgr := { m with traced := some (c, h), tracebuf := m.dbgtbuf, dbgtptr := 0, dbgres := 1 } })
      ∧ exec .traceoff s = .next { s with mgr := { m with traced := m.traced.filter fun p => !(s.ownerOf p.1 == n), dbgres := 1 } })
    -- the end of a step
    ∧ (∀ keep pc, m.traced = none → s.hart.dbgStep = true → s.hart.sequencing = false → let u := s.retireTo keep pc
        u.hart.halted = true ∧ u.hart.pc = pc ∧ u.hart.dbgStep = false
          ∧ u.mgr = if m.busy = some (s.cc, s.ch) then { m with dbgres := 1, busy := none } else m)
end

