-- ==== Sys2Proof/Laws/Maps.lean ====
section
/-! SUPPORT. Laws of sparse maps: a read after a write, writes of one key, and the canonical form. -/

namespace Sys2Proof.Machine

variable {α : Type}

/-- A key that was set reads as the value set. -/
@[simp] theorem mget_mset_same (d : α) (m : List (Nat × α)) (k : Nat) (v : α) : mget d (mset m k v) k = v := by
  induction m with
  | nil => simp [mset, mget]
  | cons p r ih =>
    obtain ⟨j, w⟩ := p
    unfold mset
    split
    · simp [mget]
    · split
      · simp [mget]
      · simp [mget, *]

/-- Another key reads as before. -/
theorem mget_mset_ne (d : α) (m : List (Nat × α)) (k i : Nat) (v : α) (h : i ≠ k) : mget d (mset m k v) i = mget d m i := by
  induction m with
  | nil => simp [mset, mget, h]
  | cons p r ih =>
    obtain ⟨j, w⟩ := p
    unfold mset
    split
    · simp [mget, h]
    · split
      · subst_vars; simp [mget, h]
      · simp only [mget, ih]

/-- The second of two writes of a key stands. -/
@[simp] theorem mset_mset (m : List (Nat × α)) (k : Nat) (v w : α) : mset (mset m k v) k w = mset m k w := by
  induction m with
  | nil => simp [mset]
  | cons p r ih =>
    obtain ⟨j, x⟩ := p
    by_cases h1 : k < j
    · simp [mset, h1]
    · by_cases h2 : k = j
      · subst h2; simp [mset]
      · simp [mset, h1, h2, ih]

/-- Another key reads as before where one is deleted. -/
theorem mget_mdel_ne (d : α) (m : List (Nat × α)) (k i : Nat) (h : i ≠ k) : mget d (mdel m k) i = mget d m i := by
  induction m with
  | nil => rfl
  | cons p r ih =>
    obtain ⟨j, w⟩ := p
    unfold mdel at *
    by_cases hj : j = k
    · subst hj; simp [List.filter, mget, h, ih]
    · have hb : (j != k) = true := by simp [hj]
      simp only [List.filter, hb, mget, ih]

/-- A deleted key reads as an unlisted one. -/
@[simp] theorem mget_mdel_same (d : α) (m : List (Nat × α)) (k : Nat) : mget d (mdel m k) k = d := by
  induction m with
  | nil => rfl
  | cons p r ih =>
    obtain ⟨j, w⟩ := p
    unfold mdel at *
    by_cases hj : j = k
    · subst hj; simp [List.filter, ih]
    · have hb : (j != k) = true := by simp [hj]
      have hk : k ≠ j := fun e => hj e.symm
      simp [List.filter, hb, mget, hk, ih]

section
variable [DecidableEq α]

/-- A key that was put reads as the value put. -/
@[simp] theorem mget_mput_same (d : α) (m : List (Nat × α)) (k : Nat) (v : α) : mget d (mput d m k v) k = v := by
  unfold mput; split <;> simp_all

/-- Another key reads as before. -/
theorem mget_mput_ne (d : α) (m : List (Nat × α)) (k i : Nat) (v : α) (h : i ≠ k) : mget d (mput d m k v) i = mget d m i := by
  unfold mput; split
  · exact mget_mdel_ne d m k i h
  · exact mget_mset_ne d m k i v h

/-- The head of a canonical listing is not the default, lies below every later key, and the rest is canonical. -/
theorem mwf_cons (d : α) (j : Nat) (v : α) (r : List (Nat × α)) :
    mwf d ((j, v) :: r) = true ↔ v ≠ d ∧ (∀ p ∈ r, j < p.1) ∧ mwf d r = true := by
  induction r generalizing j v with
  | nil => simp [mwf]
  | cons p r ih =>
    obtain ⟨k, w⟩ := p
    simp only [mwf, Bool.and_eq_true, bne_iff_ne, decide_eq_true_eq, List.mem_cons, forall_eq_or_imp]
    constructor
    · rintro ⟨⟨h1, h2⟩, h3⟩
      exact ⟨h1, ⟨h2, fun q hq => Nat.lt_trans h2 (((ih k w).1 h3).2.1 q hq)⟩, h3⟩
    · rintro ⟨h1, ⟨h2, -⟩, h3⟩
      exact ⟨⟨h1, h2⟩, h3⟩

omit [DecidableEq α] in
/-- Every key of a listing with a key set was there, or is the key. -/
theorem mem_mset (m : List (Nat × α)) (k : Nat) (v : α) (p : Nat × α) (h : p ∈ mset m k v) : p = (k, v) ∨ p ∈ m := by
  induction m with
  | nil => simpa [mset] using h
  | cons q r ih =>
    obtain ⟨j, w⟩ := q
    unfold mset at h
    split at h
    · simpa using h
    · split at h
      · rcases List.mem_cons.1 h with h | h
        · exact .inl h
        · exact .inr (List.mem_cons_of_mem _ h)
      · rcases List.mem_cons.1 h with h | h
        · exact .inr (by simp [h])
        · rcases ih h with h | h
          · exact .inl h
          · exact .inr (List.mem_cons_of_mem _ h)

/-- Setting a key to a value that is not the default keeps the canonical form. -/
theorem mwf_mset (d : α) (m : List (Nat × α)) (k : Nat) (v : α) (hv : v ≠ d) (h : mwf d m = true) :
    mwf d (mset m k v) = true := by
  induction m with
  | nil => simp [mset, mwf, hv]
  | cons p r ih =>
    obtain ⟨j, w⟩ := p
    obtain ⟨h1, h2, h3⟩ := (mwf_cons d j w r).1 h
    unfold mset
    split
    · rename_i hk
      refine (mwf_cons _ _ _ _).2 ⟨hv, fun q hq => ?_, h⟩
      rcases List.mem_cons.1 hq with rfl | hq
      · exact hk
      · exact Nat.lt_trans hk (h2 q hq)
    · split
      · rename_i _ hk
        subst hk
        exact (mwf_cons _ _ _ _).2 ⟨hv, h2, h3⟩
      · rename_i hk hj
        refine (mwf_cons _ _ _ _).2 ⟨h1, fun q hq => ?_, ih h3⟩
        rcases mem_mset r k v q hq with rfl | hq
        · simp only; omega
        · exact h2 q hq

/-- Dropping entries keeps the canonical form. -/
theorem mwf_filter (d : α) (m : List (Nat × α)) (f : Nat × α → Bool) (h : mwf d m = true) : mwf d (m.filter f) = true := by
  induction m with
  | nil => rfl
  | cons p r ih =>
    obtain ⟨j, w⟩ := p
    obtain ⟨h1, h2, h3⟩ := (mwf_cons d j w r).1 h
    rw [List.filter_cons]
    split
    · exact (mwf_cons _ _ _ _).2 ⟨h1, fun q hq => h2 q (List.mem_filter.1 hq).1, ih h3⟩
    · exact ih h3

/-- Deleting a key keeps the canonical form. -/
theorem mwf_mdel (d : α) (m : List (Nat × α)) (k : Nat) (h : mwf d m = true) : mwf d (mdel m k) = true := mwf_filter _ _ _ h

/-- Putting a key keeps the canonical form. -/
theorem mwf_mput (d : α) (m : List (Nat × α)) (k : Nat) (v : α) (h : mwf d m = true) : mwf d (mput d m k v) = true := by
  unfold mput; split
  · exact mwf_mdel d m k h
  · exact mwf_mset d m k v ‹_› h

end

end Sys2Proof.Machine
end

