-- ==== Sys2Proof/Laws/State.lean ====
section
/-! SUPPORT. What each named update of the state or of a hart does to each field. -/

namespace Sys2Proof.Machine

/-! ### Updates of the state -/

@[simp] theorem State.setCoreAt_tick (s : State) (c : Nat) (x : Core) : (s.setCoreAt c x).tick = s.tick := rfl
@[simp] theorem State.setCoreAt_agenda (s : State) (c : Nat) (x : Core) : (s.setCoreAt c x).agenda = s.agenda := rfl
@[simp] theorem State.setCoreAt_cc (s : State) (c : Nat) (x : Core) : (s.setCoreAt c x).cc = s.cc := rfl
@[simp] theorem State.setCoreAt_ch (s : State) (c : Nat) (x : Core) : (s.setCoreAt c x).ch = s.ch := rfl
@[simp] theorem State.setCoreAt_mem (s : State) (c : Nat) (x : Core) : (s.setCoreAt c x).mem = s.mem := rfl
@[simp] theorem State.setCoreAt_dram (s : State) (c : Nat) (x : Core) : (s.setCoreAt c x).dram = s.dram := rfl
@[simp] theorem State.setCoreAt_marks (s : State) (c : Nat) (x : Core) : (s.setCoreAt c x).marks = s.marks := rfl
@[simp] theorem State.setCoreAt_latent (s : State) (c : Nat) (x : Core) : (s.setCoreAt c x).latent = s.latent := rfl
@[simp] theorem State.setCoreAt_tens (s : State) (c : Nat) (x : Core) : (s.setCoreAt c x).tens = s.tens := rfl
@[simp] theorem State.setCoreAt_launches (s : State) (c : Nat) (x : Core) : (s.setCoreAt c x).launches = s.launches := rfl
@[simp] theorem State.setCoreAt_nextId (s : State) (c : Nat) (x : Core) : (s.setCoreAt c x).nextId = s.nextId := rfl
@[simp] theorem State.setCoreAt_fabric (s : State) (c : Nat) (x : Core) : (s.setCoreAt c x).fabric = s.fabric := rfl
@[simp] theorem State.setCoreAt_engines (s : State) (c : Nat) (x : Core) : (s.setCoreAt c x).engines = s.engines := rfl
@[simp] theorem State.setCoreAt_mgr (s : State) (c : Nat) (x : Core) : (s.setCoreAt c x).mgr = s.mgr := rfl
@[simp] theorem State.setCoreAt_down (s : State) (c : Nat) (x : Core) : (s.setCoreAt c x).down = s.down := rfl
@[simp] theorem State.setCoreAt_msix (s : State) (c : Nat) (x : Core) : (s.setCoreAt c x).msix = s.msix := rfl
@[simp] theorem State.setCoreAt_out (s : State) (c : Nat) (x : Core) : (s.setCoreAt c x).out = s.out := rfl
@[simp] theorem State.setCoreAt_drains (s : State) (c : Nat) (x : Core) : (s.setCoreAt c x).drains = s.drains := rfl
@[simp] theorem State.modCoreAt_tick (s : State) (c : Nat) (f : Core → Core) : (s.modCoreAt c f).tick = s.tick := rfl
@[simp] theorem State.modCoreAt_agenda (s : State) (c : Nat) (f : Core → Core) : (s.modCoreAt c f).agenda = s.agenda := rfl
@[simp] theorem State.modCoreAt_cc (s : State) (c : Nat) (f : Core → Core) : (s.modCoreAt c f).cc = s.cc := rfl
@[simp] theorem State.modCoreAt_ch (s : State) (c : Nat) (f : Core → Core) : (s.modCoreAt c f).ch = s.ch := rfl
@[simp] theorem State.modCoreAt_mem (s : State) (c : Nat) (f : Core → Core) : (s.modCoreAt c f).mem = s.mem := rfl
@[simp] theorem State.modCoreAt_dram (s : State) (c : Nat) (f : Core → Core) : (s.modCoreAt c f).dram = s.dram := rfl
@[simp] theorem State.modCoreAt_marks (s : State) (c : Nat) (f : Core → Core) : (s.modCoreAt c f).marks = s.marks := rfl
@[simp] theorem State.modCoreAt_latent (s : State) (c : Nat) (f : Core → Core) : (s.modCoreAt c f).latent = s.latent := rfl
@[simp] theorem State.modCoreAt_tens (s : State) (c : Nat) (f : Core → Core) : (s.modCoreAt c f).tens = s.tens := rfl
@[simp] theorem State.modCoreAt_launches (s : State) (c : Nat) (f : Core → Core) : (s.modCoreAt c f).launches = s.launches := rfl
@[simp] theorem State.modCoreAt_nextId (s : State) (c : Nat) (f : Core → Core) : (s.modCoreAt c f).nextId = s.nextId := rfl
@[simp] theorem State.modCoreAt_fabric (s : State) (c : Nat) (f : Core → Core) : (s.modCoreAt c f).fabric = s.fabric := rfl
@[simp] theorem State.modCoreAt_engines (s : State) (c : Nat) (f : Core → Core) : (s.modCoreAt c f).engines = s.engines := rfl
@[simp] theorem State.modCoreAt_mgr (s : State) (c : Nat) (f : Core → Core) : (s.modCoreAt c f).mgr = s.mgr := rfl
@[simp] theorem State.modCoreAt_down (s : State) (c : Nat) (f : Core → Core) : (s.modCoreAt c f).down = s.down := rfl
@[simp] theorem State.modCoreAt_msix (s : State) (c : Nat) (f : Core → Core) : (s.modCoreAt c f).msix = s.msix := rfl
@[simp] theorem State.modCoreAt_out (s : State) (c : Nat) (f : Core → Core) : (s.modCoreAt c f).out = s.out := rfl
@[simp] theorem State.modCoreAt_drains (s : State) (c : Nat) (f : Core → Core) : (s.modCoreAt c f).drains = s.drains := rfl
@[simp] theorem State.modHartAt_tick (s : State) (c h : Nat) (f : Hart → Hart) : (s.modHartAt c h f).tick = s.tick := rfl
@[simp] theorem State.modHartAt_agenda (s : State) (c h : Nat) (f : Hart → Hart) : (s.modHartAt c h f).agenda = s.agenda := rfl
@[simp] theorem State.modHartAt_cc (s : State) (c h : Nat) (f : Hart → Hart) : (s.modHartAt c h f).cc = s.cc := rfl
@[simp] theorem State.modHartAt_ch (s : State) (c h : Nat) (f : Hart → Hart) : (s.modHartAt c h f).ch = s.ch := rfl
@[simp] theorem State.modHartAt_mem (s : State) (c h : Nat) (f : Hart → Hart) : (s.modHartAt c h f).mem = s.mem := rfl
@[simp] theorem State.modHartAt_dram (s : State) (c h : Nat) (f : Hart → Hart) : (s.modHartAt c h f).dram = s.dram := rfl
@[simp] theorem State.modHartAt_marks (s : State) (c h : Nat) (f : Hart → Hart) : (s.modHartAt c h f).marks = s.marks := rfl
@[simp] theorem State.modHartAt_latent (s : State) (c h : Nat) (f : Hart → Hart) : (s.modHartAt c h f).latent = s.latent := rfl
@[simp] theorem State.modHartAt_tens (s : State) (c h : Nat) (f : Hart → Hart) : (s.modHartAt c h f).tens = s.tens := rfl
@[simp] theorem State.modHartAt_launches (s : State) (c h : Nat) (f : Hart → Hart) : (s.modHartAt c h f).launches = s.launches := rfl
@[simp] theorem State.modHartAt_nextId (s : State) (c h : Nat) (f : Hart → Hart) : (s.modHartAt c h f).nextId = s.nextId := rfl
@[simp] theorem State.modHartAt_fabric (s : State) (c h : Nat) (f : Hart → Hart) : (s.modHartAt c h f).fabric = s.fabric := rfl
@[simp] theorem State.modHartAt_engines (s : State) (c h : Nat) (f : Hart → Hart) : (s.modHartAt c h f).engines = s.engines := rfl
@[simp] theorem State.modHartAt_mgr (s : State) (c h : Nat) (f : Hart → Hart) : (s.modHartAt c h f).mgr = s.mgr := rfl
@[simp] theorem State.modHartAt_down (s : State) (c h : Nat) (f : Hart → Hart) : (s.modHartAt c h f).down = s.down := rfl
@[simp] theorem State.modHartAt_msix (s : State) (c h : Nat) (f : Hart → Hart) : (s.modHartAt c h f).msix = s.msix := rfl
@[simp] theorem State.modHartAt_out (s : State) (c h : Nat) (f : Hart → Hart) : (s.modHartAt c h f).out = s.out := rfl
@[simp] theorem State.modHartAt_drains (s : State) (c h : Nat) (f : Hart → Hart) : (s.modHartAt c h f).drains = s.drains := rfl
@[simp] theorem State.modCore_tick (s : State) (f : Core → Core) : (s.modCore f).tick = s.tick := rfl
@[simp] theorem State.modCore_agenda (s : State) (f : Core → Core) : (s.modCore f).agenda = s.agenda := rfl
@[simp] theorem State.modCore_cc (s : State) (f : Core → Core) : (s.modCore f).cc = s.cc := rfl
@[simp] theorem State.modCore_ch (s : State) (f : Core → Core) : (s.modCore f).ch = s.ch := rfl
@[simp] theorem State.modCore_mem (s : State) (f : Core → Core) : (s.modCore f).mem = s.mem := rfl
@[simp] theorem State.modCore_dram (s : State) (f : Core → Core) : (s.modCore f).dram = s.dram := rfl
@[simp] theorem State.modCore_marks (s : State) (f : Core → Core) : (s.modCore f).marks = s.marks := rfl
@[simp] theorem State.modCore_latent (s : State) (f : Core → Core) : (s.modCore f).latent = s.latent := rfl
@[simp] theorem State.modCore_tens (s : State) (f : Core → Core) : (s.modCore f).tens = s.tens := rfl
@[simp] theorem State.modCore_launches (s : State) (f : Core → Core) : (s.modCore f).launches = s.launches := rfl
@[simp] theorem State.modCore_nextId (s : State) (f : Core → Core) : (s.modCore f).nextId = s.nextId := rfl
@[simp] theorem State.modCore_fabric (s : State) (f : Core → Core) : (s.modCore f).fabric = s.fabric := rfl
@[simp] theorem State.modCore_engines (s : State) (f : Core → Core) : (s.modCore f).engines = s.engines := rfl
@[simp] theorem State.modCore_mgr (s : State) (f : Core → Core) : (s.modCore f).mgr = s.mgr := rfl
@[simp] theorem State.modCore_down (s : State) (f : Core → Core) : (s.modCore f).down = s.down := rfl
@[simp] theorem State.modCore_msix (s : State) (f : Core → Core) : (s.modCore f).msix = s.msix := rfl
@[simp] theorem State.modCore_out (s : State) (f : Core → Core) : (s.modCore f).out = s.out := rfl
@[simp] theorem State.modCore_drains (s : State) (f : Core → Core) : (s.modCore f).drains = s.drains := rfl
@[simp] theorem State.modHart_tick (s : State) (f : Hart → Hart) : (s.modHart f).tick = s.tick := rfl
@[simp] theorem State.modHart_agenda (s : State) (f : Hart → Hart) : (s.modHart f).agenda = s.agenda := rfl
@[simp] theorem State.modHart_cc (s : State) (f : Hart → Hart) : (s.modHart f).cc = s.cc := rfl
@[simp] theorem State.modHart_ch (s : State) (f : Hart → Hart) : (s.modHart f).ch = s.ch := rfl
@[simp] theorem State.modHart_mem (s : State) (f : Hart → Hart) : (s.modHart f).mem = s.mem := rfl
@[simp] theorem State.modHart_dram (s : State) (f : Hart → Hart) : (s.modHart f).dram = s.dram := rfl
@[simp] theorem State.modHart_marks (s : State) (f : Hart → Hart) : (s.modHart f).marks = s.marks := rfl
@[simp] theorem State.modHart_latent (s : State) (f : Hart → Hart) : (s.modHart f).latent = s.latent := rfl
@[simp] theorem State.modHart_tens (s : State) (f : Hart → Hart) : (s.modHart f).tens = s.tens := rfl
@[simp] theorem State.modHart_launches (s : State) (f : Hart → Hart) : (s.modHart f).launches = s.launches := rfl
@[simp] theorem State.modHart_nextId (s : State) (f : Hart → Hart) : (s.modHart f).nextId = s.nextId := rfl
@[simp] theorem State.modHart_fabric (s : State) (f : Hart → Hart) : (s.modHart f).fabric = s.fabric := rfl
@[simp] theorem State.modHart_engines (s : State) (f : Hart → Hart) : (s.modHart f).engines = s.engines := rfl
@[simp] theorem State.modHart_mgr (s : State) (f : Hart → Hart) : (s.modHart f).mgr = s.mgr := rfl
@[simp] theorem State.modHart_down (s : State) (f : Hart → Hart) : (s.modHart f).down = s.down := rfl
@[simp] theorem State.modHart_msix (s : State) (f : Hart → Hart) : (s.modHart f).msix = s.msix := rfl
@[simp] theorem State.modHart_out (s : State) (f : Hart → Hart) : (s.modHart f).out = s.out := rfl
@[simp] theorem State.modHart_drains (s : State) (f : Hart → Hart) : (s.modHart f).drains = s.drains := rfl
@[simp] theorem State.wr_tick (s : State) (r : BitVec 5) (v : Word) : (s.wr r v).tick = s.tick := rfl
@[simp] theorem State.wr_agenda (s : State) (r : BitVec 5) (v : Word) : (s.wr r v).agenda = s.agenda := rfl
@[simp] theorem State.wr_cc (s : State) (r : BitVec 5) (v : Word) : (s.wr r v).cc = s.cc := rfl
@[simp] theorem State.wr_ch (s : State) (r : BitVec 5) (v : Word) : (s.wr r v).ch = s.ch := rfl
@[simp] theorem State.wr_mem (s : State) (r : BitVec 5) (v : Word) : (s.wr r v).mem = s.mem := rfl
@[simp] theorem State.wr_dram (s : State) (r : BitVec 5) (v : Word) : (s.wr r v).dram = s.dram := rfl
@[simp] theorem State.wr_marks (s : State) (r : BitVec 5) (v : Word) : (s.wr r v).marks = s.marks := rfl
@[simp] theorem State.wr_latent (s : State) (r : BitVec 5) (v : Word) : (s.wr r v).latent = s.latent := rfl
@[simp] theorem State.wr_tens (s : State) (r : BitVec 5) (v : Word) : (s.wr r v).tens = s.tens := rfl
@[simp] theorem State.wr_launches (s : State) (r : BitVec 5) (v : Word) : (s.wr r v).launches = s.launches := rfl
@[simp] theorem State.wr_nextId (s : State) (r : BitVec 5) (v : Word) : (s.wr r v).nextId = s.nextId := rfl
@[simp] theorem State.wr_fabric (s : State) (r : BitVec 5) (v : Word) : (s.wr r v).fabric = s.fabric := rfl
@[simp] theorem State.wr_engines (s : State) (r : BitVec 5) (v : Word) : (s.wr r v).engines = s.engines := rfl
@[simp] theorem State.wr_mgr (s : State) (r : BitVec 5) (v : Word) : (s.wr r v).mgr = s.mgr := rfl
@[simp] theorem State.wr_down (s : State) (r : BitVec 5) (v : Word) : (s.wr r v).down = s.down := rfl
@[simp] theorem State.wr_msix (s : State) (r : BitVec 5) (v : Word) : (s.wr r v).msix = s.msix := rfl
@[simp] theorem State.wr_out (s : State) (r : BitVec 5) (v : Word) : (s.wr r v).out = s.out := rfl
@[simp] theorem State.wr_drains (s : State) (r : BitVec 5) (v : Word) : (s.wr r v).drains = s.drains := rfl
@[simp] theorem State.at_tick (s : State) (c h : Nat) : (s.at c h).tick = s.tick := rfl
@[simp] theorem State.at_agenda (s : State) (c h : Nat) : (s.at c h).agenda = s.agenda := rfl
@[simp] theorem State.at_cores (s : State) (c h : Nat) : (s.at c h).cores = s.cores := rfl
@[simp] theorem State.at_mem (s : State) (c h : Nat) : (s.at c h).mem = s.mem := rfl
@[simp] theorem State.at_dram (s : State) (c h : Nat) : (s.at c h).dram = s.dram := rfl
@[simp] theorem State.at_marks (s : State) (c h : Nat) : (s.at c h).marks = s.marks := rfl
@[simp] theorem State.at_latent (s : State) (c h : Nat) : (s.at c h).latent = s.latent := rfl
@[simp] theorem State.at_tens (s : State) (c h : Nat) : (s.at c h).tens = s.tens := rfl
@[simp] theorem State.at_launches (s : State) (c h : Nat) : (s.at c h).launches = s.launches := rfl
@[simp] theorem State.at_nextId (s : State) (c h : Nat) : (s.at c h).nextId = s.nextId := rfl
@[simp] theorem State.at_fabric (s : State) (c h : Nat) : (s.at c h).fabric = s.fabric := rfl
@[simp] theorem State.at_engines (s : State) (c h : Nat) : (s.at c h).engines = s.engines := rfl
@[simp] theorem State.at_mgr (s : State) (c h : Nat) : (s.at c h).mgr = s.mgr := rfl
@[simp] theorem State.at_down (s : State) (c h : Nat) : (s.at c h).down = s.down := rfl
@[simp] theorem State.at_msix (s : State) (c h : Nat) : (s.at c h).msix = s.msix := rfl
@[simp] theorem State.at_out (s : State) (c h : Nat) : (s.at c h).out = s.out := rfl
@[simp] theorem State.at_drains (s : State) (c h : Nat) : (s.at c h).drains = s.drains := rfl
@[simp] theorem State.modTenAt_tick (s : State) (t : Nat) (f : Ten → Ten) : (s.modTenAt t f).tick = s.tick := rfl
@[simp] theorem State.modTenAt_agenda (s : State) (t : Nat) (f : Ten → Ten) : (s.modTenAt t f).agenda = s.agenda := rfl
@[simp] theorem State.modTenAt_cc (s : State) (t : Nat) (f : Ten → Ten) : (s.modTenAt t f).cc = s.cc := rfl
@[simp] theorem State.modTenAt_ch (s : State) (t : Nat) (f : Ten → Ten) : (s.modTenAt t f).ch = s.ch := rfl
@[simp] theorem State.modTenAt_cores (s : State) (t : Nat) (f : Ten → Ten) : (s.modTenAt t f).cores = s.cores := rfl
@[simp] theorem State.modTenAt_mem (s : State) (t : Nat) (f : Ten → Ten) : (s.modTenAt t f).mem = s.mem := rfl
@[simp] theorem State.modTenAt_dram (s : State) (t : Nat) (f : Ten → Ten) : (s.modTenAt t f).dram = s.dram := rfl
@[simp] theorem State.modTenAt_marks (s : State) (t : Nat) (f : Ten → Ten) : (s.modTenAt t f).marks = s.marks := rfl
@[simp] theorem State.modTenAt_latent (s : State) (t : Nat) (f : Ten → Ten) : (s.modTenAt t f).latent = s.latent := rfl
@[simp] theorem State.modTenAt_launches (s : State) (t : Nat) (f : Ten → Ten) : (s.modTenAt t f).launches = s.launches := rfl
@[simp] theorem State.modTenAt_nextId (s : State) (t : Nat) (f : Ten → Ten) : (s.modTenAt t f).nextId = s.nextId := rfl
@[simp] theorem State.modTenAt_fabric (s : State) (t : Nat) (f : Ten → Ten) : (s.modTenAt t f).fabric = s.fabric := rfl
@[simp] theorem State.modTenAt_engines (s : State) (t : Nat) (f : Ten → Ten) : (s.modTenAt t f).engines = s.engines := rfl
@[simp] theorem State.modTenAt_mgr (s : State) (t : Nat) (f : Ten → Ten) : (s.modTenAt t f).mgr = s.mgr := rfl
@[simp] theorem State.modTenAt_down (s : State) (t : Nat) (f : Ten → Ten) : (s.modTenAt t f).down = s.down := rfl
@[simp] theorem State.modTenAt_msix (s : State) (t : Nat) (f : Ten → Ten) : (s.modTenAt t f).msix = s.msix := rfl
@[simp] theorem State.modTenAt_out (s : State) (t : Nat) (f : Ten → Ten) : (s.modTenAt t f).out = s.out := rfl
@[simp] theorem State.modTenAt_drains (s : State) (t : Nat) (f : Ten → Ten) : (s.modTenAt t f).drains = s.drains := rfl
@[simp] theorem State.modStackAt_tick (s : State) (i : Nat) (f : Stack → Stack) : (s.modStackAt i f).tick = s.tick := rfl
@[simp] theorem State.modStackAt_agenda (s : State) (i : Nat) (f : Stack → Stack) : (s.modStackAt i f).agenda = s.agenda := rfl
@[simp] theorem State.modStackAt_cc (s : State) (i : Nat) (f : Stack → Stack) : (s.modStackAt i f).cc = s.cc := rfl
@[simp] theorem State.modStackAt_ch (s : State) (i : Nat) (f : Stack → Stack) : (s.modStackAt i f).ch = s.ch := rfl
@[simp] theorem State.modStackAt_cores (s : State) (i : Nat) (f : Stack → Stack) : (s.modStackAt i f).cores = s.cores := rfl
@[simp] theorem State.modStackAt_mem (s : State) (i : Nat) (f : Stack → Stack) : (s.modStackAt i f).mem = s.mem := rfl
@[simp] theorem State.modStackAt_dram (s : State) (i : Nat) (f : Stack → Stack) : (s.modStackAt i f).dram = s.dram := rfl
@[simp] theorem State.modStackAt_marks (s : State) (i : Nat) (f : Stack → Stack) : (s.modStackAt i f).marks = s.marks := rfl
@[simp] theorem State.modStackAt_latent (s : State) (i : Nat) (f : Stack → Stack) : (s.modStackAt i f).latent = s.latent := rfl
@[simp] theorem State.modStackAt_tens (s : State) (i : Nat) (f : Stack → Stack) : (s.modStackAt i f).tens = s.tens := rfl
@[simp] theorem State.modStackAt_launches (s : State) (i : Nat) (f : Stack → Stack) : (s.modStackAt i f).launches = s.launches := rfl
@[simp] theorem State.modStackAt_nextId (s : State) (i : Nat) (f : Stack → Stack) : (s.modStackAt i f).nextId = s.nextId := rfl
@[simp] theorem State.modStackAt_fabric (s : State) (i : Nat) (f : Stack → Stack) : (s.modStackAt i f).fabric = s.fabric := rfl
@[simp] theorem State.modStackAt_mgr (s : State) (i : Nat) (f : Stack → Stack) : (s.modStackAt i f).mgr = s.mgr := rfl
@[simp] theorem State.modStackAt_down (s : State) (i : Nat) (f : Stack → Stack) : (s.modStackAt i f).down = s.down := rfl
@[simp] theorem State.modStackAt_msix (s : State) (i : Nat) (f : Stack → Stack) : (s.modStackAt i f).msix = s.msix := rfl
@[simp] theorem State.modStackAt_out (s : State) (i : Nat) (f : Stack → Stack) : (s.modStackAt i f).out = s.out := rfl
@[simp] theorem State.modStackAt_drains (s : State) (i : Nat) (f : Stack → Stack) : (s.modStackAt i f).drains = s.drains := rfl
@[simp] theorem State.modMgr_tick (s : State) (f : Mgr → Mgr) : (s.modMgr f).tick = s.tick := rfl
@[simp] theorem State.modMgr_agenda (s : State) (f : Mgr → Mgr) : (s.modMgr f).agenda = s.agenda := rfl
@[simp] theorem State.modMgr_cc (s : State) (f : Mgr → Mgr) : (s.modMgr f).cc = s.cc := rfl
@[simp] theorem State.modMgr_ch (s : State) (f : Mgr → Mgr) : (s.modMgr f).ch = s.ch := rfl
@[simp] theorem State.modMgr_cores (s : State) (f : Mgr → Mgr) : (s.modMgr f).cores = s.cores := rfl
@[simp] theorem State.modMgr_mem (s : State) (f : Mgr → Mgr) : (s.modMgr f).mem = s.mem := rfl
@[simp] theorem State.modMgr_dram (s : State) (f : Mgr → Mgr) : (s.modMgr f).dram = s.dram := rfl
@[simp] theorem State.modMgr_marks (s : State) (f : Mgr → Mgr) : (s.modMgr f).marks = s.marks := rfl
@[simp] theorem State.modMgr_latent (s : State) (f : Mgr → Mgr) : (s.modMgr f).latent = s.latent := rfl
@[simp] theorem State.modMgr_tens (s : State) (f : Mgr → Mgr) : (s.modMgr f).tens = s.tens := rfl
@[simp] theorem State.modMgr_launches (s : State) (f : Mgr → Mgr) : (s.modMgr f).launches = s.launches := rfl
@[simp] theorem State.modMgr_nextId (s : State) (f : Mgr → Mgr) : (s.modMgr f).nextId = s.nextId := rfl
@[simp] theorem State.modMgr_fabric (s : State) (f : Mgr → Mgr) : (s.modMgr f).fabric = s.fabric := rfl
@[simp] theorem State.modMgr_engines (s : State) (f : Mgr → Mgr) : (s.modMgr f).engines = s.engines := rfl
@[simp] theorem State.modMgr_down (s : State) (f : Mgr → Mgr) : (s.modMgr f).down = s.down := rfl
@[simp] theorem State.modMgr_msix (s : State) (f : Mgr → Mgr) : (s.modMgr f).msix = s.msix := rfl
@[simp] theorem State.modMgr_out (s : State) (f : Mgr → Mgr) : (s.modMgr f).out = s.out := rfl
@[simp] theorem State.modMgr_drains (s : State) (f : Mgr → Mgr) : (s.modMgr f).drains = s.drains := rfl
@[simp] theorem State.markLine_tick (s : State) (l : Nat) : (s.markLine l).tick = s.tick := rfl
@[simp] theorem State.markLine_agenda (s : State) (l : Nat) : (s.markLine l).agenda = s.agenda := rfl
@[simp] theorem State.markLine_cc (s : State) (l : Nat) : (s.markLine l).cc = s.cc := rfl
@[simp] theorem State.markLine_ch (s : State) (l : Nat) : (s.markLine l).ch = s.ch := rfl
@[simp] theorem State.markLine_cores (s : State) (l : Nat) : (s.markLine l).cores = s.cores := rfl
@[simp] theorem State.markLine_mem (s : State) (l : Nat) : (s.markLine l).mem = s.mem := rfl
@[simp] theorem State.markLine_dram (s : State) (l : Nat) : (s.markLine l).dram = s.dram := rfl
@[simp] theorem State.markLine_tens (s : State) (l : Nat) : (s.markLine l).tens = s.tens := rfl
@[simp] theorem State.markLine_launches (s : State) (l : Nat) : (s.markLine l).launches = s.launches := rfl
@[simp] theorem State.markLine_nextId (s : State) (l : Nat) : (s.markLine l).nextId = s.nextId := rfl
@[simp] theorem State.markLine_fabric (s : State) (l : Nat) : (s.markLine l).fabric = s.fabric := rfl
@[simp] theorem State.markLine_engines (s : State) (l : Nat) : (s.markLine l).engines = s.engines := rfl
@[simp] theorem State.markLine_mgr (s : State) (l : Nat) : (s.markLine l).mgr = s.mgr := rfl
@[simp] theorem State.markLine_down (s : State) (l : Nat) : (s.markLine l).down = s.down := rfl
@[simp] theorem State.markLine_msix (s : State) (l : Nat) : (s.markLine l).msix = s.msix := rfl
@[simp] theorem State.markLine_out (s : State) (l : Nat) : (s.markLine l).out = s.out := rfl
@[simp] theorem State.markLine_drains (s : State) (l : Nat) : (s.markLine l).drains = s.drains := rfl
@[simp] theorem State.cleanLine_tick (s : State) (l : Nat) : (s.cleanLine l).tick = s.tick := rfl
@[simp] theorem State.cleanLine_agenda (s : State) (l : Nat) : (s.cleanLine l).agenda = s.agenda := rfl
@[simp] theorem State.cleanLine_cc (s : State) (l : Nat) : (s.cleanLine l).cc = s.cc := rfl
@[simp] theorem State.cleanLine_ch (s : State) (l : Nat) : (s.cleanLine l).ch = s.ch := rfl
@[simp] theorem State.cleanLine_cores (s : State) (l : Nat) : (s.cleanLine l).cores = s.cores := rfl
@[simp] theorem State.cleanLine_mem (s : State) (l : Nat) : (s.cleanLine l).mem = s.mem := rfl
@[simp] theorem State.cleanLine_dram (s : State) (l : Nat) : (s.cleanLine l).dram = s.dram := rfl
@[simp] theorem State.cleanLine_tens (s : State) (l : Nat) : (s.cleanLine l).tens = s.tens := rfl
@[simp] theorem State.cleanLine_launches (s : State) (l : Nat) : (s.cleanLine l).launches = s.launches := rfl
@[simp] theorem State.cleanLine_nextId (s : State) (l : Nat) : (s.cleanLine l).nextId = s.nextId := rfl
@[simp] theorem State.cleanLine_fabric (s : State) (l : Nat) : (s.cleanLine l).fabric = s.fabric := rfl
@[simp] theorem State.cleanLine_engines (s : State) (l : Nat) : (s.cleanLine l).engines = s.engines := rfl
@[simp] theorem State.cleanLine_mgr (s : State) (l : Nat) : (s.cleanLine l).mgr = s.mgr := rfl
@[simp] theorem State.cleanLine_down (s : State) (l : Nat) : (s.cleanLine l).down = s.down := rfl
@[simp] theorem State.cleanLine_msix (s : State) (l : Nat) : (s.cleanLine l).msix = s.msix := rfl
@[simp] theorem State.cleanLine_out (s : State) (l : Nat) : (s.cleanLine l).out = s.out := rfl
@[simp] theorem State.cleanLine_drains (s : State) (l : Nat) : (s.cleanLine l).drains = s.drains := rfl
@[simp] theorem State.dropLeaf_tick (s : State) (l : Nat) : (s.dropLeaf l).tick = s.tick := rfl
@[simp] theorem State.dropLeaf_agenda (s : State) (l : Nat) : (s.dropLeaf l).agenda = s.agenda := rfl
@[simp] theorem State.dropLeaf_cc (s : State) (l : Nat) : (s.dropLeaf l).cc = s.cc := rfl
@[simp] theorem State.dropLeaf_ch (s : State) (l : Nat) : (s.dropLeaf l).ch = s.ch := rfl
@[simp] theorem State.dropLeaf_mem (s : State) (l : Nat) : (s.dropLeaf l).mem = s.mem := rfl
@[simp] theorem State.dropLeaf_dram (s : State) (l : Nat) : (s.dropLeaf l).dram = s.dram := rfl
@[simp] theorem State.dropLeaf_marks (s : State) (l : Nat) : (s.dropLeaf l).marks = s.marks := rfl
@[simp] theorem State.dropLeaf_latent (s : State) (l : Nat) : (s.dropLeaf l).latent = s.latent := rfl
@[simp] theorem State.dropLeaf_tens (s : State) (l : Nat) : (s.dropLeaf l).tens = s.tens := rfl
@[simp] theorem State.dropLeaf_launches (s : State) (l : Nat) : (s.dropLeaf l).launches = s.launches := rfl
@[simp] theorem State.dropLeaf_nextId (s : State) (l : Nat) : (s.dropLeaf l).nextId = s.nextId := rfl
@[simp] theorem State.dropLeaf_fabric (s : State) (l : Nat) : (s.dropLeaf l).fabric = s.fabric := rfl
@[simp] theorem State.dropLeaf_engines (s : State) (l : Nat) : (s.dropLeaf l).engines = s.engines := rfl
@[simp] theorem State.dropLeaf_mgr (s : State) (l : Nat) : (s.dropLeaf l).mgr = s.mgr := rfl
@[simp] theorem State.dropLeaf_down (s : State) (l : Nat) : (s.dropLeaf l).down = s.down := rfl
@[simp] theorem State.dropLeaf_msix (s : State) (l : Nat) : (s.dropLeaf l).msix = s.msix := rfl
@[simp] theorem State.dropLeaf_out (s : State) (l : Nat) : (s.dropLeaf l).out = s.out := rfl
@[simp] theorem State.dropLeaf_drains (s : State) (l : Nat) : (s.dropLeaf l).drains = s.drains := rfl
@[simp] theorem State.patchByte_tick (s : State) (a : Nat) (b : Byte) : (s.patchByte a b).tick = s.tick := by
  unfold State.patchByte; split <;> rfl
@[simp] theorem State.patchByte_agenda (s : State) (a : Nat) (b : Byte) : (s.patchByte a b).agenda = s.agenda := by
  unfold State.patchByte; split <;> rfl
@[simp] theorem State.patchByte_cc (s : State) (a : Nat) (b : Byte) : (s.patchByte a b).cc = s.cc := by
  unfold State.patchByte; split <;> rfl
@[simp] theorem State.patchByte_ch (s : State) (a : Nat) (b : Byte) : (s.patchByte a b).ch = s.ch := by
  unfold State.patchByte; split <;> rfl
@[simp] theorem State.patchByte_cores (s : State) (a : Nat) (b : Byte) : (s.patchByte a b).cores = s.cores := by
  unfold State.patchByte; split <;> rfl
@[simp] theorem State.patchByte_dram (s : State) (a : Nat) (b : Byte) : (s.patchByte a b).dram = s.dram := by
  unfold State.patchByte; split <;> rfl
@[simp] theorem State.patchByte_tens (s : State) (a : Nat) (b : Byte) : (s.patchByte a b).tens = s.tens := by
  unfold State.patchByte; split <;> rfl
@[simp] theorem State.patchByte_launches (s : State) (a : Nat) (b : Byte) : (s.patchByte a b).launches = s.launches := by
  unfold State.patchByte; split <;> rfl
@[simp] theorem State.patchByte_nextId (s : State) (a : Nat) (b : Byte) : (s.patchByte a b).nextId = s.nextId := by
  unfold State.patchByte; split <;> rfl
@[simp] theorem State.patchByte_fabric (s : State) (a : Nat) (b : Byte) : (s.patchByte a b).fabric = s.fabric := by
  unfold State.patchByte; split <;> rfl
@[simp] theorem State.patchByte_engines (s : State) (a : Nat) (b : Byte) : (s.patchByte a b).engines = s.engines := by
  unfold State.patchByte; split <;> rfl
@[simp] theorem State.patchByte_mgr (s : State) (a : Nat) (b : Byte) : (s.patchByte a b).mgr = s.mgr := by
  unfold State.patchByte; split <;> rfl
@[simp] theorem State.patchByte_down (s : State) (a : Nat) (b : Byte) : (s.patchByte a b).down = s.down := by
  unfold State.patchByte; split <;> rfl
@[simp] theorem State.patchByte_msix (s : State) (a : Nat) (b : Byte) : (s.patchByte a b).msix = s.msix := by
  unfold State.patchByte; split <;> rfl
@[simp] theorem State.patchByte_out (s : State) (a : Nat) (b : Byte) : (s.patchByte a b).out = s.out := by
  unfold State.patchByte; split <;> rfl
@[simp] theorem State.patchByte_drains (s : State) (a : Nat) (b : Byte) : (s.patchByte a b).drains = s.drains := by
  unfold State.patchByte; split <;> rfl
/-- The memory after a byte changed in its place, and the marks and errors (08_memory R174). -/
theorem State.patchByte_mem (s : State) (a : Nat) (b : Byte) :
    (s.patchByte a b).mem = if smem s.latent (lineOf a) then s.mem else mput memDefault s.mem a b := by
  unfold State.patchByte; split <;> rfl
theorem State.patchByte_marks (s : State) (a : Nat) (b : Byte) :
    (s.patchByte a b).marks = if smem s.latent (lineOf a) then sadd s.marks (lineOf a) else s.marks := by
  unfold State.patchByte; split <;> rfl
theorem State.patchByte_latent (s : State) (a : Nat) (b : Byte) :
    (s.patchByte a b).latent = if smem s.latent (lineOf a) then sdel s.latent (lineOf a) else s.latent := by
  unfold State.patchByte; split <;> rfl
@[simp] theorem State.setCw_tick (s : State) (l : Nat) (on : Bool) : (s.setCw l on).tick = s.tick := State.patchByte_tick _ _ _
@[simp] theorem State.setCw_agenda (s : State) (l : Nat) (on : Bool) : (s.setCw l on).agenda = s.agenda := State.patchByte_agenda _ _ _
@[simp] theorem State.setCw_cc (s : State) (l : Nat) (on : Bool) : (s.setCw l on).cc = s.cc := State.patchByte_cc _ _ _
@[simp] theorem State.setCw_ch (s : State) (l : Nat) (on : Bool) : (s.setCw l on).ch = s.ch := State.patchByte_ch _ _ _
@[simp] theorem State.setCw_cores (s : State) (l : Nat) (on : Bool) : (s.setCw l on).cores = s.cores := State.patchByte_cores _ _ _
@[simp] theorem State.setCw_dram (s : State) (l : Nat) (on : Bool) : (s.setCw l on).dram = s.dram := State.patchByte_dram _ _ _
@[simp] theorem State.setCw_tens (s : State) (l : Nat) (on : Bool) : (s.setCw l on).tens = s.tens := State.patchByte_tens _ _ _
@[simp] theorem State.setCw_launches (s : State) (l : Nat) (on : Bool) : (s.setCw l on).launches = s.launches := State.patchByte_launches _ _ _
@[simp] theorem State.setCw_nextId (s : State) (l : Nat) (on : Bool) : (s.setCw l on).nextId = s.nextId := State.patchByte_nextId _ _ _
@[simp] theorem State.setCw_fabric (s : State) (l : Nat) (on : Bool) : (s.setCw l on).fabric = s.fabric := State.patchByte_fabric _ _ _
@[simp] theorem State.setCw_engines (s : State) (l : Nat) (on : Bool) : (s.setCw l on).engines = s.engines := State.patchByte_engines _ _ _
@[simp] theorem State.setCw_mgr (s : State) (l : Nat) (on : Bool) : (s.setCw l on).mgr = s.mgr := State.patchByte_mgr _ _ _
@[simp] theorem State.setCw_down (s : State) (l : Nat) (on : Bool) : (s.setCw l on).down = s.down := State.patchByte_down _ _ _
@[simp] theorem State.setCw_msix (s : State) (l : Nat) (on : Bool) : (s.setCw l on).msix = s.msix := State.patchByte_msix _ _ _
@[simp] theorem State.setCw_out (s : State) (l : Nat) (on : Bool) : (s.setCw l on).out = s.out := State.patchByte_out _ _ _
@[simp] theorem State.setCw_drains (s : State) (l : Nat) (on : Bool) : (s.setCw l on).drains = s.drains := State.patchByte_drains _ _ _
@[simp] theorem State.putByte_tick (s : State) (t : Bool) (a : Nat) (b : Byte) : (s.putByte t a b).tick = s.tick := rfl
@[simp] theorem State.putByte_agenda (s : State) (t : Bool) (a : Nat) (b : Byte) : (s.putByte t a b).agenda = s.agenda := rfl
@[simp] theorem State.putByte_cc (s : State) (t : Bool) (a : Nat) (b : Byte) : (s.putByte t a b).cc = s.cc := rfl
@[simp] theorem State.putByte_ch (s : State) (t : Bool) (a : Nat) (b : Byte) : (s.putByte t a b).ch = s.ch := rfl
@[simp] theorem State.putByte_cores (s : State) (t : Bool) (a : Nat) (b : Byte) : (s.putByte t a b).cores = s.cores := rfl
@[simp] theorem State.putByte_marks (s : State) (t : Bool) (a : Nat) (b : Byte) : (s.putByte t a b).marks = s.marks := rfl
@[simp] theorem State.putByte_latent (s : State) (t : Bool) (a : Nat) (b : Byte) : (s.putByte t a b).latent = s.latent := rfl
@[simp] theorem State.putByte_tens (s : State) (t : Bool) (a : Nat) (b : Byte) : (s.putByte t a b).tens = s.tens := rfl
@[simp] theorem State.putByte_launches (s : State) (t : Bool) (a : Nat) (b : Byte) : (s.putByte t a b).launches = s.launches := rfl
@[simp] theorem State.putByte_nextId (s : State) (t : Bool) (a : Nat) (b : Byte) : (s.putByte t a b).nextId = s.nextId := rfl
@[simp] theorem State.putByte_fabric (s : State) (t : Bool) (a : Nat) (b : Byte) : (s.putByte t a b).fabric = s.fabric := rfl
@[simp] theorem State.putByte_engines (s : State) (t : Bool) (a : Nat) (b : Byte) : (s.putByte t a b).engines = s.engines := rfl
@[simp] theorem State.putByte_mgr (s : State) (t : Bool) (a : Nat) (b : Byte) : (s.putByte t a b).mgr = s.mgr := rfl
@[simp] theorem State.putByte_down (s : State) (t : Bool) (a : Nat) (b : Byte) : (s.putByte t a b).down = s.down := rfl
@[simp] theorem State.putByte_msix (s : State) (t : Bool) (a : Nat) (b : Byte) : (s.putByte t a b).msix = s.msix := rfl
@[simp] theorem State.putByte_out (s : State) (t : Bool) (a : Nat) (b : Byte) : (s.putByte t a b).out = s.out := rfl
@[simp] theorem State.putByte_drains (s : State) (t : Bool) (a : Nat) (b : Byte) : (s.putByte t a b).drains = s.drains := rfl
@[simp] theorem State.noteGrant_tick (s : State) (rs : List Resource) : (s.noteGrant rs).tick = s.tick := rfl
@[simp] theorem State.noteGrant_agenda (s : State) (rs : List Resource) : (s.noteGrant rs).agenda = s.agenda := rfl
@[simp] theorem State.noteGrant_cc (s : State) (rs : List Resource) : (s.noteGrant rs).cc = s.cc := rfl
@[simp] theorem State.noteGrant_ch (s : State) (rs : List Resource) : (s.noteGrant rs).ch = s.ch := rfl
@[simp] theorem State.noteGrant_mem (s : State) (rs : List Resource) : (s.noteGrant rs).mem = s.mem := rfl
@[simp] theorem State.noteGrant_dram (s : State) (rs : List Resource) : (s.noteGrant rs).dram = s.dram := rfl
@[simp] theorem State.noteGrant_marks (s : State) (rs : List Resource) : (s.noteGrant rs).marks = s.marks := rfl
@[simp] theorem State.noteGrant_latent (s : State) (rs : List Resource) : (s.noteGrant rs).latent = s.latent := rfl
@[simp] theorem State.noteGrant_tens (s : State) (rs : List Resource) : (s.noteGrant rs).tens = s.tens := rfl
@[simp] theorem State.noteGrant_launches (s : State) (rs : List Resource) : (s.noteGrant rs).launches = s.launches := rfl
@[simp] theorem State.noteGrant_nextId (s : State) (rs : List Resource) : (s.noteGrant rs).nextId = s.nextId := rfl
@[simp] theorem State.noteGrant_fabric (s : State) (rs : List Resource) : (s.noteGrant rs).fabric = s.fabric := rfl
@[simp] theorem State.noteGrant_engines (s : State) (rs : List Resource) : (s.noteGrant rs).engines = s.engines := rfl
@[simp] theorem State.noteGrant_mgr (s : State) (rs : List Resource) : (s.noteGrant rs).mgr = s.mgr := rfl
@[simp] theorem State.noteGrant_down (s : State) (rs : List Resource) : (s.noteGrant rs).down = s.down := rfl
@[simp] theorem State.noteGrant_msix (s : State) (rs : List Resource) : (s.noteGrant rs).msix = s.msix := rfl
@[simp] theorem State.noteGrant_out (s : State) (rs : List Resource) : (s.noteGrant rs).out = s.out := rfl
@[simp] theorem State.noteGrant_drains (s : State) (rs : List Resource) : (s.noteGrant rs).drains = s.drains := rfl
@[simp] theorem State.grant_tick (s : State) (rs : List Resource) : (s.grant rs).tick = s.tick := rfl
@[simp] theorem State.grant_agenda (s : State) (rs : List Resource) : (s.grant rs).agenda = s.agenda := rfl
@[simp] theorem State.grant_cc (s : State) (rs : List Resource) : (s.grant rs).cc = s.cc := rfl
@[simp] theorem State.grant_ch (s : State) (rs : List Resource) : (s.grant rs).ch = s.ch := rfl
@[simp] theorem State.grant_mem (s : State) (rs : List Resource) : (s.grant rs).mem = s.mem := rfl
@[simp] theorem State.grant_dram (s : State) (rs : List Resource) : (s.grant rs).dram = s.dram := rfl
@[simp] theorem State.grant_marks (s : State) (rs : List Resource) : (s.grant rs).marks = s.marks := rfl
@[simp] theorem State.grant_latent (s : State) (rs : List Resource) : (s.grant rs).latent = s.latent := rfl
@[simp] theorem State.grant_tens (s : State) (rs : List Resource) : (s.grant rs).tens = s.tens := rfl
@[simp] theorem State.grant_launches (s : State) (rs : List Resource) : (s.grant rs).launches = s.launches := rfl
@[simp] theorem State.grant_nextId (s : State) (rs : List Resource) : (s.grant rs).nextId = s.nextId := rfl
@[simp] theorem State.grant_fabric (s : State) (rs : List Resource) : (s.grant rs).fabric = s.fabric := rfl
@[simp] theorem State.grant_engines (s : State) (rs : List Resource) : (s.grant rs).engines = s.engines := rfl
@[simp] theorem State.grant_mgr (s : State) (rs : List Resource) : (s.grant rs).mgr = s.mgr := rfl
@[simp] theorem State.grant_down (s : State) (rs : List Resource) : (s.grant rs).down = s.down := rfl
@[simp] theorem State.grant_msix (s : State) (rs : List Resource) : (s.grant rs).msix = s.msix := rfl
@[simp] theorem State.grant_out (s : State) (rs : List Resource) : (s.grant rs).out = s.out := rfl
@[simp] theorem State.grant_drains (s : State) (rs : List Resource) : (s.grant rs).drains = s.drains := rfl
@[simp] theorem State.fillUnit_tick (s : State) (u : Nat) (img : List (Nat × Byte)) : (s.fillUnit u img).tick = s.tick := rfl
@[simp] theorem State.fillUnit_agenda (s : State) (u : Nat) (img : List (Nat × Byte)) : (s.fillUnit u img).agenda = s.agenda := rfl
@[simp] theorem State.fillUnit_cc (s : State) (u : Nat) (img : List (Nat × Byte)) : (s.fillUnit u img).cc = s.cc := rfl
@[simp] theorem State.fillUnit_ch (s : State) (u : Nat) (img : List (Nat × Byte)) : (s.fillUnit u img).ch = s.ch := rfl
@[simp] theorem State.fillUnit_cores (s : State) (u : Nat) (img : List (Nat × Byte)) : (s.fillUnit u img).cores = s.cores := rfl
@[simp] theorem State.fillUnit_tens (s : State) (u : Nat) (img : List (Nat × Byte)) : (s.fillUnit u img).tens = s.tens := rfl
@[simp] theorem State.fillUnit_launches (s : State) (u : Nat) (img : List (Nat × Byte)) : (s.fillUnit u img).launches = s.launches := rfl
@[simp] theorem State.fillUnit_nextId (s : State) (u : Nat) (img : List (Nat × Byte)) : (s.fillUnit u img).nextId = s.nextId := rfl
@[simp] theorem State.fillUnit_fabric (s : State) (u : Nat) (img : List (Nat × Byte)) : (s.fillUnit u img).fabric = s.fabric := rfl
@[simp] theorem State.fillUnit_engines (s : State) (u : Nat) (img : List (Nat × Byte)) : (s.fillUnit u img).engines = s.engines := rfl
@[simp] theorem State.fillUnit_mgr (s : State) (u : Nat) (img : List (Nat × Byte)) : (s.fillUnit u img).mgr = s.mgr := rfl
@[simp] theorem State.fillUnit_down (s : State) (u : Nat) (img : List (Nat × Byte)) : (s.fillUnit u img).down = s.down := rfl
@[simp] theorem State.fillUnit_msix (s : State) (u : Nat) (img : List (Nat × Byte)) : (s.fillUnit u img).msix = s.msix := rfl
@[simp] theorem State.fillUnit_out (s : State) (u : Nat) (img : List (Nat × Byte)) : (s.fillUnit u img).out = s.out := rfl
@[simp] theorem State.fillUnit_drains (s : State) (u : Nat) (img : List (Nat × Byte)) : (s.fillUnit u img).drains = s.drains := rfl
@[simp] theorem State.enterTrap_tick (s : State) (src : BitVec 2) (code : BitVec 8) (v : Word) : (s.enterTrap src code v).tick = s.tick := rfl
@[simp] theorem State.enterTrap_agenda (s : State) (src : BitVec 2) (code : BitVec 8) (v : Word) : (s.enterTrap src code v).agenda = s.agenda := rfl
@[simp] theorem State.enterTrap_cc (s : State) (src : BitVec 2) (code : BitVec 8) (v : Word) : (s.enterTrap src code v).cc = s.cc := rfl
@[simp] theorem State.enterTrap_ch (s : State) (src : BitVec 2) (code : BitVec 8) (v : Word) : (s.enterTrap src code v).ch = s.ch := rfl
@[simp] theorem State.enterTrap_mem (s : State) (src : BitVec 2) (code : BitVec 8) (v : Word) : (s.enterTrap src code v).mem = s.mem := rfl
@[simp] theorem State.enterTrap_dram (s : State) (src : BitVec 2) (code : BitVec 8) (v : Word) : (s.enterTrap src code v).dram = s.dram := rfl
@[simp] theorem State.enterTrap_marks (s : State) (src : BitVec 2) (code : BitVec 8) (v : Word) : (s.enterTrap src code v).marks = s.marks := rfl
@[simp] theorem State.enterTrap_latent (s : State) (src : BitVec 2) (code : BitVec 8) (v : Word) : (s.enterTrap src code v).latent = s.latent := rfl
@[simp] theorem State.enterTrap_tens (s : State) (src : BitVec 2) (code : BitVec 8) (v : Word) : (s.enterTrap src code v).tens = s.tens := rfl
@[simp] theorem State.enterTrap_launches (s : State) (src : BitVec 2) (code : BitVec 8) (v : Word) : (s.enterTrap src code v).launches = s.launches := rfl
@[simp] theorem State.enterTrap_nextId (s : State) (src : BitVec 2) (code : BitVec 8) (v : Word) : (s.enterTrap src code v).nextId = s.nextId := rfl
@[simp] theorem State.enterTrap_fabric (s : State) (src : BitVec 2) (code : BitVec 8) (v : Word) : (s.enterTrap src code v).fabric = s.fabric := rfl
@[simp] theorem State.enterTrap_engines (s : State) (src : BitVec 2) (code : BitVec 8) (v : Word) : (s.enterTrap src code v).engines = s.engines := rfl
@[simp] theorem State.enterTrap_mgr (s : State) (src : BitVec 2) (code : BitVec 8) (v : Word) : (s.enterTrap src code v).mgr = s.mgr := rfl
@[simp] theorem State.enterTrap_down (s : State) (src : BitVec 2) (code : BitVec 8) (v : Word) : (s.enterTrap src code v).down = s.down := rfl
@[simp] theorem State.enterTrap_msix (s : State) (src : BitVec 2) (code : BitVec 8) (v : Word) : (s.enterTrap src code v).msix = s.msix := rfl
@[simp] theorem State.enterTrap_out (s : State) (src : BitVec 2) (code : BitVec 8) (v : Word) : (s.enterTrap src code v).out = s.out := rfl
@[simp] theorem State.enterTrap_drains (s : State) (src : BitVec 2) (code : BitVec 8) (v : Word) : (s.enterTrap src code v).drains = s.drains := rfl
@[simp] theorem State.at_cc (s : State) (c h : Nat) : (s.at c h).cc = c := rfl
@[simp] theorem State.at_ch (s : State) (c h : Nat) : (s.at c h).ch = h := rfl
@[simp] theorem State.modMgr_mgr (s : State) (f : Mgr → Mgr) : (s.modMgr f).mgr = f s.mgr := rfl

/-! ### Updates of a hart -/

@[simp] theorem Hart.modTrap_pc (k : Hart) (f : TrapRegs → TrapRegs) : (k.modTrap f).pc = k.pc := rfl
@[simp] theorem Hart.modTrap_sregs (k : Hart) (f : TrapRegs → TrapRegs) : (k.modTrap f).sregs = k.sregs := rfl
@[simp] theorem Hart.modTrap_trap (k : Hart) (f : TrapRegs → TrapRegs) : (k.modTrap f).trap = f k.trap := rfl
@[simp] theorem Hart.modTrap_vec (k : Hart) (f : TrapRegs → TrapRegs) : (k.modTrap f).vec = k.vec := rfl
@[simp] theorem Hart.modTrap_cfg (k : Hart) (f : TrapRegs → TrapRegs) : (k.modTrap f).cfg = k.cfg := rfl
@[simp] theorem Hart.modTrap_store (k : Hart) (f : TrapRegs → TrapRegs) : (k.modTrap f).store = k.store := rfl
@[simp] theorem Hart.modTrap_q (k : Hart) (f : TrapRegs → TrapRegs) : (k.modTrap f).q = k.q := rfl
@[simp] theorem Hart.modTrap_place (k : Hart) (f : TrapRegs → TrapRegs) : (k.modTrap f).place = k.place := rfl
@[simp] theorem Hart.modTrap_lmbase (k : Hart) (f : TrapRegs → TrapRegs) : (k.modTrap f).lmbase = k.lmbase := rfl
@[simp] theorem Hart.modTrap_lmsize (k : Hart) (f : TrapRegs → TrapRegs) : (k.modTrap f).lmsize = k.lmsize := rfl
@[simp] theorem Hart.modTrap_ptroot (k : Hart) (f : TrapRegs → TrapRegs) : (k.modTrap f).ptroot = k.ptroot := rfl
@[simp] theorem Hart.modTrap_inbox (k : Hart) (f : TrapRegs → TrapRegs) : (k.modTrap f).inbox = k.inbox := rfl
@[simp] theorem Hart.modTrap_ecap (k : Hart) (f : TrapRegs → TrapRegs) : (k.modTrap f).ecap = k.ecap := rfl
@[simp] theorem Hart.modTrap_sbuf (k : Hart) (f : TrapRegs → TrapRegs) : (k.modTrap f).sbuf = k.sbuf := rfl
@[simp] theorem Hart.modTrap_wait (k : Hart) (f : TrapRegs → TrapRegs) : (k.modTrap f).wait = k.wait := rfl
@[simp] theorem Hart.modTrap_farms (k : Hart) (f : TrapRegs → TrapRegs) : (k.modTrap f).farms = k.farms := rfl
@[simp] theorem Hart.modTrap_halted (k : Hart) (f : TrapRegs → TrapRegs) : (k.modTrap f).halted = k.halted := rfl
@[simp] theorem Hart.modTrap_dbgStep (k : Hart) (f : TrapRegs → TrapRegs) : (k.modTrap f).dbgStep = k.dbgStep := rfl
@[simp] theorem Hart.modVec_pc (k : Hart) (f : VecRegs → VecRegs) : (k.modVec f).pc = k.pc := rfl
@[simp] theorem Hart.modVec_sregs (k : Hart) (f : VecRegs → VecRegs) : (k.modVec f).sregs = k.sregs := rfl
@[simp] theorem Hart.modVec_trap (k : Hart) (f : VecRegs → VecRegs) : (k.modVec f).trap = k.trap := rfl
@[simp] theorem Hart.modVec_vec (k : Hart) (f : VecRegs → VecRegs) : (k.modVec f).vec = f k.vec := rfl
@[simp] theorem Hart.modVec_cfg (k : Hart) (f : VecRegs → VecRegs) : (k.modVec f).cfg = k.cfg := rfl
@[simp] theorem Hart.modVec_store (k : Hart) (f : VecRegs → VecRegs) : (k.modVec f).store = k.store := rfl
@[simp] theorem Hart.modVec_q (k : Hart) (f : VecRegs → VecRegs) : (k.modVec f).q = k.q := rfl
@[simp] theorem Hart.modVec_place (k : Hart) (f : VecRegs → VecRegs) : (k.modVec f).place = k.place := rfl
@[simp] theorem Hart.modVec_lmbase (k : Hart) (f : VecRegs → VecRegs) : (k.modVec f).lmbase = k.lmbase := rfl
@[simp] theorem Hart.modVec_lmsize (k : Hart) (f : VecRegs → VecRegs) : (k.modVec f).lmsize = k.lmsize := rfl
@[simp] theorem Hart.modVec_ptroot (k : Hart) (f : VecRegs → VecRegs) : (k.modVec f).ptroot = k.ptroot := rfl
@[simp] theorem Hart.modVec_inbox (k : Hart) (f : VecRegs → VecRegs) : (k.modVec f).inbox = k.inbox := rfl
@[simp] theorem Hart.modVec_ecap (k : Hart) (f : VecRegs → VecRegs) : (k.modVec f).ecap = k.ecap := rfl
@[simp] theorem Hart.modVec_sbuf (k : Hart) (f : VecRegs → VecRegs) : (k.modVec f).sbuf = k.sbuf := rfl
@[simp] theorem Hart.modVec_wait (k : Hart) (f : VecRegs → VecRegs) : (k.modVec f).wait = k.wait := rfl
@[simp] theorem Hart.modVec_farms (k : Hart) (f : VecRegs → VecRegs) : (k.modVec f).farms = k.farms := rfl
@[simp] theorem Hart.modVec_halted (k : Hart) (f : VecRegs → VecRegs) : (k.modVec f).halted = k.halted := rfl
@[simp] theorem Hart.modVec_dbgStep (k : Hart) (f : VecRegs → VecRegs) : (k.modVec f).dbgStep = k.dbgStep := rfl
@[simp] theorem Hart.modStore_pc (k : Hart) (f : VecStore → VecStore) : (k.modStore f).pc = k.pc := rfl
@[simp] theorem Hart.modStore_sregs (k : Hart) (f : VecStore → VecStore) : (k.modStore f).sregs = k.sregs := rfl
@[simp] theorem Hart.modStore_trap (k : Hart) (f : VecStore → VecStore) : (k.modStore f).trap = k.trap := rfl
@[simp] theorem Hart.modStore_vec (k : Hart) (f : VecStore → VecStore) : (k.modStore f).vec = k.vec := rfl
@[simp] theorem Hart.modStore_cfg (k : Hart) (f : VecStore → VecStore) : (k.modStore f).cfg = k.cfg := rfl
@[simp] theorem Hart.modStore_store (k : Hart) (f : VecStore → VecStore) : (k.modStore f).store = f k.store := rfl
@[simp] theorem Hart.modStore_q (k : Hart) (f : VecStore → VecStore) : (k.modStore f).q = k.q := rfl
@[simp] theorem Hart.modStore_place (k : Hart) (f : VecStore → VecStore) : (k.modStore f).place = k.place := rfl
@[simp] theorem Hart.modStore_lmbase (k : Hart) (f : VecStore → VecStore) : (k.modStore f).lmbase = k.lmbase := rfl
@[simp] theorem Hart.modStore_lmsize (k : Hart) (f : VecStore → VecStore) : (k.modStore f).lmsize = k.lmsize := rfl
@[simp] theorem Hart.modStore_ptroot (k : Hart) (f : VecStore → VecStore) : (k.modStore f).ptroot = k.ptroot := rfl
@[simp] theorem Hart.modStore_inbox (k : Hart) (f : VecStore → VecStore) : (k.modStore f).inbox = k.inbox := rfl
@[simp] theorem Hart.modStore_ecap (k : Hart) (f : VecStore → VecStore) : (k.modStore f).ecap = k.ecap := rfl
@[simp] theorem Hart.modStore_sbuf (k : Hart) (f : VecStore → VecStore) : (k.modStore f).sbuf = k.sbuf := rfl
@[simp] theorem Hart.modStore_wait (k : Hart) (f : VecStore → VecStore) : (k.modStore f).wait = k.wait := rfl
@[simp] theorem Hart.modStore_farms (k : Hart) (f : VecStore → VecStore) : (k.modStore f).farms = k.farms := rfl
@[simp] theorem Hart.modStore_halted (k : Hart) (f : VecStore → VecStore) : (k.modStore f).halted = k.halted := rfl
@[simp] theorem Hart.modStore_dbgStep (k : Hart) (f : VecStore → VecStore) : (k.modStore f).dbgStep = k.dbgStep := rfl
@[simp] theorem Hart.modQ_pc (k : Hart) (f : Queues → Queues) : (k.modQ f).pc = k.pc := rfl
@[simp] theorem Hart.modQ_sregs (k : Hart) (f : Queues → Queues) : (k.modQ f).sregs = k.sregs := rfl
@[simp] theorem Hart.modQ_trap (k : Hart) (f : Queues → Queues) : (k.modQ f).trap = k.trap := rfl
@[simp] theorem Hart.modQ_vec (k : Hart) (f : Queues → Queues) : (k.modQ f).vec = k.vec := rfl
@[simp] theorem Hart.modQ_cfg (k : Hart) (f : Queues → Queues) : (k.modQ f).cfg = k.cfg := rfl
@[simp] theorem Hart.modQ_store (k : Hart) (f : Queues → Queues) : (k.modQ f).store = k.store := rfl
@[simp] theorem Hart.modQ_q (k : Hart) (f : Queues → Queues) : (k.modQ f).q = f k.q := rfl
@[simp] theorem Hart.modQ_place (k : Hart) (f : Queues → Queues) : (k.modQ f).place = k.place := rfl
@[simp] theorem Hart.modQ_lmbase (k : Hart) (f : Queues → Queues) : (k.modQ f).lmbase = k.lmbase := rfl
@[simp] theorem Hart.modQ_lmsize (k : Hart) (f : Queues → Queues) : (k.modQ f).lmsize = k.lmsize := rfl
@[simp] theorem Hart.modQ_ptroot (k : Hart) (f : Queues → Queues) : (k.modQ f).ptroot = k.ptroot := rfl
@[simp] theorem Hart.modQ_inbox (k : Hart) (f : Queues → Queues) : (k.modQ f).inbox = k.inbox := rfl
@[simp] theorem Hart.modQ_ecap (k : Hart) (f : Queues → Queues) : (k.modQ f).ecap = k.ecap := rfl
@[simp] theorem Hart.modQ_sbuf (k : Hart) (f : Queues → Queues) : (k.modQ f).sbuf = k.sbuf := rfl
@[simp] theorem Hart.modQ_wait (k : Hart) (f : Queues → Queues) : (k.modQ f).wait = k.wait := rfl
@[simp] theorem Hart.modQ_farms (k : Hart) (f : Queues → Queues) : (k.modQ f).farms = k.farms := rfl
@[simp] theorem Hart.modQ_halted (k : Hart) (f : Queues → Queues) : (k.modQ f).halted = k.halted := rfl
@[simp] theorem Hart.modQ_dbgStep (k : Hart) (f : Queues → Queues) : (k.modQ f).dbgStep = k.dbgStep := rfl
@[simp] theorem Hart.modCfg_pc (k : Hart) (f : Cfg → Cfg) : (k.modCfg f).pc = k.pc := rfl
@[simp] theorem Hart.modCfg_sregs (k : Hart) (f : Cfg → Cfg) : (k.modCfg f).sregs = k.sregs := rfl
@[simp] theorem Hart.modCfg_trap (k : Hart) (f : Cfg → Cfg) : (k.modCfg f).trap = k.trap := rfl
@[simp] theorem Hart.modCfg_vec (k : Hart) (f : Cfg → Cfg) : (k.modCfg f).vec = k.vec := rfl
@[simp] theorem Hart.modCfg_cfg (k : Hart) (f : Cfg → Cfg) : (k.modCfg f).cfg = f k.cfg := rfl
@[simp] theorem Hart.modCfg_store (k : Hart) (f : Cfg → Cfg) : (k.modCfg f).store = k.store := rfl
@[simp] theorem Hart.modCfg_q (k : Hart) (f : Cfg → Cfg) : (k.modCfg f).q = k.q := rfl
@[simp] theorem Hart.modCfg_place (k : Hart) (f : Cfg → Cfg) : (k.modCfg f).place = k.place := rfl
@[simp] theorem Hart.modCfg_lmbase (k : Hart) (f : Cfg → Cfg) : (k.modCfg f).lmbase = k.lmbase := rfl
@[simp] theorem Hart.modCfg_lmsize (k : Hart) (f : Cfg → Cfg) : (k.modCfg f).lmsize = k.lmsize := rfl
@[simp] theorem Hart.modCfg_ptroot (k : Hart) (f : Cfg → Cfg) : (k.modCfg f).ptroot = k.ptroot := rfl
@[simp] theorem Hart.modCfg_inbox (k : Hart) (f : Cfg → Cfg) : (k.modCfg f).inbox = k.inbox := rfl
@[simp] theorem Hart.modCfg_ecap (k : Hart) (f : Cfg → Cfg) : (k.modCfg f).ecap = k.ecap := rfl
@[simp] theorem Hart.modCfg_sbuf (k : Hart) (f : Cfg → Cfg) : (k.modCfg f).sbuf = k.sbuf := rfl
@[simp] theorem Hart.modCfg_wait (k : Hart) (f : Cfg → Cfg) : (k.modCfg f).wait = k.wait := rfl
@[simp] theorem Hart.modCfg_farms (k : Hart) (f : Cfg → Cfg) : (k.modCfg f).farms = k.farms := rfl
@[simp] theorem Hart.modCfg_halted (k : Hart) (f : Cfg → Cfg) : (k.modCfg f).halted = k.halted := rfl
@[simp] theorem Hart.modCfg_dbgStep (k : Hart) (f : Cfg → Cfg) : (k.modCfg f).dbgStep = k.dbgStep := rfl
@[simp] theorem Hart.granted_pc (k : Hart) (rs : List Resource) : (k.granted rs).pc = k.pc := rfl
@[simp] theorem Hart.granted_sregs (k : Hart) (rs : List Resource) : (k.granted rs).sregs = k.sregs := rfl
@[simp] theorem Hart.granted_trap (k : Hart) (rs : List Resource) : (k.granted rs).trap = k.trap := rfl
@[simp] theorem Hart.granted_vec (k : Hart) (rs : List Resource) : (k.granted rs).vec = k.vec := rfl
@[simp] theorem Hart.granted_cfg (k : Hart) (rs : List Resource) : (k.granted rs).cfg = k.cfg := rfl
@[simp] theorem Hart.granted_store (k : Hart) (rs : List Resource) : (k.granted rs).store = k.store := rfl
@[simp] theorem Hart.granted_q (k : Hart) (rs : List Resource) : (k.granted rs).q = k.q := rfl
@[simp] theorem Hart.granted_lmbase (k : Hart) (rs : List Resource) : (k.granted rs).lmbase = k.lmbase := rfl
@[simp] theorem Hart.granted_lmsize (k : Hart) (rs : List Resource) : (k.granted rs).lmsize = k.lmsize := rfl
@[simp] theorem Hart.granted_ptroot (k : Hart) (rs : List Resource) : (k.granted rs).ptroot = k.ptroot := rfl
@[simp] theorem Hart.granted_inbox (k : Hart) (rs : List Resource) : (k.granted rs).inbox = k.inbox := rfl
@[simp] theorem Hart.granted_ecap (k : Hart) (rs : List Resource) : (k.granted rs).ecap = k.ecap := rfl
@[simp] theorem Hart.granted_sbuf (k : Hart) (rs : List Resource) : (k.granted rs).sbuf = k.sbuf := rfl
@[simp] theorem Hart.granted_wait (k : Hart) (rs : List Resource) : (k.granted rs).wait = k.wait := rfl
@[simp] theorem Hart.granted_farms (k : Hart) (rs : List Resource) : (k.granted rs).farms = k.farms := rfl
@[simp] theorem Hart.granted_halted (k : Hart) (rs : List Resource) : (k.granted rs).halted = k.halted := rfl
@[simp] theorem Hart.granted_dbgStep (k : Hart) (rs : List Resource) : (k.granted rs).dbgStep = k.dbgStep := rfl
@[simp] theorem Hart.wr_pc (k : Hart) (r : BitVec 5) (v : Word) : (k.wr r v).pc = k.pc := by unfold Hart.wr; split <;> rfl
@[simp] theorem Hart.wr_trap (k : Hart) (r : BitVec 5) (v : Word) : (k.wr r v).trap = k.trap := by unfold Hart.wr; split <;> rfl
@[simp] theorem Hart.wr_vec (k : Hart) (r : BitVec 5) (v : Word) : (k.wr r v).vec = k.vec := by unfold Hart.wr; split <;> rfl
@[simp] theorem Hart.wr_cfg (k : Hart) (r : BitVec 5) (v : Word) : (k.wr r v).cfg = k.cfg := by unfold Hart.wr; split <;> rfl
@[simp] theorem Hart.wr_store (k : Hart) (r : BitVec 5) (v : Word) : (k.wr r v).store = k.store := by unfold Hart.wr; split <;> rfl
@[simp] theorem Hart.wr_q (k : Hart) (r : BitVec 5) (v : Word) : (k.wr r v).q = k.q := by unfold Hart.wr; split <;> rfl
@[simp] theorem Hart.wr_place (k : Hart) (r : BitVec 5) (v : Word) : (k.wr r v).place = k.place := by unfold Hart.wr; split <;> rfl
@[simp] theorem Hart.wr_lmbase (k : Hart) (r : BitVec 5) (v : Word) : (k.wr r v).lmbase = k.lmbase := by unfold Hart.wr; split <;> rfl
@[simp] theorem Hart.wr_lmsize (k : Hart) (r : BitVec 5) (v : Word) : (k.wr r v).lmsize = k.lmsize := by unfold Hart.wr; split <;> rfl
@[simp] theorem Hart.wr_ptroot (k : Hart) (r : BitVec 5) (v : Word) : (k.wr r v).ptroot = k.ptroot := by unfold Hart.wr; split <;> rfl
@[simp] theorem Hart.wr_inbox (k : Hart) (r : BitVec 5) (v : Word) : (k.wr r v).inbox = k.inbox := by unfold Hart.wr; split <;> rfl
@[simp] theorem Hart.wr_ecap (k : Hart) (r : BitVec 5) (v : Word) : (k.wr r v).ecap = k.ecap := by unfold Hart.wr; split <;> rfl
@[simp] theorem Hart.wr_sbuf (k : Hart) (r : BitVec 5) (v : Word) : (k.wr r v).sbuf = k.sbuf := by unfold Hart.wr; split <;> rfl
@[simp] theorem Hart.wr_wait (k : Hart) (r : BitVec 5) (v : Word) : (k.wr r v).wait = k.wait := by unfold Hart.wr; split <;> rfl
@[simp] theorem Hart.wr_farms (k : Hart) (r : BitVec 5) (v : Word) : (k.wr r v).farms = k.farms := by unfold Hart.wr; split <;> rfl
@[simp] theorem Hart.wr_halted (k : Hart) (r : BitVec 5) (v : Word) : (k.wr r v).halted = k.halted := by unfold Hart.wr; split <;> rfl
@[simp] theorem Hart.wr_dbgStep (k : Hart) (r : BitVec 5) (v : Word) : (k.wr r v).dbgStep = k.dbgStep := by unfold Hart.wr; split <;> rfl

/-! ### A word that has dispatched, and one that is to dispatch again (02_stream R45) -/

@[simp] theorem Entry.undispatched_word (x : Entry) : x.undispatched.word = x.word := rfl
@[simp] theorem Entry.undispatched_addr (x : Entry) : x.undispatched.addr = x.addr := rfl
@[simp] theorem Entry.undispatched_sval (x : Entry) : x.undispatched.sval = x.sval := rfl
@[simp] theorem Entry.undispatched_fval (x : Entry) : x.undispatched.fval = x.fval := rfl
@[simp] theorem Entry.undispatched_cfg (x : Entry) : x.undispatched.cfg = x.cfg := rfl
@[simp] theorem Entry.undispatched_seq (x : Entry) : x.undispatched.seq = x.seq := rfl
@[simp] theorem Entry.undispatched_pre (x : Entry) : x.undispatched.pre = x.pre := rfl
@[simp] theorem Entry.undispatched_bval (x : Entry) : x.undispatched.bval = none := rfl

end Sys2Proof.Machine
end

