-- ==== Sys2Proof/Laws/Access.lean ====
section
/-! SUPPORT. Reads after updates: cores, harts, scalar registers, tenancies and bytes of memory; and memory operations
keep the canonical form. -/

namespace Sys2Proof.Machine

/-! ### Cores and harts -/

@[simp] theorem State.coreAt_setCoreAt_same (s : State) (c : Nat) (x : Core) : (s.setCoreAt c x).coreAt c = x := by
  simp [State.setCoreAt, State.coreAt]

theorem State.coreAt_setCoreAt_ne (s : State) (c i : Nat) (x : Core) (h : i ≠ c) :
    (s.setCoreAt c x).coreAt i = s.coreAt i := by
  simp [State.setCoreAt, State.coreAt, mget_mset_ne _ _ _ _ _ h]

@[simp] theorem State.coreAt_modCoreAt_same (s : State) (c : Nat) (f : Core → Core) :
    (s.modCoreAt c f).coreAt c = f (s.coreAt c) := by
  simp [State.modCoreAt]

theorem State.coreAt_modCoreAt_ne (s : State) (c i : Nat) (f : Core → Core) (h : i ≠ c) :
    (s.modCoreAt c f).coreAt i = s.coreAt i := by
  simp [State.modCoreAt, State.coreAt_setCoreAt_ne _ _ _ _ h]

@[simp] theorem State.hartAt_modHartAt_same (s : State) (c h : Nat) (f : Hart → Hart) :
    (s.modHartAt c h f).hartAt c h = f (s.hartAt c h) := by
  simp [State.modHartAt, State.hartAt, Core.hartAt]

theorem State.hartAt_modHartAt_ne (s : State) (c h i j : Nat) (f : Hart → Hart) (n : (i, j) ≠ (c, h)) :
    (s.modHartAt c h f).hartAt i j = s.hartAt i j := by
  unfold State.modHartAt State.hartAt
  by_cases hc : i = c
  · subst hc
    have hj : j ≠ h := fun e => n (by rw [e])
    simp [Core.hartAt, mget_mset_ne _ _ _ _ _ hj]
  · rw [State.coreAt_modCoreAt_ne _ _ _ _ hc]

@[simp] theorem State.hart_modHart (s : State) (f : Hart → Hart) : (s.modHart f).hart = f s.hart := by
  simp [State.modHart, State.hart]

/-- Two changes of the hart whose turn it is are one. -/
@[simp] theorem State.modHart_modHart (s : State) (f g : Hart → Hart) :
    (s.modHart f).modHart g = s.modHart fun k => g (f k) := by
  simp [State.modHart, State.modHartAt, State.modCoreAt, State.setCoreAt, State.coreAt, Core.hartAt]

@[simp] theorem State.modCoreAt_modCoreAt (s : State) (c : Nat) (f g : Core → Core) :
    (s.modCoreAt c f).modCoreAt c g = s.modCoreAt c fun y => g (f y) := by
  simp [State.modCoreAt, State.setCoreAt, State.coreAt]

/-- A change of the hart whose turn it is leaves everything else. -/
theorem State.sameElse_modHart (s : State) (f : Hart → Hart) : SameElse s (s.modHart f) where
  harts c h n := State.hartAt_modHartAt_ne s s.cc s.ch c h f n
  cores c := by
    by_cases hc : c = s.cc
    · subst hc
      simp [State.modHart, State.modHartAt]
    · simp [State.modHart, State.modHartAt, State.coreAt_modCoreAt_ne _ _ _ _ hc]
  bytes _ := rfl
  rest := rfl

/-- A grant noted changes no hart. -/
@[simp] theorem State.hartAt_noteGrant (s : State) (rs : List Resource) (c h : Nat) :
    (s.noteGrant rs).hartAt c h = s.hartAt c h := by
  unfold State.noteGrant State.hartAt State.modCore
  by_cases hc : c = s.cc
  · subst hc; simp [Core.hartAt]
  · rw [State.coreAt_modCoreAt_ne _ _ _ _ hc]

@[simp] theorem State.hart_noteGrant (s : State) (rs : List Resource) : (s.noteGrant rs).hart = s.hart :=
  s.hartAt_noteGrant rs _ _

/-- A mark left by a walk changes lines only. -/
theorem State.markWalk_eq (s : State) (c : Nat) (root : Word) (code : BitVec 8) (va : Word) :
    s.markWalk c root code va = { s with marks := (s.markWalk c root code va).marks, latent := (s.markWalk c root code va).latent } := by
  unfold State.markWalk
  split
  · rfl
  · split <;> rfl

@[simp] theorem State.markWalk_hart (s : State) (c : Nat) (root : Word) (code : BitVec 8) (va : Word) :
    (s.markWalk c root code va).hart = s.hart := by
  rw [State.markWalk_eq]; rfl

@[simp] theorem State.markWalk_mgr (s : State) (c : Nat) (root : Word) (code : BitVec 8) (va : Word) :
    (s.markWalk c root code va).mgr = s.mgr := by
  rw [State.markWalk_eq]

/-- A trap of another cause leaves no mark. -/
theorem State.markWalk_other (s : State) (c : Nat) (root : Word) (code : BitVec 8) (va : Word) (h : code ≠ 0x1A) :
    s.markWalk c root code va = s := by
  rw [State.markWalk, if_pos (Or.inl h)]

/-! ### Scalar registers (02_stream R30) -/

@[simp] theorem Hart.rd_zero (k : Hart) : k.rd 0 = 0 := rfl

/-- A register written reads as the value, but s0 as zero; another one as before. -/
theorem Hart.rd_wr (k : Hart) (d r : BitVec 5) (v : Word) :
    (k.wr d v).rd r = if r = 0 then 0 else if r = d then v else k.rd r := by
  unfold Hart.rd Hart.wr
  by_cases hr : r = 0
  · rw [if_pos hr, if_pos hr]
  · rw [if_neg hr, if_neg hr, if_neg hr]
    by_cases hd : d = 0
    · rw [if_pos hd, if_neg fun e => hr (e.trans hd)]
    · rw [if_neg hd]
      by_cases e : r = d
      · subst e; rw [if_pos rfl]; simp
      · rw [if_neg e]
        have : d.toNat ≠ r.toNat := fun h => e (BitVec.eq_of_toNat_eq h.symm)
        simp [this]

theorem State.rd_modHart (s : State) (f : Hart → Hart) (r : BitVec 5) : (s.modHart f).rd r = (f s.hart).rd r := by
  simp [State.rd]

/-! ### Bytes of memory -/

/-- A byte that was put reads as it. -/
@[simp] theorem State.byte_putByte_same (s : State) (t : Bool) (a : Nat) (b : Byte) : (s.putByte t a b).byte a = b := by
  simp [State.putByte, State.byte]

/-- Every other byte reads as before. -/
theorem State.byte_putByte_ne (s : State) (t : Bool) (a i : Nat) (b : Byte) (h : i ≠ a) :
    (s.putByte t a b).byte i = s.byte i := by
  simp [State.putByte, State.byte, mget_mput_ne _ _ _ _ _ h]

/-! ### The canonical form -/

theorem State.memOk_putByte (s : State) (t : Bool) (a : Nat) (b : Byte) (h : s.memOk) : (s.putByte t a b).memOk :=
  mwf_mput _ _ _ _ h

theorem State.memOk_patchByte (s : State) (a : Nat) (b : Byte) (h : s.memOk) : (s.patchByte a b).memOk := by
  unfold State.patchByte
  split
  · exact h
  · exact mwf_mput _ _ _ _ h

theorem State.memOk_setCw (s : State) (l : Nat) (on : Bool) (h : s.memOk) : (s.setCw l on).memOk :=
  State.memOk_patchByte _ _ _ h

theorem State.memOk_raise (s : State) (t n : Nat) (h : s.memOk) : (s.raise t n).memOk := by
  unfold State.raise
  dsimp only
  repeat' split
  all_goals exact h

/-- A fold keeps what every step keeps. -/
theorem foldl_keeps {α β : Type} (P : α → Prop) (f : α → β → α) (hf : ∀ a b, P a → P (f a b)) (l : List β) (a : α)
    (h : P a) : P (l.foldl f a) := by
  induction l generalizing a with
  | nil => exact h
  | cons b r ih => exact ih _ (hf a b h)

theorem State.memOk_failSnapshot (s : State) (t : Nat) (r : BitVec 5) (h : s.memOk) : (s.failSnapshot t r).memOk :=
  State.memOk_raise _ _ _ (foldl_keeps State.memOk _ (fun s u hs => State.memOk_setCw s u.leafAt false hs) _ _ h)

theorem State.memOk_fillUnit (s : State) (u : Nat) (img : List (Nat × Byte)) (h : s.memOk) : (s.fillUnit u img).memOk := by
  suffices ∀ m : List Host.Cell, Memory.wf m = true →
      Memory.wf (img.foldl (fun m c => mput memDefault m (65536 * u + c.1 % 65536) c.2) m) = true from
    this _ (mwf_filter _ _ _ h)
  induction img with
  | nil => exact fun _ hm => hm
  | cons c r ih => exact fun m hm => ih _ (mwf_mput _ _ _ _ hm)

theorem State.memOk_copyUnit (s : State) (t u : Nat) (h : s.memOk) : (s.copyUnit t u).memOk := by
  unfold State.copyUnit
  dsimp only
  split
  · exact State.memOk_failSnapshot _ _ _ h
  · split
    · exact h
    · have hu : ((s.tenAt t).prop.units.foldl
          (fun s x => if x.unit = u ∧ !x.drained then (s.setCw x.leafAt true).dropLeaf x.leafAt else s) s).memOk := by
        refine foldl_keeps State.memOk _ (fun s x hs => ?_) _ _ h
        split
        · exact State.memOk_setCw _ _ _ hs
        · exact hs
      exact State.memOk_fillUnit _ _ _ hu

theorem State.memOk_mixImage (s : State) (p : Propolis) (pa : Nat) (v m : Byte) (slot : Nat) (h : s.memOk) :
    (s.mixImage p pa v m slot).memOk := State.memOk_patchByte _ _ _ h

theorem State.memOk_beforeStore (s : State) (step : Option Word) (pa : Nat) (v m : Byte) (h : s.memOk) :
    (s.beforeStore step pa v m).memOk := by
  refine foldl_keeps State.memOk _ (fun s p hs => ?_) _ _ h
  dsimp only
  split
  · split
    · exact hs
    · split
      · split
        · exact State.memOk_copyUnit _ _ _ hs
        · exact hs
      · split
        · exact hs
        · exact State.memOk_mixImage _ _ _ _ _ _ hs
  · exact hs

theorem State.memOk_putBytes (ctx : StoreCtx) (bs : List (Byte × Byte)) (s : State) (pa : Nat) (h : s.memOk) :
    (s.putBytes ctx pa bs).memOk := by
  induction bs generalizing s pa with
  | nil => exact h
  | cons b r ih => exact ih _ _ (State.memOk_putByte _ _ _ _ (State.memOk_beforeStore _ _ _ _ _ h))

theorem State.memOk_writeMem (s : State) (ctx : StoreCtx) (pa : Nat) (bs : List (Byte × Byte)) (h : s.memOk) :
    (s.writeMem ctx pa bs).memOk := by
  unfold State.writeMem
  dsimp only
  repeat' split
  all_goals first
    | exact h
    | exact State.memOk_putBytes _ _ _ _ h
    | exact State.memOk_putBytes _ _ _ _ (State.memOk_putBytes _ _ _ _ h)

theorem State.memOk_write (s : State) (ctx : StoreCtx) (a : Acc) (h : s.memOk) : (s.write ctx a).memOk := by
  unfold State.write
  split
  · exact State.memOk_writeMem _ _ _ _ h
  · exact h
  · exact h

/-- The write accesses of an instruction keep the canonical form. -/
theorem State.memOk_writeAll (s : State) (ctx : StoreCtx) (as : List Acc) (h : s.memOk) : (s.writeAll ctx as).memOk :=
  foldl_keeps State.memOk _ (fun s a hs => State.memOk_write s ctx a hs) _ _
    (foldl_keeps State.memOk State.cleanLine (fun _ _ hs => hs) _ _ h)

theorem State.memOk_setDirtyBit (s : State) (l : Nat) (h : s.memOk) : (s.setDirtyBit l).memOk := by
  unfold State.setDirtyBit
  dsimp only
  split
  · exact h
  · split
    · exact h
    · exact mwf_mput _ _ _ _ h

theorem State.memOk_setDirty (s : State) (ps : List Part) (h : s.memOk) : (s.setDirty ps).memOk := by
  refine foldl_keeps State.memOk _ (fun s p hs => ?_) _ _ h
  split
  · split
    · exact hs
    · exact State.memOk_setDirtyBit _ _ hs
  · exact hs

theorem State.memOk_touch (s : State) (c : Nat) (k : Hart) (va : Word) (h : s.memOk) : (s.touch c k va).memOk := by
  unfold State.touch
  split
  · exact h
  · split
    · exact h
    · dsimp only
      split <;> exact h

theorem State.memOk_trace (s : State) (kind : Nat) (a : Word) (h : s.memOk) : (s.trace kind a).memOk := by
  unfold State.trace
  split
  · dsimp only
    split
    · exact h
    · exact State.memOk_writeMem _ _ _ _ h
  · exact h

end Sys2Proof.Machine
end

