-- ==== Sys2Proof/Laws/Finish.lean ====
section
/-! SUPPORT. What the shared ends of scalar instructions do: completion, a register result, a trap. -/

namespace Sys2Proof.Machine

/-- A change of the hart depends on what it makes of that hart only. -/
theorem State.modHart_congr (s : State) (f g : Hart → Hart) (h : f s.hart = g s.hart) : s.modHart f = s.modHart g := by
  have e : f ((s.coreAt s.cc).hartAt s.ch) = g ((s.coreAt s.cc).hartAt s.ch) := h
  simp only [State.modHart, State.modHartAt, State.modCoreAt, e]

/-- An untraced instruction leaves no record. -/
theorem State.trace_none (s : State) (h : s.mgr.traced ≠ some (s.cc, s.ch)) (k : Nat) (a : Word) : s.trace k a = s := by
  simp [State.trace, h]

/-- Outside a debug step nothing ends with an instruction. -/
theorem State.settleStep_none (s : State) (h : s.hart.dbgStep = false) : s.settleStep = s := by
  simp [State.settleStep, h]

/-- An untraced instruction that completes outside a debug step moves the hart on, and changes nothing else; BPC stays
where it is kept. -/
theorem State.retireTo_eq (s : State) (keep : Bool) (pc : Word) (h : s.Quiet) :
    s.retireTo keep pc = s.modHart fun k =>
      { k.retire pc with vec := { k.vec with bpc := if keep then k.vec.bpc else 0 } } := by
  unfold State.retireTo
  rw [State.trace_none s h.1, State.settleStep_none _ (by simp [Hart.granted, h.2])]
  apply State.modHart_congr
  have hg : (s.hart.place.levels.filter fun p => !([Resource.issue] : List Resource).contains p.1)
      = s.hart.place.levels.filter fun p => p.1 != .issue := by
    congr 1
    funext p
    cases p.1 <;> rfl
  simp only [Hart.retire, Hart.granted, hg]

/-- An untraced instruction that completes outside a debug step moves the hart on, and changes nothing else. -/
theorem State.complete_eq (s : State) (pc : Word) (h : s.Quiet) : s.complete pc = s.modHart fun k => k.retire pc := by
  rw [State.complete, State.retireTo_eq s _ _ h]
  exact State.modHart_congr _ _ _ rfl

theorem State.Quiet.modHart {s : State} (h : s.Quiet) (f : Hart → Hart) (hf : (f s.hart).dbgStep = false) :
    (s.modHart f).Quiet := ⟨h.1, by simpa using hf⟩

/-- The hart changed by a register write and the end of an instruction is a register result. -/
theorem sets_of (s : State) (pc : Word) (d : BitVec 5) (v : Word) (f : Hart → Hart) (hr : (f s.hart).sregs = s.hart.sregs) :
    Sets s (.next (s.modHart fun k => ((f k).wr d v).retire pc)) pc d v f := by
  refine ⟨_, rfl, State.sameElse_modHart s _, ?_, ?_⟩
  · intro r
    have : ((f s.hart).wr d v).rd r = if r = 0 then 0 else if r = d then v else (f s.hart).rd r := Hart.rd_wr _ _ _ _
    rw [State.rd_modHart]
    have hx : (f s.hart).rd r = s.rd r := by simp only [State.rd, Hart.rd, hr]
    rw [← hx, ← this]
    rfl
  · simp [Hart.retire]

/-- A register result as an untraced instruction leaves it. -/
theorem finish_eq (s : State) (d : BitVec 5) (v : Word) (h : s.Quiet) :
    finish d v s = .next (s.modHart fun k => (k.wr d v).retire s.nextPc) := by
  have hq : (s.wr d v).Quiet := h.modHart _ (by simpa using h.2)
  rw [finish, State.advance, State.complete_eq _ _ hq]
  simp [State.wr, State.nextPc]

/-- The end with a register result changes the register, the PC and the end's own fields. -/
theorem finish_sets (s : State) (d : BitVec 5) (v : Word) (h : s.Quiet) : Sets s (finish d v s) s.nextPc d v id := by
  rw [finish_eq s d v h]
  exact sets_of s _ d v id rfl

/-- The same after another change of the hart. -/
theorem finish_sets_modHart (s : State) (d : BitVec 5) (v : Word) (f : Hart → Hart) (h : s.Quiet)
    (hf : (f s.hart).dbgStep = false) (hr : (f s.hart).sregs = s.hart.sregs) (hp : (f s.hart).pc = s.hart.pc) :
    Sets s (finish d v (s.modHart f)) s.nextPc d v f := by
  rw [finish_eq _ d v (h.modHart f hf)]
  have e : (s.modHart f).nextPc = s.nextPc := by simp [State.nextPc, hp]
  simpa [e] using sets_of s s.nextPc d v f hr

/-- An untraced instruction that only moves the PC. -/
theorem complete_ends (s : State) (pc : Word) (h : s.Quiet) : Ends s (.next (s.complete pc)) pc id :=
  ⟨_, rfl, by rw [State.complete_eq s pc h]; exact State.sameElse_modHart s _, by rw [State.complete_eq s pc h]; simp⟩

/-! ### Traps (14_system R313) -/

/-- With no convoy under way nothing completes before a trap. -/
theorem State.finishFlight_calm (s : State) (h : s.Calm) : s.finishFlight = (false, s) := by
  unfold State.finishFlight State.flightEnd
  simp [h.1]

/-- With no tile on its way nothing of the comb queue completes before a trap. -/
theorem State.finishComb_none (s : State) (h : s.hart.q.comb = none) : s.finishComb = s := by
  unfold State.finishComb
  simp [h]

/-- With no tile on its way a trap of the vector queue is only that. -/
theorem State.trapVector_none (s : State) (code : BitVec 8) (tval : Word) (es : List Nat) (vtpc : Word) (e : Option Nat)
    (h : s.hart.q.comb = none) : s.trapVector code tval es vtpc e = s.vectorTrap code tval es vtpc e := by
  rw [State.trapVector, State.finishComb_none s h]

/-- With no convoy under way nothing completes before a machine check, and no trap is left pending. -/
theorem State.oweFlight_none (s : State) (h : s.hart.q.flight = none) : s.oweFlight = s := by
  unfold State.oweFlight State.flightEnd
  simp [h]

/-- A word that has nothing begun keeps its checks: in a convoy that starts no word is taken as done. -/
theorem resumedWords_nil (ws : List CWord) : resumedWords ws [] = ws := by
  unfold resumedWords
  simp [List.zipIdx_map_fst]

/-- SCAUSE of a trap of the scalar stream: source 0 (14_system R311). -/
theorem scause_scalar : ∀ code : BitVec 8, (0 : BitVec 2) ++ code = code.setWidth 10 := by decide

/-- A synchronous trap of the scalar stream outside a debug step, with no convoy under way. -/
theorem trap_traps (s : State) (code : BitVec 8) (tval : Word) (h : s.Calm) : Traps s (trap code tval s) code tval := by
  obtain ⟨h1, h2, h3, h5, h4⟩ := h
  have e : s.hart.stopQueues = s.hart := by simp [Hart.stopQueues, h1, h2]
  have e2 : s.hart.showLanded = s.hart := by
    unfold Hart.showLanded
    rw [h3]
    simp only [List.foldl_nil]
    rw [← h3]
  generalize hm : s.markWalk s.cc s.hart.ptroot code tval = m
  have hk : m.hart = s.hart := by rw [← hm, State.markWalk_hart]
  have e3 : (m.modHart fun k => k.enterTrap 0 code tval).hart.dbgStep = false := by
    simp [Hart.enterTrap, hk, e, e2, h4]
  have e4 : trap code tval s = .next (m.modHart fun k => k.trapped code tval) := by
    unfold trap State.syncTrap
    rw [hm, State.finishFlight_calm m ⟨by rw [hk]; exact h1, by rw [hk]; exact h2, by rw [hk]; exact h3, by rw [hk]; exact h5, by rw [hk]; exact h4⟩]
    dsimp only
    rw [if_neg Bool.false_ne_true, State.finishComb_none m (by rw [hk]; exact h5), State.enterTrap, State.settleStep_none _ e3]
    congr 1
    apply State.modHart_congr
    have hc : (0 : BitVec 2) ++ code = code.setWidth 10 := scause_scalar code
    simp only [hk, Hart.enterTrap, e, e2, Hart.trapped, hc]
    simp
  rw [e4]
  exact ⟨_, rfl, by rw [hm]; exact State.sameElse_modHart m _, by simp [hk]⟩

end Sys2Proof.Machine
end

