-- ==== Sys2Proof/Laws/Parts.lean ====
section
/-! SUPPORT. The write of one value to its parts: it keeps the canonical form, and a part whose line has an error that no
mark records changes no memory. -/

namespace Sys2Proof.Machine

@[simp] theorem State.mem_markLine (s : State) (l : Nat) : (s.markLine l).mem = s.mem := rfl
@[simp] theorem State.byte_markLine (s : State) (l a : Nat) : (s.markLine l).byte a = s.byte a := rfl

theorem State.memOk_writeParts (s : State) (step : Word) (qs : List (Part × Acc)) (h : s.memOk) :
    (s.writeParts step qs).memOk := by
  refine foldl_keeps State.memOk _ (fun t q ht => ?_) _ _ h
  split
  · exact ht
  · exact State.memOk_write _ _ _ ht

theorem State.memOk_touchAll (s : State) (ps : List (Part × Nat)) (h : s.memOk) : (s.touchAll ps).memOk :=
  foldl_keeps State.memOk _ (fun _ p ht => State.memOk_touch _ _ _ p.1.va ht) _ _ h

theorem State.memOk_putParts (s : State) (step : Word) (ps : List (Part × Nat)) (v m : Nat) (h : s.memOk) :
    (s.putParts step ps v m).memOk :=
  State.memOk_writeParts _ _ _ (State.memOk_setDirty _ _ (State.memOk_touchAll _ _ h))

/-- Where every part lies in such a line, no byte of memory changes. -/
theorem State.mem_writeParts_errors (s : State) (step : Word) (qs : List (Part × Acc))
    (h : ∀ q ∈ qs, (s.errorLine q.2).isSome = true) : (s.writeParts step qs).mem = s.mem := by
  suffices ∀ t : State, (qs.foldl (fun t q => match s.errorLine q.2 with
      | some l => t.markLine l
      | none => t.write (t.ctxOf step q.1) q.2) t).mem = t.mem from this s
  induction qs with
  | nil => exact fun _ => rfl
  | cons q r ih =>
    intro t
    obtain ⟨l, hl⟩ := Option.isSome_iff_exists.mp (h q List.mem_cons_self)
    simp only [List.foldl_cons, ih fun p hp => h p (List.mem_cons_of_mem _ hp), hl, State.mem_markLine]

end Sys2Proof.Machine
end

