-- ==== Sys2Proof/Laws/PerInstr.lean ====
section
/-! SUPPORT. Per-instruction laws. `Kinds`: a term stands for exactly one thing, a scalar word, a vector word, an event of
the table, or a word that no decoder accepts. -/

namespace Sys2Proof.Laws.Kinds

/-- One where a truth value holds. -/
def one (b : Bool) : Nat := if b then 1 else 0

/-- The word that is no instruction. -/
def isIllegal : Instr → Bool
  | .illegalInstruction _ => true
  | _ => false

/-- A term has a 32-bit encoding, a 64-bit encoding, is an event, or is the illegal word: exactly one of the four. -/
def Statement (i : Instr) : Prop :=
  one (encode32 i).isSome + one (encode64 i).isSome + one (Machine.isEvent i) + one (isIllegal i) = 1

theorem add (d : BitVec 5) (a : BitVec 5) (b : BitVec 5) : Statement (.add d a b) := rfl
theorem sub (d : BitVec 5) (a : BitVec 5) (b : BitVec 5) : Statement (.sub d a b) := rfl
theorem and (d : BitVec 5) (a : BitVec 5) (b : BitVec 5) : Statement (.and d a b) := rfl
theorem or (d : BitVec 5) (a : BitVec 5) (b : BitVec 5) : Statement (.or d a b) := rfl
theorem xor (d : BitVec 5) (a : BitVec 5) (b : BitVec 5) : Statement (.xor d a b) := rfl
theorem shl (d : BitVec 5) (a : BitVec 5) (b : BitVec 5) : Statement (.shl d a b) := rfl
theorem shr (d : BitVec 5) (a : BitVec 5) (b : BitVec 5) : Statement (.shr d a b) := rfl
theorem sar (d : BitVec 5) (a : BitVec 5) (b : BitVec 5) : Statement (.sar d a b) := rfl
theorem slt (d : BitVec 5) (a : BitVec 5) (b : BitVec 5) : Statement (.slt d a b) := rfl
theorem sltu (d : BitVec 5) (a : BitVec 5) (b : BitVec 5) : Statement (.sltu d a b) := rfl
theorem mul (d : BitVec 5) (a : BitVec 5) (b : BitVec 5) : Statement (.mul d a b) := rfl
theorem mulh (d : BitVec 5) (a : BitVec 5) (b : BitVec 5) : Statement (.mulh d a b) := rfl
theorem div (d : BitVec 5) (a : BitVec 5) (b : BitVec 5) : Statement (.div d a b) := rfl
theorem divu (d : BitVec 5) (a : BitVec 5) (b : BitVec 5) : Statement (.divu d a b) := rfl
theorem rem (d : BitVec 5) (a : BitVec 5) (b : BitVec 5) : Statement (.rem d a b) := rfl
theorem min (d : BitVec 5) (a : BitVec 5) (b : BitVec 5) : Statement (.min d a b) := rfl
theorem max (d : BitVec 5) (a : BitVec 5) (b : BitVec 5) : Statement (.max d a b) := rfl
theorem addi (d : BitVec 5) (a : BitVec 5) (imm : BitVec 16) : Statement (.addi d a imm) := rfl
theorem andi (d : BitVec 5) (a : BitVec 5) (imm : BitVec 16) : Statement (.andi d a imm) := rfl
theorem ori (d : BitVec 5) (a : BitVec 5) (imm : BitVec 16) : Statement (.ori d a imm) := rfl
theorem xori (d : BitVec 5) (a : BitVec 5) (imm : BitVec 16) : Statement (.xori d a imm) := rfl
theorem slti (d : BitVec 5) (a : BitVec 5) (imm : BitVec 16) : Statement (.slti d a imm) := rfl
theorem shli (d : BitVec 5) (a : BitVec 5) (n : BitVec 6) : Statement (.shli d a n) := rfl
theorem shri (d : BitVec 5) (a : BitVec 5) (n : BitVec 6) : Statement (.shri d a n) := rfl
theorem sari (d : BitVec 5) (a : BitVec 5) (n : BitVec 6) : Statement (.sari d a n) := rfl
theorem lhi (d : BitVec 5) (imm : BitVec 16) : Statement (.lhi d imm) := rfl
theorem addpc (d : BitVec 5) (imm : BitVec 16) : Statement (.addpc d imm) := rfl
theorem ld (d : BitVec 5) (a : BitVec 5) (imm : BitVec 16) : Statement (.ld d a imm) := rfl
theorem lw (d : BitVec 5) (a : BitVec 5) (imm : BitVec 16) : Statement (.lw d a imm) := rfl
theorem lwu (d : BitVec 5) (a : BitVec 5) (imm : BitVec 16) : Statement (.lwu d a imm) := rfl
theorem lh (d : BitVec 5) (a : BitVec 5) (imm : BitVec 16) : Statement (.lh d a imm) := rfl
theorem lhu (d : BitVec 5) (a : BitVec 5) (imm : BitVec 16) : Statement (.lhu d a imm) := rfl
theorem lb (d : BitVec 5) (a : BitVec 5) (imm : BitVec 16) : Statement (.lb d a imm) := rfl
theorem lbu (d : BitVec 5) (a : BitVec 5) (imm : BitVec 16) : Statement (.lbu d a imm) := rfl
theorem sd (d : BitVec 5) (a : BitVec 5) (imm : BitVec 16) : Statement (.sd d a imm) := rfl
theorem sw (d : BitVec 5) (a : BitVec 5) (imm : BitVec 16) : Statement (.sw d a imm) := rfl
theorem sh (d : BitVec 5) (a : BitVec 5) (imm : BitVec 16) : Statement (.sh d a imm) := rfl
theorem sb (d : BitVec 5) (a : BitVec 5) (imm : BitVec 16) : Statement (.sb d a imm) := rfl
theorem beq (a : BitVec 5) (b : BitVec 5) (off : BitVec 16) : Statement (.beq a b off) := rfl
theorem bne (a : BitVec 5) (b : BitVec 5) (off : BitVec 16) : Statement (.bne a b off) := rfl
theorem blt (a : BitVec 5) (b : BitVec 5) (off : BitVec 16) : Statement (.blt a b off) := rfl
theorem bge (a : BitVec 5) (b : BitVec 5) (off : BitVec 16) : Statement (.bge a b off) := rfl
theorem bltu (a : BitVec 5) (b : BitVec 5) (off : BitVec 16) : Statement (.bltu a b off) := rfl
theorem bgeu (a : BitVec 5) (b : BitVec 5) (off : BitVec 16) : Statement (.bgeu a b off) := rfl
theorem jal (d : BitVec 5) (off : BitVec 21) : Statement (.jal d off) := rfl
theorem jalr (d : BitVec 5) (a : BitVec 5) (imm : BitVec 16) : Statement (.jalr d a imm) := rfl
theorem amoAdd (d : BitVec 5) (a : BitVec 5) (b : BitVec 5) (l : Bool) (acq : Bool) (rel : Bool) (sc : Scope) : Statement (.amoAdd d a b l acq rel sc) := rfl
theorem amoSwap (d : BitVec 5) (a : BitVec 5) (b : BitVec 5) (l : Bool) (acq : Bool) (rel : Bool) (sc : Scope) : Statement (.amoSwap d a b l acq rel sc) := rfl
theorem amoCas (d : BitVec 5) (a : BitVec 5) (b : BitVec 5) (l : Bool) (acq : Bool) (rel : Bool) (sc : Scope) : Statement (.amoCas d a b l acq rel sc) := rfl
theorem amoAnd (d : BitVec 5) (a : BitVec 5) (b : BitVec 5) (l : Bool) (acq : Bool) (rel : Bool) (sc : Scope) : Statement (.amoAnd d a b l acq rel sc) := rfl
theorem amoOr (d : BitVec 5) (a : BitVec 5) (b : BitVec 5) (l : Bool) (acq : Bool) (rel : Bool) (sc : Scope) : Statement (.amoOr d a b l acq rel sc) := rfl
theorem amoMax (d : BitVec 5) (a : BitVec 5) (b : BitVec 5) (l : Bool) (acq : Bool) (rel : Bool) (sc : Scope) : Statement (.amoMax d a b l acq rel sc) := rfl
theorem amoMin (d : BitVec 5) (a : BitVec 5) (b : BitVec 5) (l : Bool) (acq : Bool) (rel : Bool) (sc : Scope) : Statement (.amoMin d a b l acq rel sc) := rfl
theorem fenceSv (sc : Scope) : Statement (.fenceSv sc) := rfl
theorem fenceVs (sc : Scope) : Statement (.fenceVs sc) := rfl
theorem fenceVv (sc : Scope) : Statement (.fenceVv sc) := rfl
theorem fenceAll (sc : Scope) : Statement (.fenceAll sc) := rfl
theorem vblk (off : BitVec 21) : Statement (.vblk off) := rfl
theorem vblkr (a : BitVec 5) (imm : BitVec 16) : Statement (.vblkr a imm) := rfl
theorem setlen (d : BitVec 5) (a : BitVec 5) (b : BitVec 5) : Statement (.setlen d a b) := rfl
theorem setleni (d : BitVec 5) (a : BitVec 5) (imm : BitVec 16) : Statement (.setleni d a imm) := rfl
theorem csrr (d : BitVec 5) (a : BitVec 5) (csr : BitVec 12) : Statement (.csrr d a csr) := rfl
theorem csrw (d : BitVec 5) (a : BitVec 5) (csr : BitVec 12) : Statement (.csrw d a csr) := rfl
theorem csrs (d : BitVec 5) (a : BitVec 5) (csr : BitVec 12) : Statement (.csrs d a csr) := rfl
theorem csrc (d : BitVec 5) (a : BitVec 5) (csr : BitVec 12) : Statement (.csrc d a csr) := rfl
theorem svc : Statement (.svc) := rfl
theorem tret : Statement (.tret) := rfl
theorem vret : Statement (.vret) := rfl
theorem brk : Statement (.brk) := rfl
theorem iflush : Statement (.iflush) := rfl
theorem tlbinvPg (sc : Scope) (a : BitVec 5) : Statement (.tlbinvPg sc a) := rfl
theorem tlbinvAll (sc : Scope) : Statement (.tlbinvAll sc) := rfl
theorem vqsave (d : BitVec 5) (a : BitVec 5) : Statement (.vqsave d a) := rfl
theorem vqload (a : BitVec 5) (b : BitVec 5) : Statement (.vqload a b) := rfl
theorem cwb (a : BitVec 5) (b : BitVec 5) : Statement (.cwb a b) := rfl
theorem cinv (a : BitVec 5) (b : BitVec 5) : Statement (.cinv a b) := rfl
theorem hexit : Statement (.hexit) := rfl
theorem vdecl (a : BitVec 5) : Statement (.vdecl a) := rfl
theorem farm (d : BitVec 5) (a : BitVec 5) : Statement (.farm d a) := rfl
theorem fnext (d : BitVec 5) (a : BitVec 5) : Statement (.fnext d a) := rfl
theorem hbar : Statement (.hbar) := rfl
theorem cset (d : BitVec 5) (a : BitVec 5) (b : BitVec 5) : Statement (.cset d a b) := rfl
theorem hlaunch (d : BitVec 5) (a : BitVec 5) : Statement (.hlaunch d a) := rfl
theorem vstop : Statement (.vstop) := rfl
theorem vnop (c : Bool) : Statement (.vnop c) := rfl
theorem vadd (h : VHdr) (d : BitVec 5) (a : BitVec 5) (b : VSrc) (f : BitVec 5) : Statement (.vadd h d a b f) := rfl
theorem vsub (h : VHdr) (d : BitVec 5) (a : BitVec 5) (b : VSrc) (f : BitVec 5) : Statement (.vsub h d a b f) := rfl
theorem vmul (h : VHdr) (d : BitVec 5) (a : BitVec 5) (b : VSrc) (f : BitVec 5) : Statement (.vmul h d a b f) := rfl
theorem vfma (h : VHdr) (d : BitVec 5) (a : BitVec 5) (b : VSrc) (x : BitVec 5) (f : BitVec 5) : Statement (.vfma h d a b x f) := rfl
theorem vfms (h : VHdr) (d : BitVec 5) (a : BitVec 5) (b : VSrc) (x : BitVec 5) (f : BitVec 5) : Statement (.vfms h d a b x f) := rfl
theorem vfnma (h : VHdr) (d : BitVec 5) (a : BitVec 5) (b : VSrc) (x : BitVec 5) (f : BitVec 5) : Statement (.vfnma h d a b x f) := rfl
theorem vdiv (h : VHdr) (d : BitVec 5) (a : BitVec 5) (b : VSrc) (f : BitVec 5) : Statement (.vdiv h d a b f) := rfl
theorem vsqrt (h : VHdr) (d : BitVec 5) (a : BitVec 5) (f : BitVec 5) : Statement (.vsqrt h d a f) := rfl
theorem vmin (h : VHdr) (d : BitVec 5) (a : BitVec 5) (b : VSrc) (f : BitVec 5) : Statement (.vmin h d a b f) := rfl
theorem vmax (h : VHdr) (d : BitVec 5) (a : BitVec 5) (b : VSrc) (f : BitVec 5) : Statement (.vmax h d a b f) := rfl
theorem vabs (h : VHdr) (d : BitVec 5) (a : BitVec 5) (f : BitVec 5) : Statement (.vabs h d a f) := rfl
theorem vneg (h : VHdr) (d : BitVec 5) (a : BitVec 5) (f : BitVec 5) : Statement (.vneg h d a f) := rfl
theorem vclamp (h : VHdr) (d : BitVec 5) (a : BitVec 5) (b : ClampSrc) (f : BitVec 5) : Statement (.vclamp h d a b f) := by cases b <;> rfl
theorem vand (h : VHdr) (d : BitVec 5) (a : BitVec 5) (b : VSrc) (f : BitVec 5) : Statement (.vand h d a b f) := rfl
theorem vor (h : VHdr) (d : BitVec 5) (a : BitVec 5) (b : VSrc) (f : BitVec 5) : Statement (.vor h d a b f) := rfl
theorem vxor (h : VHdr) (d : BitVec 5) (a : BitVec 5) (b : VSrc) (f : BitVec 5) : Statement (.vxor h d a b f) := rfl
theorem vshl (h : VHdr) (d : BitVec 5) (a : BitVec 5) (b : VSrc) (f : BitVec 5) : Statement (.vshl h d a b f) := rfl
theorem vshr (h : VHdr) (d : BitVec 5) (a : BitVec 5) (b : VSrc) (f : BitVec 5) : Statement (.vshr h d a b f) := rfl
theorem vshrA (h : VHdr) (d : BitVec 5) (a : BitVec 5) (b : VSrc) (f : BitVec 5) : Statement (.vshrA h d a b f) := rfl
theorem vcvt (h : VHdr) (d : BitVec 5) (a : BitVec 5) (f : BitVec 5) : Statement (.vcvt h d a f) := rfl
theorem vrcp (h : VHdr) (d : BitVec 5) (a : BitVec 5) (f : BitVec 5) : Statement (.vrcp h d a f) := rfl
theorem vrsqrt (h : VHdr) (d : BitVec 5) (a : BitVec 5) (f : BitVec 5) : Statement (.vrsqrt h d a f) := rfl
theorem vexp2 (h : VHdr) (d : BitVec 5) (a : BitVec 5) (f : BitVec 5) : Statement (.vexp2 h d a f) := rfl
theorem vlog2 (h : VHdr) (d : BitVec 5) (a : BitVec 5) (f : BitVec 5) : Statement (.vlog2 h d a f) := rfl
theorem vsel (h : VHdr) (d : BitVec 5) (a : BitVec 5) (b : VSrc) (m : BitVec 3) (f : BitVec 5) : Statement (.vsel h d a b m f) := rfl
theorem vmov (h : VHdr) (d : BitVec 5) (a : BitVec 5) (f : BitVec 5) : Statement (.vmov h d a f) := rfl
theorem vsplat (h : VHdr) (d : BitVec 5) (s : BitVec 5) (f : BitVec 5) : Statement (.vsplat h d s f) := rfl
theorem vindex (h : VHdr) (d : BitVec 5) (s : BitVec 5) (f : BitVec 5) : Statement (.vindex h d s f) := rfl
theorem vcmp (h : VHdr) (cc : VCond) (d : BitVec 3) (a : BitVec 5) (b : VSrc) (f : BitVec 5) : Statement (.vcmp h cc d a b f) := rfl
theorem vredSumo (h : VHdr) (d : BitVec 5) (a : BitVec 5) (init : Option (BitVec 5)) (f : BitVec 5) : Statement (.vredSumo h d a init f) := rfl
theorem vredSump (h : VHdr) (d : BitVec 5) (a : BitVec 5) (init : Option (BitVec 5)) (f : BitVec 5) : Statement (.vredSump h d a init f) := rfl
theorem vredMax (h : VHdr) (d : BitVec 5) (a : BitVec 5) (init : Option (BitVec 5)) (f : BitVec 5) : Statement (.vredMax h d a init f) := rfl
theorem vredMin (h : VHdr) (d : BitVec 5) (a : BitVec 5) (init : Option (BitVec 5)) (f : BitVec 5) : Statement (.vredMin h d a init f) := rfl
theorem vredAnd (h : VHdr) (d : BitVec 5) (a : BitVec 5) (init : Option (BitVec 5)) (f : BitVec 5) : Statement (.vredAnd h d a init f) := rfl
theorem vredOr (h : VHdr) (d : BitVec 5) (a : BitVec 5) (init : Option (BitVec 5)) (f : BitVec 5) : Statement (.vredOr h d a init f) := rfl
theorem vredXor (h : VHdr) (d : BitVec 5) (a : BitVec 5) (init : Option (BitVec 5)) (f : BitVec 5) : Statement (.vredXor h d a init f) := rfl
theorem mand (h : VHdr) (d : BitVec 3) (a : BitVec 3) (b : BitVec 3) : Statement (.mand h d a b) := rfl
theorem mor (h : VHdr) (d : BitVec 3) (a : BitVec 3) (b : BitVec 3) : Statement (.mor h d a b) := rfl
theorem mxor (h : VHdr) (d : BitVec 3) (a : BitVec 3) (b : BitVec 3) : Statement (.mxor h d a b) := rfl
theorem mandn (h : VHdr) (d : BitVec 3) (a : BitVec 3) (b : BitVec 3) : Statement (.mandn h d a b) := rfl
theorem mnot (h : VHdr) (d : BitVec 3) (a : BitVec 3) : Statement (.mnot h d a) := rfl
theorem mpop (h : VHdr) (d : BitVec 5) (a : BitVec 3) : Statement (.mpop h d a) := rfl
theorem mfirst (h : VHdr) (d : BitVec 5) (a : BitVec 3) : Statement (.mfirst h d a) := rfl
theorem msetLt (h : VHdr) (d : BitVec 3) (s : BitVec 5) : Statement (.msetLt h d s) := rfl
theorem msetGe (h : VHdr) (d : BitVec 3) (s : BitVec 5) : Statement (.msetGe h d s) := rfl
theorem vqnt (h : VHdr) (d : BitVec 5) (x : BitVec 5) (a : BitVec 5) (f : BitVec 5) : Statement (.vqnt h d x a f) := rfl
theorem vdqnt (h : VHdr) (d : BitVec 5) (a : BitVec 5) (x : BitVec 5) (f : BitVec 5) : Statement (.vdqnt h d a x f) := rfl
theorem vup (h : VHdr) (d : BitVec 5) (a : BitVec 5) (s : BitVec 5) (f : BitVec 5) : Statement (.vup h d a s f) := rfl
theorem vdn (h : VHdr) (d : BitVec 5) (a : BitVec 5) (s : BitVec 5) (f : BitVec 5) : Statement (.vdn h d a s f) := rfl
theorem vgathr (h : VHdr) (d : BitVec 5) (a : BitVec 5) (b : BitVec 5) (f : BitVec 5) : Statement (.vgathr h d a b f) := rfl
theorem vpack (c : Bool) (d : BitVec 5) (a : BitVec 5) (m : BitVec 3) (f : BitVec 5) : Statement (.vpack c d a m f) := rfl
theorem vunpk (c : Bool) (d : BitVec 5) (a : BitVec 5) (m : BitVec 3) (f : BitVec 5) : Statement (.vunpk c d a m f) := rfl
theorem vresh (c : Bool) (d : BitVec 5) (a : BitVec 5) (s : BitVec 5) (f : BitVec 5) : Statement (.vresh c d a s f) := rfl
theorem vreshT (c : Bool) (d : BitVec 5) (a : BitVec 5) (s : BitVec 5) (f : BitVec 5) : Statement (.vreshT c d a s f) := rfl
theorem vreshInv (c : Bool) (d : BitVec 5) (a : BitVec 5) (s : BitVec 5) (f : BitVec 5) : Statement (.vreshInv c d a s f) := rfl
theorem vgtr (c : Bool) (d : BitVec 5) (a : BitVec 5) (f : BitVec 5) : Statement (.vgtr c d a f) := rfl
theorem vld (h : VHdr) (d : BitVec 5) (s : BitVec 5) (f : BitVec 5) (off : BitVec 16) : Statement (.vld h d s f off) := rfl
theorem vlds (h : VHdr) (d : BitVec 5) (s : BitVec 5) (b : BitVec 5) (f : BitVec 5) (off : BitVec 16) : Statement (.vlds h d s b f off) := rfl
theorem vldx (h : VHdr) (d : BitVec 5) (s : BitVec 5) (b : BitVec 5) (f : BitVec 5) (off : BitVec 16) : Statement (.vldx h d s b f off) := rfl
theorem vldK (c : Bool) (pm : BitVec 3) (form : KForm) (d : BitVec 5) (s : BitVec 5) (f : BitVec 5) (off : BitVec 16) : Statement (.vldK c pm form d s f off) := rfl
theorem vldff (h : VHdr) (x : BitVec 5) (d : BitVec 3) (s : BitVec 5) (f : BitVec 5) (off : BitVec 16) : Statement (.vldff h x d s f off) := rfl
theorem vst (h : VHdr) (a : BitVec 5) (s : BitVec 5) (f : BitVec 5) (off : BitVec 16) : Statement (.vst h a s f off) := rfl
theorem vsts (h : VHdr) (a : BitVec 5) (s : BitVec 5) (b : BitVec 5) (f : BitVec 5) (off : BitVec 16) : Statement (.vsts h a s b f off) := rfl
theorem vstx (h : VHdr) (a : BitVec 5) (s : BitVec 5) (b : BitVec 5) (f : BitVec 5) (off : BitVec 16) : Statement (.vstx h a s b f off) := rfl
theorem vstxo (h : VHdr) (a : BitVec 5) (s : BitVec 5) (b : BitVec 5) (f : BitVec 5) (off : BitVec 16) : Statement (.vstxo h a s b f off) := rfl
theorem vstC (c : Bool) (d : BitVec 5) (a : BitVec 5) (s : BitVec 5) (f : BitVec 5) (off : BitVec 16) : Statement (.vstC c d a s f off) := rfl
theorem vldC (c : Bool) (d : BitVec 5) (s : BitVec 5) (f : BitVec 5) (off : BitVec 16) : Statement (.vldC c d s f off) := rfl
theorem vamoAdd (h : VHdr) (d : BitVec 5) (a : BitVec 5) (b : BitVec 5) (s : BitVec 5) (f : BitVec 5) (off : BitVec 16) : Statement (.vamoAdd h d a b s f off) := rfl
theorem vamoSwap (h : VHdr) (d : BitVec 5) (a : BitVec 5) (b : BitVec 5) (s : BitVec 5) (f : BitVec 5) (off : BitVec 16) : Statement (.vamoSwap h d a b s f off) := rfl
theorem vamoCas (h : VHdr) (d : BitVec 5) (a : BitVec 5) (b : BitVec 5) (x : BitVec 5) (s : BitVec 5) (f : BitVec 5) (off : BitVec 16) : Statement (.vamoCas h d a b x s f off) := rfl
theorem vamoAnd (h : VHdr) (d : BitVec 5) (a : BitVec 5) (b : BitVec 5) (s : BitVec 5) (f : BitVec 5) (off : BitVec 16) : Statement (.vamoAnd h d a b s f off) := rfl
theorem vamoOr (h : VHdr) (d : BitVec 5) (a : BitVec 5) (b : BitVec 5) (s : BitVec 5) (f : BitVec 5) (off : BitVec 16) : Statement (.vamoOr h d a b s f off) := rfl
theorem vamoMax (h : VHdr) (d : BitVec 5) (a : BitVec 5) (b : BitVec 5) (s : BitVec 5) (f : BitVec 5) (off : BitVec 16) : Statement (.vamoMax h d a b s f off) := rfl
theorem vamoMin (h : VHdr) (d : BitVec 5) (a : BitVec 5) (b : BitVec 5) (s : BitVec 5) (f : BitVec 5) (off : BitVec 16) : Statement (.vamoMin h d a b s f off) := rfl
theorem vldp (h : VHdr) (d : BitVec 5) (x : BitVec 3) (s : BitVec 5) (b : BitVec 5) (f : BitVec 5) (off : BitVec 16) : Statement (.vldp h d x s b f off) := rfl
theorem vstp (h : VHdr) (a : BitVec 5) (x : BitVec 3) (s : BitVec 5) (b : BitVec 5) (f : BitVec 5) (off : BitVec 16) : Statement (.vstp h a x s b f off) := rfl
theorem vstr (h : VHdr) (a : BitVec 5) (x : BitVec 3) (s : BitVec 5) (b : BitVec 5) (f : BitVec 5) (off : BitVec 16) : Statement (.vstr h a x s b f off) := rfl
theorem vldw (c : Bool) (d : BitVec 5) (s : BitVec 5) (off : BitVec 16) : Statement (.vldw c d s off) := rfl
theorem vstw (c : Bool) (a : BitVec 5) (s : BitVec 5) (off : BitVec 16) : Statement (.vstw c a s off) := rfl
theorem vldwM (c : Bool) (d : BitVec 3) (s : BitVec 5) (off : BitVec 16) : Statement (.vldwM c d s off) := rfl
theorem vstwM (c : Bool) (a : BitVec 3) (s : BitVec 5) (off : BitVec 16) : Statement (.vstwM c a s off) := rfl
theorem pst (c : Bool) (a : BitVec 5) (b : BitVec 5) (x : BitVec 5) (f : BitVec 5) (run : Option (BitVec 5)) (w : Bool) : Statement (.pst c a b x f run w) := rfl
theorem popAdd (c : Bool) (a : BitVec 5) (b : BitVec 5) (x : BitVec 5) (f : BitVec 5) (run : Option (BitVec 5)) (row : Bool) (w : Bool) : Statement (.popAdd c a b x f run row w) := rfl
theorem popSub (c : Bool) (a : BitVec 5) (b : BitVec 5) (x : BitVec 5) (f : BitVec 5) (run : Option (BitVec 5)) (row : Bool) (w : Bool) : Statement (.popSub c a b x f run row w) := rfl
theorem popMin (c : Bool) (a : BitVec 5) (b : BitVec 5) (x : BitVec 5) (f : BitVec 5) (run : Option (BitVec 5)) (row : Bool) (w : Bool) : Statement (.popMin c a b x f run row w) := rfl
theorem popMax (c : Bool) (a : BitVec 5) (b : BitVec 5) (x : BitVec 5) (f : BitVec 5) (run : Option (BitVec 5)) (row : Bool) (w : Bool) : Statement (.popMax c a b x f run row w) := rfl
theorem popAnd (c : Bool) (a : BitVec 5) (b : BitVec 5) (x : BitVec 5) (f : BitVec 5) (run : Option (BitVec 5)) (row : Bool) (w : Bool) : Statement (.popAnd c a b x f run row w) := rfl
theorem popOr (c : Bool) (a : BitVec 5) (b : BitVec 5) (x : BitVec 5) (f : BitVec 5) (run : Option (BitVec 5)) (row : Bool) (w : Bool) : Statement (.popOr c a b x f run row w) := rfl
theorem popXor (c : Bool) (a : BitVec 5) (b : BitVec 5) (x : BitVec 5) (f : BitVec 5) (run : Option (BitVec 5)) (row : Bool) (w : Bool) : Statement (.popXor c a b x f run row w) := rfl
theorem popMov (c : Bool) (a : BitVec 5) (b : BitVec 5) (x : BitVec 5) (f : BitVec 5) (run : Option (BitVec 5)) (row : Bool) (w : Bool) : Statement (.popMov c a b x f run row w) := rfl
theorem pldSum (c : Bool) (d : BitVec 5) (a : BitVec 5) (x : BitVec 5) (f : BitVec 5) (run : Option (BitVec 5)) (w : Bool) : Statement (.pldSum c d a x f run w) := rfl
theorem pldMax (c : Bool) (d : BitVec 5) (a : BitVec 5) (x : BitVec 5) (f : BitVec 5) (run : Option (BitVec 5)) (w : Bool) : Statement (.pldMax c d a x f run w) := rfl
theorem pldMin (c : Bool) (d : BitVec 5) (a : BitVec 5) (x : BitVec 5) (f : BitVec 5) (run : Option (BitVec 5)) (w : Bool) : Statement (.pldMin c d a x f run w) := rfl
theorem pldAnd (c : Bool) (d : BitVec 5) (a : BitVec 5) (x : BitVec 5) (f : BitVec 5) (run : Option (BitVec 5)) (w : Bool) : Statement (.pldAnd c d a x f run w) := rfl
theorem pldOr (c : Bool) (d : BitVec 5) (a : BitVec 5) (x : BitVec 5) (f : BitVec 5) (run : Option (BitVec 5)) (w : Bool) : Statement (.pldOr c d a x f run w) := rfl
theorem pldXor (c : Bool) (d : BitVec 5) (a : BitVec 5) (x : BitVec 5) (f : BitVec 5) (run : Option (BitVec 5)) (w : Bool) : Statement (.pldXor c d a x f run w) := rfl
theorem pldCnt (c : Bool) (d : BitVec 5) (a : BitVec 5) (x : BitVec 5) (f : BitVec 5) (run : Option (BitVec 5)) (w : Bool) : Statement (.pldCnt c d a x f run w) := rfl
theorem vwait (h : VHdr) (x : BitVec 3) (d : BitVec 5) (a : BitVec 5) (s : BitVec 5) : Statement (.vwait h x d a s) := rfl
theorem ctri (d : BitVec 3) (a : BitVec 5) (b : BitVec 5) (x : BitVec 5) (f : BitVec 5) (sa : BitVec 5) (sb : BitVec 5) : Statement (.ctri d a b x f sa sb) := rfl
theorem czero (d : BitVec 3) : Statement (.czero d) := rfl
theorem cget (d : BitVec 5) (a : BitVec 3) (s : BitVec 5) (f : BitVec 5) (i0 : BitVec 5) (nr : BitVec 5) (j0 : BitVec 5) (nc : BitVec 5) : Statement (.cget d a s f i0 nr j0 nc) := rfl
theorem cgetc (d : BitVec 5) (a : BitVec 3) (s : BitVec 5) (f : BitVec 5) (i0 : BitVec 5) (nr : BitVec 5) (j0 : BitVec 5) (nc : BitVec 5) : Statement (.cgetc d a s f i0 nr j0 nc) := rfl
theorem cput (d : BitVec 3) (a : BitVec 5) (s : BitVec 5) (f : BitVec 5) (i0 : BitVec 5) (nr : BitVec 5) (j0 : BitVec 5) (nc : BitVec 5) : Statement (.cput d a s f i0 nr j0 nc) := rfl
theorem cshp (s : BitVec 5) : Statement (.cshp s) := rfl
theorem tsave (a : BitVec 3) (s : BitVec 5) (off : BitVec 16) : Statement (.tsave a s off) := rfl
theorem tload (d : BitVec 3) (s : BitVec 5) (off : BitVec 16) : Statement (.tload d s off) := rfl
theorem route (h : VHdr) (fr : BitVec 2) (a : BitVec 5) (b : BitVec 5) (x : BitVec 5) (s : BitVec 5) : Statement (.route h fr a b x s) := rfl
theorem rrecv (c : Bool) (d : BitVec 5) (x : BitVec 5) (a : BitVec 5) (s : BitVec 5) : Statement (.rrecv c d x a s) := rfl
theorem rret (h : VHdr) (a : BitVec 5) (x : BitVec 5) : Statement (.rret h a x) := rfl
theorem fwait (c : Bool) (d : BitVec 5) (fr : BitVec 2) : Statement (.fwait c d fr) := rfl
theorem fread (c : Bool) (d : BitVec 5) (x : BitVec 5) (fr : BitVec 2) : Statement (.fread c d x fr) := rfl
theorem rtset (c : Bool) (a : BitVec 5) (s : BitVec 5) : Statement (.rtset c a s) := rfl
theorem enqStk (h : VHdr) (d : BitVec 3) (x : BitVec 5) (a : BitVec 5) : Statement (.enqStk h d x a) := rfl
theorem enqCpy (h : VHdr) (d : BitVec 3) (x : BitVec 5) (a : BitVec 5) : Statement (.enqCpy h d x a) := rfl
theorem cwpw (c : Bool) (n : BitVec 2) (s : BitVec 5) : Statement (.cwpw c n s) := rfl
theorem blockWordPlace : Statement (.blockWordPlace) := rfl
theorem convoyDispatch (upTo : BitVec 32) : Statement (.convoyDispatch upTo) := rfl
theorem combWordIssue : Statement (.combWordIssue) := rfl
theorem scalarLoadData : Statement (.scalarLoadData) := rfl
theorem storeBufferWrite : Statement (.storeBufferWrite) := rfl
theorem trapTake : Statement (.trapTake) := rfl
theorem machineCheck (u : MCUnit) : Statement (.machineCheck u) := rfl
theorem arbitrationPromotion (r : Resource) : Statement (.arbitrationPromotion r) := rfl
theorem fenceRelease : Statement (.fenceRelease) := rfl
theorem hbarRelease : Statement (.hbarRelease) := rfl
theorem hexitFree : Statement (.hexitFree) := rfl
theorem vwaitWake : Statement (.vwaitWake) := rfl
theorem vwaitPoll : Statement (.vwaitPoll) := rfl
theorem vwaitTimeout : Statement (.vwaitTimeout) := rfl
theorem rrecvTake : Statement (.rrecvTake) := rfl
theorem rrecvTimeout : Statement (.rrecvTimeout) := rfl
theorem rowArrival (k : BitVec 16) : Statement (.rowArrival k) := rfl
theorem returnArrival (k : BitVec 16) : Statement (.returnArrival k) := rfl
theorem refusalArrival (k : BitVec 16) : Statement (.refusalArrival k) := rfl
theorem frameTimeout (fr : BitVec 2) : Statement (.frameTimeout fr) := rfl
theorem fwaitRelease : Statement (.fwaitRelease) := rfl
theorem cwpwRelease : Statement (.cwpwRelease) := rfl
theorem launchCheck (t : BitVec 6) : Statement (.launchCheck t) := rfl
theorem launchPlace (t : BitVec 6) : Statement (.launchPlace t) := rfl
theorem launchComplete (k : BitVec 16) : Statement (.launchComplete k) := rfl
theorem ired (st : BitVec 4) : Statement (.ired st) := rfl
theorem rcopy (st : BitVec 4) : Statement (.rcopy st) := rfl
theorem rfill (st : BitVec 4) : Statement (.rfill st) := rfl
theorem cardBound (st : BitVec 4) (n : BitVec 7) : Statement (.cardBound st n) := rfl
theorem reductionPacket (st : BitVec 4) : Statement (.reductionPacket st) := rfl
theorem copyCommand (ch : BitVec 2) : Statement (.copyCommand ch) := rfl
theorem copyChunk (ch : BitVec 2) : Statement (.copyChunk ch) := rfl
theorem contributionArrival (k : BitVec 16) : Statement (.contributionArrival k) := rfl
theorem collectiveCombine (k : BitVec 16) : Statement (.collectiveCombine k) := rfl
theorem chunkFetch (k : BitVec 16) : Statement (.chunkFetch k) := rfl
theorem trainArrival (k : BitVec 16) : Statement (.trainArrival k) := rfl
theorem trainAck (k : BitVec 16) : Statement (.trainAck k) := rfl
theorem propolisArm (t : BitVec 6) (v : BitVec 64) : Statement (.propolisArm t v) := rfl
theorem propolisUnitCopy (t : BitVec 6) (u : BitVec 32) : Statement (.propolisUnitCopy t u) := rfl
theorem propolisLastCut (t : BitVec 6) : Statement (.propolisLastCut t) := rfl
theorem propolisDrainUnit (t : BitVec 6) : Statement (.propolisDrainUnit t) := rfl
theorem propolisDrainRefused (t : BitVec 6) : Statement (.propolisDrainRefused t) := rfl
theorem lqpush (t : BitVec 6) (n : BitVec 4) (v : BitVec 64) : Statement (.lqpush t n v) := rfl
theorem intstatClear (t : BitVec 6) (v : BitVec 64) : Statement (.intstatClear t v) := rfl
theorem preempt (t : BitVec 6) (v : BitVec 64) : Statement (.preempt t v) := rfl
theorem attreq (t : BitVec 6) (v : BitVec 64) : Statement (.attreq t v) := rfl
theorem registerWrite (blk : Block) (off : BitVec 16) (v : BitVec 64) : Statement (.registerWrite blk off v) := rfl
theorem devnumWrite (v : BitVec 64) : Statement (.devnumWrite v) := rfl
theorem plimitWrite (v : BitVec 64) : Statement (.plimitWrite v) := rfl
theorem pwrreqEnterOff : Statement (.pwrreqEnterOff) := rfl
theorem pwrreqLeaveOff (img : BitVec 64) : Statement (.pwrreqLeaveOff img) := rfl
theorem groupownWrite (g : BitVec 4) (v : BitVec 64) : Statement (.groupownWrite g v) := rfl
theorem windowWrite (t : BitVec 6) (n : BitVec 2) (lim : Bool) (v : BitVec 64) : Statement (.windowWrite t n lim v) := rfl
theorem nonce : Statement (.nonce) := rfl
theorem token : Statement (.token) := rfl
theorem attach : Statement (.attach) := rfl
theorem detach : Statement (.detach) := rfl
theorem halt : Statement (.halt) := rfl
theorem resume : Statement (.resume) := rfl
theorem step : Statement (.step) := rfl
theorem read : Statement (.read) := rfl
theorem write : Statement (.write) := rfl
theorem traceon : Statement (.traceon) := rfl
theorem traceoff : Statement (.traceoff) := rfl
theorem powerOn (img : BitVec 64) : Statement (.powerOn img) := rfl
theorem vgrantWrite (core : BitVec 7) (g : BitVec 4) : Statement (.vgrantWrite core g) := rfl
theorem combRateHalve (core : BitVec 7) (half : Bool) : Statement (.combRateHalve core half) := rfl
theorem illegalInstruction (w : BitVec 32) : Statement (.illegalInstruction w) := rfl
theorem contributionAck (k : BitVec 16) : Statement (.contributionAck k) := rfl
theorem tamlinkPortDown (k : BitVec 16) : Statement (.tamlinkPortDown k) := rfl
theorem tamlinkPortUp (k : BitVec 16) : Statement (.tamlinkPortUp k) := rfl
theorem hostWrite (pa : BitVec 64) (n : BitVec 3) (v : BitVec 64) : Statement (.hostWrite pa n v) := rfl

end Sys2Proof.Laws.Kinds
end

