-- ==== Sys2Proof/Laws/Turn.lean ====
section
/-! SUPPORT. Laws of turns: what the grants of a turn change, and which turns arbitration leaves. -/

namespace Sys2Proof.Machine

/-- A hart granted resources changes in its levels alone (05_harts R126). -/
@[simp] theorem State.hart_grant (s : State) (rs : List Resource) : (s.grant rs).hart = s.hart.granted rs := by
  rw [State.grant, State.hart_modHart, State.hart_noteGrant]

@[simp] theorem State.mem_grant (s : State) (rs : List Resource) : (s.grant rs).mem = s.mem := rfl

@[simp] theorem State.tens_grant (s : State) (rs : List Resource) : (s.grant rs).tens = s.tens := rfl

theorem State.memOk_grant (s : State) (rs : List Resource) (h : s.memOk) : (s.grant rs).memOk := h

/-- What the grants of a turn leave of its outcome: a next state as it is, or with the grants noted; a fault and a refusal as they are. -/
theorem State.granting_cases (s : State) (goes : Bool) (rs : List Resource) (o : Out) :
    s.granting goes rs o = o ∨ ∃ u, o = .next u ∧ s.granting goes rs o = .next (u.grant rs) := by
  cases o with
  | next u =>
    unfold State.granting
    dsimp only
    split
    · exact .inr ⟨u, rfl, rfl⟩
    · exact .inl rfl
  | fault => exact .inl rfl
  | refused => exact .inl rfl

/-- A next state with the grants of its turn keeps what every grant keeps. -/
theorem State.granting_keeps (P : State → Prop) (hg : ∀ u rs, P u → P (u.grant rs)) (s : State) (goes : Bool) (rs : List Resource)
    (o : Out) (v : State) (h : s.granting goes rs o = .next v) (ho : ∀ u, o = .next u → P u) : P v := by
  rcases s.granting_cases goes rs o with e | ⟨u, e, e'⟩
  · exact ho v (e.symm.trans h)
  · rw [e'] at h
    injection h with h
    exact h ▸ hg u rs (ho u e)

/-- A turn leaves what its work leaves, or, where a store of that work has to wait for a drain, what it found. -/
theorem takeTurn_cases (t : Turn) (s : State) :
    (takeTurn t s = turnWork t (t.start s) ∧ waitsForDrain (turnWork t (t.start s)) = false) ∨
    (takeTurn t s = .next (t.start s) ∧ ∃ u, turnWork t (t.start s) = .next u ∧ u.storeWaits = true) := by
  unfold takeTurn
  cases h : waitsForDrain (turnWork t (t.start s)) with
  | false => exact .inl ⟨by simp [h], rfl⟩
  | true =>
    refine .inr ⟨by simp [h], ?_⟩
    cases e : turnWork t (t.start s) with
    | next u => exact ⟨u, rfl, by simpa [waitsForDrain, e] using h⟩
    | fault | refused => simp [waitsForDrain, e] at h

/-- Arbitration adds no turn. -/
theorem State.mem_of_arbitrate (s : State) (rs : List Resource) (ts : List Turn) (t : Turn) (h : t ∈ s.arbitrate rs ts) : t ∈ ts := by
  induction rs generalizing ts with
  | nil => exact h
  | cons r rs ih => exact (List.mem_filter.1 (ih _ h)).1

/-- The turns that the machine may take by itself are among those on offer that take nothing another hart keeps, but for where
a convoy stops that takes one access of what it shares. -/
theorem State.offered_of_turns (s : State) (t : Turn) (h : t ∈ s.turns) :
    ∃ u ∈ s.offers, s.keptFrom u = false ∧ t = s.oneAccess (s.offers.filter fun t => !s.keptFrom t) u := by
  obtain ⟨u, hu, rfl⟩ := List.mem_map.1 h
  obtain ⟨ho, hk⟩ := List.mem_filter.1 (s.mem_of_arbitrate _ _ u hu)
  exact ⟨u, ho, by simpa using hk, rfl⟩

end Sys2Proof.Machine
end

