-- ==== Sys2Proof/Tests/Slice0.lean ====
section
/-! SUPPORT. The model's own tests: terms that WellFormed refuses, words of the spec decoded, single steps with results that
the spec prints or that follow from it by hand, and for every statement a state and operands that meet its
hypotheses. -/

set_option Elab.async false

open Sys2Proof Sys2Proof.Machine

namespace Sys2Proof.Tests

/-! ### Small machines -/

/-- A hart placed alone on its core, with all of lane memory, its page table at 0x10000 and its program at 0x1000. -/
def bare : Hart :=
  { Hart.init with
    pc := 0x1000
    place := { Hart.init.place with placed := true, launch := 1 }
    ptroot := 0x10000
    lmsize := 8192 }

/-- Scalar registers set. -/
def Regs (l : List (Nat × Word)) (k : Hart) : Hart :=
  { k with sregs := l.foldl (fun v p => v.setIfInBounds p.1 p.2) k.sregs }

/-- VL set, with 32-bit elements. -/
def Len (n : Nat) (k : Hart) : Hart := { k with cfg := { k.cfg with vl := BitVec.ofNat 64 n } }

/-- Elements of a 32-bit container put into a register of a hart with NREG 32. -/
def Elems (v : Nat) (l : List Nat) (k : Hart) : Hart :=
  l.zipIdx.foldl (fun k p => k.setElem k.cfg v 32 p.2 p.1) k

/-- Elements of another container put into a register. -/
def ElemsOf (w v : Nat) (l : List Nat) (k : Hart) : Hart :=
  l.zipIdx.foldl (fun k p => k.setElem k.cfg v w p.2 p.1) k

/-- Bits put into a mask. -/
def Bits (m : Nat) (l : List Bool) (k : Hart) : Hart := l.zipIdx.foldl (fun k p => k.setMaskBit m p.2 p.1) k

/-- A word in the vector or the comb queue. -/
def queued (w : Word) (addr : Word) (k : Hart) : Entry :=
  { word := w, addr := addr, sval := k.rd (sOf w), fval := k.rd (fOf w), cfg := k.cfg, seq := 0, pre := false }

/-- A little-endian number in memory. -/
def Put (pa n v : Nat) (s : State) : State := { s with mem := (bytesOf n v).zipIdx.foldl (fun m p => mput memDefault m (pa + p.2) p.1) s.mem }

/-- A launch of one hart on core 0. -/
def launch1 : Launch :=
  { id := 1, ten := 0, h := 1, cores := [0], tags := [(0, 0)], left := 1, prio := 0, ptroot := 0x10000, groups := 0, done := 0x30000
    farms := [] }

/-- A machine that runs the hart on core 0 of tenancy 0. One 32 GiB page maps addresses to themselves. -/
def machine (k : Hart) : State :=
  { State.reset with
    cores := [(0, { Core.init with harts := [(0, k)], launch := some 1 })]
    mem := [(0x10000, 0x3F)]
    tens := [(0, { Ten.init with wins := [(0, 0, 0x1000000)] })]
    launches := [launch1]
    nextId := 2
    mgr := { Mgr.init with state := 1, devlock := true, groupown := (Vector.replicate 16 0x7F).set 0 0 } }

/-- The state after an instruction or event that answers a next state; the state at reset otherwise. -/
def after (o : Out) : State :=
  match o with
  | .next t => t
  | _ => State.reset

/-- The header of a word with neither C nor a predicate. -/
def plain : VHdr := { c := false, pm := none }

/-! ### Terms that WellFormed refuses -/

theorem test_wf_csrr_unassigned : (Instr.csrr 1 0 0x000).wellFormed = false := by decide
theorem test_wf_csrw_unassigned : (Instr.csrw 1 2 0x016).wellFormed = false := by decide
theorem test_wf_csrs_unassigned : (Instr.csrs 1 2 0x02A).wellFormed = false := by decide
theorem test_wf_csrc_unassigned : (Instr.csrc 1 2 0x109).wellFormed = false := by decide
theorem test_wf_vgrant_zero : (Instr.vgrantWrite 0 0).wellFormed = false := by decide
theorem test_wf_vgrant_nine : (Instr.vgrantWrite 0 9).wellFormed = false := by decide
theorem test_wf_vgrant_bounds : (Instr.vgrantWrite 0 1).wellFormed = true ∧ (Instr.vgrantWrite 0 8).wellFormed = true := by decide
theorem test_wf_csrr_bounds : (Instr.csrr 1 0 0x010).wellFormed = true ∧ (Instr.csrr 1 0 0x108).wellFormed = true := by decide

/-! ### Words that the spec prints or that its tables give bit by bit -/

-- 02_stream, the example rows of the scalar and vector formats
theorem test_decode_ld : decode32 0x24C30010 = .ok (.ld 6 3 0x10) := by rfl
theorem test_decode_sw : decode32 0x44C2FFF8 = .ok (.sw 6 2 0xFFF8) := by rfl
theorem test_decode_bne : decode32 0x5464FFFD = .ok (.bne 3 4 0xFFFD) := by rfl
theorem test_decode_jal : decode32 0x68200040 = .ok (.jal 1 0x40) := by rfl
theorem test_decode_csrr : decode32 0x88E00100 = .ok (.csrr 7 0 0x010) := by rfl
theorem test_decode_fence_vs : decode32 0x7400000D = .ok (.fenceVs .M) := by rfl
theorem test_decode_vblkr : decode32 0x7C070040 = .ok (.vblkr 7 0x40) := by rfl
theorem test_decode_vblk : decode32 0x78000002 = .ok (.vblk 2) := by rfl
theorem test_decode_vmul : decode64 0x1280C22000000000 = .ok (.vmul { c := true, pm := none } 3 1 (.vec 2) 0) := by rfl
theorem test_decode_vadd : decode64 0x1001060000C00001 = .ok (.vadd plain 4 3 (.scal 6) 0) := by rfl
-- 03_formats
theorem test_decode_vcvt : decode64 0x2201020018000000 = .ok (.vcvt plain 4 1 6) := by rfl
-- 04_scalar, the listing of the running example
theorem test_decode_add : decode32 0x02030000 = .ok (.add 16 3 0) := by rfl
theorem test_decode_shli : decode32 0x19650002 = .ok (.shli 11 5 2) := by rfl
theorem test_decode_mul : decode32 0x018B300A = .ok (.mul 12 11 6) := by rfl
theorem test_decode_divu : decode32 0x01AD300D = .ok (.divu 13 13 6) := by rfl
theorem test_decode_addpc : decode32 0x21C00001 = .ok (.addpc 14 1) := by rfl
theorem test_decode_min : decode32 0x0090300F = .ok (.min 4 16 6) := by rfl
theorem test_decode_bltu : decode32 0x61EDFFF8 = .ok (.bltu 15 13 0xFFF8) := by rfl
theorem test_decode_jalr : decode32 0x6C010000 = .ok (.jalr 0 1 0) := by rfl
-- 05_harts
theorem test_decode_hexit : decode32 0x90000000 = .ok .hexit := by rfl
theorem test_decode_farm : decode32 0x928D0002 = .ok (.farm 20 13) := by rfl
theorem test_decode_fnext : decode32 0x92B40003 = .ok (.fnext 21 20) := by rfl
theorem test_decode_setlen : decode32 0x82D7C000 = .ok (.setlen 22 23 24) := by rfl
theorem test_decode_setleni : decode32 0x86D70014 = .ok (.setleni 22 23 0x14) := by rfl
theorem test_decode_hbar : decode32 0x90000004 = .ok .hbar := by rfl
-- 06_varith, 07_rearrange
theorem test_decode_vexp2 : decode64 0x25018A0000000000 = .ok (.vexp2 plain 6 5 0) := by rfl
theorem test_decode_vrcp : decode64 0x23020E0000000000 = .ok (.vrcp plain 8 7 0) := by rfl
theorem test_decode_vresh_t : decode64 0x4502420001600002 = .ok (.vreshT false 9 1 11 0) := by rfl
-- 08_memory
theorem test_decode_vld : decode64 0x5000400000600000 = .ok (.vld plain 1 3 0 0) := by rfl
theorem test_decode_vst : decode64 0x5400280000800000 = .ok (.vst plain 20 4 0 0) := by rfl
theorem test_decode_vlds : decode64 0x5100806000A00000 = .ok (.vlds plain 2 5 6 0 0) := by rfl
theorem test_decode_vstw_m : decode64 0x5D00060003C10000 = .ok (.vstwM false 3 30 0) := by rfl
theorem test_decode_pop_add : decode64 0x610018E018000000 = .ok (.popAdd false 12 14 0 6 none false false) := by rfl
theorem test_decode_pld_sum : decode64 0x6202580698000000 = .ok (.pldSum false 9 12 13 6 none false) := by rfl
-- 09_order
theorem test_decode_fence_vv : decode32 0x74000006 = .ok (.fenceVv .C) := by rfl
theorem test_decode_fence_all : decode32 0x7400000F = .ok (.fenceAll .M) := by rfl
theorem test_decode_amo_cas : decode32 0x70C33852 = .ok (.amoCas 6 3 7 false true false .C) := by rfl
theorem test_decode_amo_swap : decode32 0x70042869 = .ok (.amoSwap 0 4 5 true false true .C) := by rfl
-- 10_comb
theorem test_decode_cshp : decode64 0x7500000001E00000 = .ok (.cshp 15) := by rfl
theorem test_decode_czero : decode64 0x7100000000000000 = .ok (.czero 0) := by rfl
theorem test_decode_cget : decode64 0x72050000020383E0 = .ok (.cget 20 0 16 0 0 7 0 31) := by rfl
-- 11_route
theorem test_decode_rtset : decode64 0x7D00080002400000 = .ok (.rtset false 4 18) := by rfl
theorem test_decode_mset_lt : decode64 0x3700400002600000 = .ok (.msetLt plain 1 19) := by rfl
theorem test_decode_route : decode64 0x7848022182200000 = .ok (.route { c := false, pm := some 1 } 0 1 2 3 17) := by rfl
theorem test_decode_fwait : decode64 0x7B05000000000000 = .ok (.fwait false 20 0) := by rfl
theorem test_decode_fread : decode64 0x7C05000A80000000 = .ok (.fread false 20 21 0) := by rfl
theorem test_decode_rrecv : decode64 0x79006A0F02C00000 = .ok (.rrecv false 1 30 21 22) := by rfl
theorem test_decode_rret : decode64 0x7A00280F00000000 = .ok (.rret plain 20 30) := by rfl
-- 12_engines, 13_collective, 14_system
theorem test_decode_csrw : decode32 0x880705A1 = .ok (.csrw 0 7 0x05A) := by rfl
theorem test_decode_cset : decode32 0x90A63805 = .ok (.cset 5 6 7) := by rfl
theorem test_decode_tlbinv_pg : decode32 0x8C650005 = .ok (.tlbinvPg .M 5) := by rfl
theorem test_decode_tlbinv_all : decode32 0x8D600005 = .ok (.tlbinvAll .M) := by rfl
theorem test_decode_vqsave : decode32 0x8CA60006 = .ok (.vqsave 5 6) := by rfl
theorem test_decode_vqload : decode32 0x8C062807 = .ok (.vqload 6 5) := by rfl
theorem test_decode_cwb : decode32 0x8C053008 = .ok (.cwb 5 6) := by rfl
theorem test_decode_svc : decode32 0x8C000000 = .ok .svc := by rfl
theorem test_decode_vret : decode32 0x8C000002 = .ok .vret := by rfl
-- words that no instruction has
theorem test_decode_fence_fn : (decode32 0x74000014).toOption = none := by decide
theorem test_decode_system_fn : (decode32 0x8C00000A).toOption = none := by decide
theorem test_decode_unassigned_csr : (decode32 0x88E00160).toOption = none := by decide
theorem test_decode_vector_tail : (decode64 0x0000000000000001).toOption = none := by decide

/-! ### Single steps -/

/-- A 32-bit element of a register in the hart whose turn it is. -/
def el (s : State) (v e : Nat) : Nat := s.hart.elem s.hart.cfg v 32 e

/-- A hart with two scalars. -/
def two (x y : Word) : State := machine (Regs [(3, x), (4, y)] bare)

-- 04_scalar R90, R91, by hand
theorem test_add_wraps : (after (exec (.add 5 3 4) (two 0xFFFFFFFFFFFFFFFF 2))).rd 5 = 1 := by decide
theorem test_add_pc_and_s0 : (after (exec (.add 0 3 4) (two 1 2))).rd 0 = 0 ∧ (after (exec (.add 0 3 4) (two 1 2))).hart.pc = 0x1004 := by decide
theorem test_sub_order : (after (exec (.sub 5 3 4) (two 5 7))).rd 5 = 0xFFFFFFFFFFFFFFFE := by decide
theorem test_and : (after (exec (.and 5 3 4) (two 0xF0F0 0xFF00))).rd 5 = 0xF000 := by decide
theorem test_or : (after (exec (.or 5 3 4) (two 0xF0F0 0xFF00))).rd 5 = 0xFFF0 := by decide
theorem test_xor : (after (exec (.xor 5 3 4) (two 0xF0F0 0xFF00))).rd 5 = 0x0FF0 := by decide
theorem test_shl_mod : (after (exec (.shl 5 3 4) (two 3 65))).rd 5 = 6 := by decide
theorem test_shr : (after (exec (.shr 5 3 4) (two 0x8000000000000000 63))).rd 5 = 1 := by decide
theorem test_sar_sign : (after (exec (.sar 5 3 4) (two 0xFFFFFFFFFFFFFFF8 65))).rd 5 = 0xFFFFFFFFFFFFFFFC := by decide
theorem test_slt_signed : (after (exec (.slt 5 3 4) (two 0xFFFFFFFFFFFFFFFF 1))).rd 5 = 1 := by decide
theorem test_sltu_unsigned : (after (exec (.sltu 5 3 4) (two 0xFFFFFFFFFFFFFFFF 1))).rd 5 = 0 := by decide
theorem test_mul_low : (after (exec (.mul 5 3 4) (two 0xFFFFFFFFFFFFFFFF 3))).rd 5 = 0xFFFFFFFFFFFFFFFD := by decide
theorem test_mulh_signed : (after (exec (.mulh 5 3 4) (two 0x8000000000000000 2))).rd 5 = 0xFFFFFFFFFFFFFFFF := by decide
theorem test_div_overflow : (after (exec (.div 5 3 4) (two 0x8000000000000000 0xFFFFFFFFFFFFFFFF))).rd 5 = 0x8000000000000000 := by decide
theorem test_div_truncates : (after (exec (.div 5 3 4) (two 0xFFFFFFFFFFFFFFF9 2))).rd 5 = 0xFFFFFFFFFFFFFFFD := by decide
theorem test_divu_zero : (after (exec (.divu 5 3 4) (two 7 0))).rd 5 = 0xFFFFFFFFFFFFFFFF := by decide
theorem test_rem_sign : (after (exec (.rem 5 3 4) (two 0xFFFFFFFFFFFFFFF9 2))).rd 5 = 0xFFFFFFFFFFFFFFFF := by decide
theorem test_rem_zero : (after (exec (.rem 5 3 4) (two 7 0))).rd 5 = 7 := by decide
theorem test_min_signed : (after (exec (.min 5 3 4) (two 0xFFFFFFFFFFFFFFFF 1))).rd 5 = 0xFFFFFFFFFFFFFFFF := by decide
theorem test_max_signed : (after (exec (.max 5 3 4) (two 0xFFFFFFFFFFFFFFFF 1))).rd 5 = 1 := by decide
-- R92 to R94; LHI and ADDPC as the running examples of 06_varith and 04_scalar print them
theorem test_addi_self : (after (exec (.addi 3 3 0xFFFF) (two 1 0))).rd 3 = 0 := by decide
theorem test_andi_zero_ext : (after (exec (.andi 5 3 0x8000) (two 0xFFFFFFFFFFFFFFFF 0))).rd 5 = 0x8000 := by decide
theorem test_ori : (after (exec (.ori 3 3 0xAA3B) (two 0xFFFFFFFFBFB80000 0))).rd 3 = 0xFFFFFFFFBFB8AA3B := by decide
theorem test_xori : (after (exec (.xori 5 3 0xFFFF) (two 0 0))).rd 5 = 0xFFFF := by decide
theorem test_slti_sign_ext : (after (exec (.slti 5 3 0xFFFF) (two 0xFFFFFFFFFFFFFFFE 0))).rd 5 = 1 := by decide
theorem test_shli : (after (exec (.shli 5 3 63) (two 3 0))).rd 5 = 0x8000000000000000 := by decide
theorem test_shri : (after (exec (.shri 5 3 32) (two 0xFFFFFFFF00000000 0))).rd 5 = 0xFFFFFFFF := by decide
theorem test_sari : (after (exec (.sari 5 3 63) (two 0x8000000000000000 0))).rd 5 = 0xFFFFFFFFFFFFFFFF := by decide
theorem test_lhi : (after (exec (.lhi 7 0xBFB8) (two 0 0))).rd 7 = 0xFFFFFFFFBFB80000 := by decide
theorem test_addpc : (after (exec (.addpc 14 1) (machine { bare with pc := 0x101C }))).rd 14 = 0x1101C := by decide
-- R99 to R101, the branch and the jump of the running example
theorem test_bltu_back : (after (exec (.bltu 15 13 0xFFF8) (machine (Regs [(13, 3), (15, 1)] { bare with pc := 0x1048 })))).hart.pc = 0x1028 := by decide
theorem test_bltu_falls : (after (exec (.bltu 15 13 0xFFF8) (machine (Regs [(13, 3), (15, 3)] { bare with pc := 0x1048 })))).hart.pc = 0x104C := by decide
theorem test_jal : (after (exec (.jal 1 7) (machine { bare with pc := 0x1034 }))).hart.pc = 0x1050
    ∧ (after (exec (.jal 1 7) (machine { bare with pc := 0x1034 }))).rd 1 = 0x1038 := by decide
theorem test_beq : (after (exec (.beq 3 4 4) (two 5 5))).hart.pc = 0x1010 := by decide
theorem test_bne : (after (exec (.bne 3 4 4) (two 5 5))).hart.pc = 0x1004 := by decide
theorem test_blt_signed : (after (exec (.blt 3 4 4) (two 0xFFFFFFFFFFFFFFFF 0))).hart.pc = 0x1010 := by decide
theorem test_bge_signed : (after (exec (.bge 3 4 4) (two 0xFFFFFFFFFFFFFFFF 0))).hart.pc = 0x1004 := by decide
theorem test_bgeu : (after (exec (.bgeu 3 4 4) (two 0xFFFFFFFFFFFFFFFF 0))).hart.pc = 0x1010 := by decide
theorem test_jalr_old_value : (after (exec (.jalr 3 3 0xFFFC) (two 0x2004 0))).hart.pc = 0x2000
    ∧ (after (exec (.jalr 3 3 0xFFFC) (two 0x2004 0))).rd 3 = 0x1004 := by decide
theorem test_jalr_misaligned : (after (exec (.jalr 5 3 0) (two 0x2002 0))).hart.trap.scause = 0x008
    ∧ (after (exec (.jalr 5 3 0) (two 0x2002 0))).hart.trap.stval = 0x2002 := by decide
-- R96, R97
/-- A machine with a doubleword at 0x2000, and s3 naming it. -/
def data : State := Put 0x2000 8 0x8877665544332281 (two 0x2000 0x0102030405060708)
/-- The state after a load and the arrival of its data. -/
def loaded (i : Instr) (s : State) : State := after (exec .scalarLoadData (after (exec i s)))
theorem test_ld : (loaded (.ld 5 3 0) data).rd 5 = 0x8877665544332281 := by decide
theorem test_lw_sign : (loaded (.lw 5 3 4) data).rd 5 = 0xFFFFFFFF88776655 := by decide
theorem test_lwu : (loaded (.lwu 5 3 4) data).rd 5 = 0x88776655 := by decide
theorem test_lh_sign : (loaded (.lh 5 3 6) data).rd 5 = 0xFFFFFFFFFFFF8877 := by decide
theorem test_lhu : (loaded (.lhu 5 3 6) data).rd 5 = 0x8877 := by decide
theorem test_lb_sign : (loaded (.lb 5 3 0) data).rd 5 = 0xFFFFFFFFFFFFFF81 := by decide
theorem test_lbu : (loaded (.lbu 5 3 0) data).rd 5 = 0x81 := by decide
theorem test_lw_misaligned : (after (exec (.lw 5 3 2) data)).hart.trap.scause = 0x008 := by decide
/-- The state after a store and its performance. -/
def stored (i : Instr) (s : State) : State := after (exec .storeBufferWrite (after (exec i s)))
theorem test_sd : (stored (.sd 4 3 8) data).readMem 0x2008 8 = 0x0102030405060708 := by decide
theorem test_sw_neighbours : (stored (.sw 4 3 4) data).readMem 0x2000 8 = 0x0506070844332281 := by decide
theorem test_sh : (stored (.sh 4 3 2) data).readMem 0x2000 8 = 0x8877665507082281 := by decide
theorem test_sb : (stored (.sb 4 3 7) data).readMem 0x2000 8 = 0x0877665544332281 := by decide
theorem test_store_buffered : (after (exec (.sd 4 3 8) data)).readMem 0x2008 8 = 0 ∧ (after (exec (.sd 4 3 8) data)).hart.sbuf.length = 1 := by decide
-- 09_order R212, R213
theorem test_amo_add_w_sign : (after (exec (.amoAdd 5 3 4 false false false .C) (Put 0x2000 8 0x1122334480000000 (two 0x2000 1)))).rd 5 = 0xFFFFFFFF80000000 := by decide
theorem test_amo_add_w_store : (after (exec (.amoAdd 5 3 4 false false false .C) (Put 0x2000 8 0x11223344FFFFFFFF (two 0x2000 1)))).readMem 0x2000 8 = 0x1122334400000000 := by decide
theorem test_amo_swap_l : (after (exec (.amoSwap 5 3 4 true false false .M) data)).readMem 0x2000 8 = 0x0102030405060708 := by decide
theorem test_amo_cas_differs : (after (exec (.amoCas 5 3 4 true false false .M) data)).readMem 0x2000 8 = 0x8877665544332281 := by decide
theorem test_amo_and : (after (exec (.amoAnd 5 3 4 true false false .M) data)).readMem 0x2000 8 = 0x0002020404020200 := by decide
theorem test_amo_or : (after (exec (.amoOr 5 3 4 true false false .M) (Put 0x2000 8 0xF0 (two 0x2000 0x0F)))).readMem 0x2000 8 = 0xFF := by decide
theorem test_amo_max_signed : (after (exec (.amoMax 5 3 4 true false false .M) data)).readMem 0x2000 8 = 0x0102030405060708 := by decide
theorem test_amo_min_signed : (after (exec (.amoMin 5 3 4 true false false .M) data)).readMem 0x2000 8 = 0x8877665544332281 := by decide
-- 09_order R210: a buffered store holds FENCE.SV, not FENCE.VS
theorem test_fence_sv_waits : (after (exec (.fenceSv .M) (after (exec (.sd 4 3 8) data)))).hart.wait = .fence true false false := by decide
theorem test_fence_vs_passes : (after (exec (.fenceVs .M) (after (exec (.sd 4 3 8) data)))).hart.pc = 0x1008 := by decide
-- 05_harts, the worked grants of R111: H = 4, NREG = 32
/-- A hart of four on its core. -/
def quarter (x : Word) : State := machine (Regs [(3, x)] { bare with place := { bare.place with h := 4 } })
/-- The same with a grant. -/
def granted (g : BitVec 4) (s : State) : State := s.modCore fun y => { y with vgrant := g }
theorem test_setlen_full : (after (exec (.setleni 5 3 0x04) (quarter 10000))).rd 5 = 8192 := by decide
theorem test_setlen_grant : (after (exec (.setleni 5 3 0x04) (granted 3 (quarter 10000)))).rd 5 = 3072 := by decide
theorem test_setlen_blocks : (after (exec (.setleni 5 3 0x14) (quarter 1000))).rd 5 = 992 := by decide
theorem test_setlen_six_bits : (after (exec (.setleni 5 3 0x01) (granted 5 (quarter 50000)))).rd 5 = 25600 := by decide
theorem test_setlen_reserved : (after (exec (.setleni 5 3 0x05) (quarter 100))).rd 5 = 0
    ∧ (after (exec (.setleni 5 3 0x05) (quarter 100))).hart.cfg.vtype = 0x8000000000000000 := by decide
-- 04_scalar R102; 03_formats R78 for SEED
theorem test_csrr_hart_config : (after (exec (.csrr 5 0 0x012) (two 0 0))).rd 5 = 32 := by decide
theorem test_csrw_seed_zero : (after (exec (.csrw 5 0 0x033) (two 0 0))).hart.vec.seed = 0x9E3779B97F4A7C15 := by decide
theorem test_csrw_read_only : (after (exec (.csrw 5 3 0x013) (two 1 0))).hart.trap.scause = 0x001 := by decide
-- 14_system R313, R319, R321
theorem test_svc : (after (exec .svc (two 0 0))).hart.trap.scause = 0x023 ∧ (after (exec .svc (two 0 0))).hart.trap.sepc = 0x1000
    ∧ (after (exec .svc (two 0 0))).hart.trap.system = true := by decide
theorem test_brk : (after (exec .brk (two 0 0))).hart.trap.scause = 0x022 := by decide
theorem test_tret_program : (after (exec .tret (two 0 0))).hart.trap.scause = 0x001 ∧ (after (exec .tret (two 0 0))).hart.trap.stval = 0x8C000001 := by decide
theorem test_svc_tret : (after (exec .tret (after (exec .svc (two 0 0))))).hart.pc = 0x1000
    ∧ (after (exec .tret (after (exec .svc (two 0 0))))).hart.trap.system = false := by decide
-- 05_harts R117 to R119, 13_collective R292
theorem test_vdecl_bad : (after (exec (.vdecl 3) (two 12 0))).hart.trap.scause = 0x001 ∧ (after (exec (.vdecl 3) (two 12 0))).hart.trap.stval = 12 := by decide
theorem test_vdecl : (after (exec (.vdecl 3) (two 8 0))).hart.cfg.nreg = 8 := by decide
theorem test_farm : (after (exec (.farm 5 3) (two 3 0))).rd 5 = 0 ∧ ((after (exec (.farm 5 3) (two 3 0))).launches.map Launch.farms) = [[(3, 0)]] := by decide
theorem test_fnext_unopened : (after (exec (.fnext 5 3) (two 0 0))).rd 5 = 0xFFFFFFFFFFFFFFFE := by decide
theorem test_cset : (after (exec (.cset 5 3 4) (two 0x0301000F 0x1000))).hart.cfg.cgrp = 0x000F
    ∧ (after (exec (.cset 5 3 4) (two 0x0301000F 0x1000))).hart.cfg.cstep = 1 := by decide
theorem test_cset_stride : (after (exec (.cset 5 3 4) (two 0 0x1001))).hart.trap.stval = 0x1001 := by decide
-- 02_stream R37: the block of the running example
/-- A block at 0x1010 of one VMUL and a VSTOP. -/
def block : State := Put 0x1010 8 0x1200820000A00001 (machine (Regs [(5, 0x3F000000)] bare))
/-- The words that a hart still has to place. -/
def toPlace (w : SWait) : List Entry :=
  match w with
  | .placing es => es
  | _ => []
theorem test_vblk_captures : ((toPlace (after (exec (.vblk 2) block)).hart.wait).map fun e => (e.sval, e.addr)) = [(0x3F000000, 0x1010), (0, 0x1018)] := by
  decide
theorem test_block_word_place : (after (exec .blockWordPlace (after (exec (.vblk 2) block)))).hart.q.vq.length = 1
    ∧ (after (exec .blockWordPlace (after (exec (.vblk 2) block)))).hart.vec.bpc = 1 := by decide
-- the running example of 06_varith: the gate of 0.0
/-- One element in v1, and a scalar in s7. -/
def one (x : Nat) (w : Word) : State := machine (Elems 1 [x] (Regs [(7, w)] (Len 1 bare)))
theorem test_vmul_minus_zero : el (after (exec (.vmul plain 5 1 (.scal 7) 0) (one 0 0xFFFFFFFFBFB8AA3B))) 5 0 = 0x80000000 := by decide
theorem test_vexp2_zero : el (after (exec (.vexp2 plain 6 1 0) (one 0x80000000 0))) 6 0 = 0x3F800000 := by decide +kernel
theorem test_vadd_one : el (after (exec (.vadd plain 7 1 (.scal 7) 0) (one 0x3F800000 0x3F800000))) 7 0 = 0x40000000 := by decide
theorem test_vrcp_two : el (after (exec (.vrcp plain 8 1 0) (one 0x40000000 0))) 8 0 = 0x3F000000 := by decide +kernel
theorem test_vrcp_inf : el (after (exec (.vrcp plain 8 1 0) (one 0x7F800000 0))) 8 0 = 0 := by decide +kernel
-- 03_formats, the widening VCVT: BF16 pattern h becomes h << 16
theorem test_vcvt_bf16 : el (after (exec (.vcvt plain 4 1 6) (machine (ElemsOf 16 1 [0x3F81] (Regs [(6, 0x63)] (Len 1 bare)))))) 4 0 = 0x3F810000 := by decide +kernel
-- 06_varith R139 to R147, by hand: 3.0 and 2.0 in v1 and v2, 1.0 in v3
/-- Two elements in v1, v2 and v3. -/
def three (f : Word) : State := machine (Elems 3 [0x3F800000, 0x3F800000] (Elems 2 [0x40000000, 0xC0000000] (Elems 1 [0x40400000, 0x40400000] (Regs [(6, f), (7, 5)] (Len 2 bare)))))
theorem test_vsub : el (after (exec (.vsub plain 4 1 (.vec 2) 0) (three 0))) 4 1 = 0x40A00000 := by decide
theorem test_vdiv : el (after (exec (.vdiv plain 4 1 (.vec 2) 0) (three 0))) 4 0 = 0x3FC00000 := by decide +kernel
theorem test_vfma : el (after (exec (.vfma plain 4 1 (.vec 2) 3 0) (three 0))) 4 0 = 0x40E00000 := by decide
theorem test_vfms : el (after (exec (.vfms plain 4 1 (.vec 2) 3 0) (three 0))) 4 0 = 0x40A00000 := by decide
theorem test_vfnma : el (after (exec (.vfnma plain 4 1 (.vec 2) 3 0) (three 0))) 4 0 = 0xC0A00000 := by decide
theorem test_vmin : el (after (exec (.vmin plain 4 1 (.vec 2) 0) (three 0))) 4 1 = 0xC0000000 := by decide
theorem test_vmax : el (after (exec (.vmax plain 4 1 (.vec 2) 0) (three 0))) 4 1 = 0x40400000 := by decide
theorem test_vabs : el (after (exec (.vabs plain 4 2 0) (three 0))) 4 1 = 0x40000000 := by decide
theorem test_vneg : el (after (exec (.vneg plain 4 2 0) (three 0))) 4 0 = 0xC0000000 := by decide
theorem test_vsqrt : el (after (exec (.vsqrt plain 4 1 0) (one 0x41100000 0))) 4 0 = 0x40400000 := by decide +kernel
theorem test_vrsqrt : el (after (exec (.vrsqrt plain 4 1 0) (one 0x40800000 0))) 4 0 = 0x3F000000 := by decide +kernel
theorem test_vlog2 : el (after (exec (.vlog2 plain 4 1 0) (one 0x41000000 0))) 4 0 = 0x40400000 := by decide +kernel
theorem test_vindex : el (after (exec (.vindex plain 4 7 0) (three 0))) 4 1 = 0x40C00000 := by decide
theorem test_vsplat : el (after (exec (.vsplat plain 4 7 0) (three 0))) 4 1 = 5 := by decide
theorem test_vmov : el (after (exec (.vmov plain 4 2 0) (three 0))) 4 1 = 0xC0000000 := by decide
theorem test_vand : el (after (exec (.vand plain 4 1 (.vec 2) 0) (three 0))) 4 1 = 0x40000000 := by decide
theorem test_vor : el (after (exec (.vor plain 4 1 (.vec 2) 0) (three 0))) 4 1 = 0xC0400000 := by decide
theorem test_vxor : el (after (exec (.vxor plain 4 1 (.vec 2) 0) (three 0))) 4 0 = 0x00400000 := by decide
theorem test_vcmp_gt : (after (exec (.vcmp plain .gt 2 1 (.vec 2) 0) (three 0))).hart.maskBit 2 0 = true
    ∧ (after (exec (.vcmp plain .lt 2 1 (.vec 2) 0) (three 0))).hart.maskBit 2 0 = false := by decide
theorem test_vadd_overlap : (after (exec (.vadd plain 1 1 (.vec 2) 0) (three 0))).hart.maskBit 0 0 = false
    ∧ el (after (exec (.vadd plain 1 1 (.vec 2) 0) (three 0))) 1 0 = 0x40A00000 := by decide
theorem test_vshl_int : el (after (exec (.vshl plain 4 1 (.scal 7) 6) (machine (Elems 1 [0x80000003] (Regs [(6, 0x9CE73), (7, 1)] (Len 1 bare)))))) 4 0 = 6 := by decide
-- the reductions of 06_varith: 2^24, 1.0, 1.0, -2^24, and then 3.0
/-- Five elements of v1, four or five of them below VL. -/
def sums (n : Nat) : State := machine (Elems 1 [0x4B800000, 0x3F800000, 0x3F800000, 0xCB800000, 0x40400000] (Len n bare))
theorem test_vred_sumo : (after (exec (.vredSumo plain 9 1 none 0) (sums 4))).rd 9 = 0 := by decide +kernel
theorem test_vred_sump : (after (exec (.vredSump plain 9 1 none 0) (sums 4))).rd 9 = 0x3F800000 := by decide +kernel
theorem test_vred_max : (after (exec (.vredMax plain 9 1 none 0) (sums 4))).rd 9 = 0x4B800000 := by decide +kernel
theorem test_vred_sumo_five : (after (exec (.vredSumo plain 9 1 none 0) (sums 5))).rd 9 = 0x40400000 := by decide +kernel
theorem test_vred_sump_five : (after (exec (.vredSump plain 9 1 none 0) (sums 5))).rd 9 = 0x40800000 := by decide +kernel
theorem test_vred_min : (after (exec (.vredMin plain 9 1 none 0) (sums 4))).rd 9 = 0xCB800000 := by decide +kernel
theorem test_vred_and : (after (exec (.vredAnd plain 9 1 none 0) (three 0))).rd 9 = 0x40400000 := by decide +kernel
theorem test_vred_or_init : (after (exec (.vredOr plain 9 1 (some 7) 0) (three 0))).rd 9 = 0x40400005 := by decide +kernel
theorem test_vred_xor : (after (exec (.vredXor plain 9 1 none 0) (three 0))).rd 9 = 0 := by decide +kernel
theorem test_vclamp : el (after (exec (.vclamp plain 4 1 (.vec 3 2) 0) (three 0))) 4 0 = 0x40000000 := by decide +kernel
-- 06_varith R148, R149 on m1 = 1, 1, 0, 0 and m2 = 1, 0, 1, 0
/-- Four elements and two masks. -/
def masks : State := machine (Bits 2 [true, false, true, false] (Bits 1 [true, true, false, false] (Regs [(3, 2)] (Len 4 bare))))
/-- The first four bits of m3 after a word. -/
def bits3 (i : Instr) : List Bool := (List.range 4).map ((after (exec i masks)).hart.maskBit 3)
theorem test_mand : bits3 (.mand plain 3 1 2) = [true, false, false, false] := by decide
theorem test_mor : bits3 (.mor plain 3 1 2) = [true, true, true, false] := by decide
theorem test_mxor : bits3 (.mxor plain 3 1 2) = [false, true, true, false] := by decide +kernel
theorem test_mandn : bits3 (.mandn plain 3 1 2) = [false, true, false, false] := by decide
theorem test_mnot : bits3 (.mnot plain 3 1) = [false, false, true, true] := by decide
theorem test_mset_lt : bits3 (.msetLt plain 3 3) = [true, true, false, false] := by decide
theorem test_mset_ge : bits3 (.msetGe plain 3 3) = [false, false, true, true] := by decide
theorem test_mset_predicate : bits3 (.msetGe { c := false, pm := some 1 } 3 0) = [true, true, false, false] := by decide
theorem test_mpop : (after (exec (.mpop { c := false, pm := some 1 } 9 2) masks)).rd 9 = 1 := by decide
theorem test_mfirst : (after (exec (.mfirst plain 9 1) masks)).rd 9 = 0 := by decide
theorem test_mfirst_none : (after (exec (.mfirst plain 9 4) masks)).rd 9 = 0xFFFFFFFFFFFFFFFF := by decide
-- 07_rearrange R160 to R162 on v1 = 10, 20, 30, 40
/-- Four elements, an index group in v2 and a mask. -/
def moves : State := machine (Bits 1 [false, true, false, true] (Elems 2 [3, 0xFFFFFFFF, 0, 2] (Elems 1 [10, 20, 30, 40] (Regs [(3, 1), (6, 0x260)] (Len 4 bare)))))
/-- The first four elements of v4 after a word. -/
def els4 (i : Instr) : List Nat := (List.range 4).map (el (after (exec i moves)) 4)
theorem test_vup : els4 (.vup plain 4 1 3 0) = [0, 10, 20, 30] := by decide
theorem test_vdn : els4 (.vdn plain 4 1 3 0) = [20, 30, 40, 0] := by decide
theorem test_vgathr : els4 (.vgathr plain 4 1 2 6) = [40, 0, 10, 30] := by decide
theorem test_vpack : els4 (.vpack false 4 1 1 0) = [20, 40, 0, 0] := by decide
theorem test_vunpk : els4 (.vunpk false 4 1 1 0) = [0, 10, 0, 20] := by decide
theorem test_vsel : els4 (.vsel plain 4 1 (.vec 2) 1 0) = [3, 20, 0, 40] := by decide +kernel
-- 08_memory R181: elements of memory and of a register
/-- A machine with four words at 0x2000 and v1 = 1, 2, 3, 4. -/
def mem4 : State := Put 0x2000 8 0x0000000600000005 (Put 0x2008 8 0x0000000800000007 (machine (Elems 2 [8, 0, 4, 12] (Elems 1 [1, 2, 3, 4] (Regs [(3, 0x2000), (4, 8), (6, 0x260)] (Len 4 bare))))))
theorem test_vld : (List.range 4).map (el (after (exec (.vld plain 4 3 0 0) mem4)) 4) = [5, 6, 7, 8] := by decide +kernel
theorem test_vlds : el (after (exec (.vlds plain 4 3 4 0 0) mem4)) 4 1 = 7 := by decide +kernel
theorem test_vldx : (List.range 4).map (el (after (exec (.vldx plain 4 3 2 6 0) mem4)) 4) = [7, 5, 6, 8] := by decide +kernel
/-- The same with VL = 4 and only element 2 active under m1. -/
def mem2 : State := mem4.modHart (Bits 1 [false, false, true, false])
/-- The predicate m1. -/
def under1 : VHdr := { c := false, pm := some 1 }
theorem test_vst : (after (exec (.vst under1 1 3 0 4) mem2)).readMem 0x2008 8 = 0x0000000300000007 := by decide +kernel
theorem test_vsts : (after (exec (.vsts under1 1 3 4 0 0xFFF4) mem2)).readMem 0x2000 8 = 0x0000000300000005 := by decide +kernel
theorem test_vstx : (after (exec (.vstx under1 1 3 2 6 0) mem2)).readMem 0x2000 8 = 0x0000000300000005 := by decide +kernel
theorem test_vstxo : (after (exec (.vstxo under1 1 3 2 6 0) mem2)).readMem 0x2000 8 = 0x0000000300000005 := by decide +kernel
theorem test_vldff : (List.range 4).map ((after (exec (.vldff plain 4 3 3 0 0) mem4)).hart.maskBit 3) = [true, true, true, true] := by decide +kernel
-- 08_memory, the store of 1 + 2^-9 to a BF16 page with stochastic rounding; SF 1 and SRM 1 (SR) in the leaf
/-- SEED 1, and the value in v20. -/
def srPage : State := { machine { Elems 20 [0x3F804000] (Regs [(4, 0x2000)] (Len 1 bare)) with vec := { VecRegs.init with seed := 1 } } with
  mem := [(0x10000, 0x3F), (0x10001, 0x88)] }
theorem test_vst_sr : (after (exec (.vst plain 20 4 0 0) srPage)).readMem 0x2000 4 = 0x3F81 := by decide +kernel
theorem test_vst_sr_seed : (after (exec (.vst plain 20 4 0 0) srPage)).hart.vec.seed = 0x0000000040822041 := by decide +kernel
-- 09_order R216 on element 2 at 0x2004
theorem test_vamo_add : (after (exec (.vamoAdd under1 4 1 2 3 6 0) (mem2.wr 6 0x273))).readMem 0x2000 8 = 0x0000000900000005 := by decide +kernel
theorem test_vamo_swap_old : el (after (exec (.vamoSwap under1 4 1 2 3 6 0) (mem2.wr 6 0x273))) 4 2 = 6 := by decide +kernel
-- 16_prog_plural R359: the words of the program on its lane memory
/-- Banks 0 to 4 of row 0x100 and banks 0 to 3 of row 0x101. -/
def lanes : State := (machine { Regs [(3, 0xF200000000010800), (4, 0x101), (5, 25), (6, 0x10), (7, 0xB), (8, 0x10), (11, 0xF200000000010808)] bare with
    lmbase := 0x100, lmsize := 2
    cfg := { bare.cfg with bs := (Vector.replicate 8 0).set 1 0xF } }).modCore fun y => { y with
      lm := [(8192, 100), (8193, 0xFF38), (8194, 300), (8195, 7), (8196, 1000), (8224, 25), (8225, 25), (8226, 25), (8227, 25)] }
/-- A lane-memory word after a word of the program. -/
def lane (i : Instr) (n : Nat) : Word := (after (exec i lanes)).core.lmWord n
theorem test_pst : lane (.pst false 11 5 0 6 none false) 8227 = 25 ∧ lane (.pst false 11 5 0 6 none false) 8228 = 0 := by decide +kernel
theorem test_pop_row : (List.range 5).map (fun i => lane (.popAdd false 3 4 7 6 none true false) (8192 + i)) = [0x7D, 0xFF51, 0x12C, 0x20, 0x3E8] := by decide +kernel
theorem test_pld_max : (after (exec (.pldMax false 13 3 0 6 none false) lanes)).rd 13 = 0x43960000 := by decide +kernel
theorem test_pld_min_empty : (after (exec (.pldMin false 14 3 8 6 none false) lanes)).rd 14 = 0x7F800000
    ∧ (after (exec (.pldMin false 14 3 8 6 none false) lanes)).hart.vec.pe = true := by decide +kernel
theorem test_pld_and_empty : (after (exec (.pldAnd false 15 3 8 6 none false) lanes)).rd 15 = 0xFFFFFFFFFFFFFFFF := by decide +kernel
-- 08_memory, the marked bank: PLD.SUM outside it gives 24.0, on it a precise cause 0x19
/-- Banks 0 to 3 of row 0x100 hold 8, 8, 5 with a mark, 8. -/
def marked : State := lanes.modCore fun y => { y with lm := [(8192, 8), (8193, 8), (8194, 5), (8195, 8)], lmMarks := [8194] }
theorem test_pld_sum_outside : (after (exec (.pldSum false 9 3 7 6 none false) marked)).rd 9 = 0x41C00000 := by decide +kernel
theorem test_pld_sum_marked : (after (exec (.pldSum false 9 3 0 6 none false) marked)).hart.trap.scause = 0x119
    ∧ (after (exec (.pldSum false 9 3 0 6 none false) marked)).hart.vec.pfBanks = 4 := by decide +kernel
-- 10_comb, the CGET of the worked fragment
/-- A hart with 3.75 and -1.5 in row 0 of t0, and the placement CO 0, RS 64. -/
def tiled : State := machine { Regs [(16, 0x0000004000000000)] (Len 64 bare) with store := { bare.store with tiles := [(0, 0x40700000), (1, 0xBFC00000)] } }
theorem test_cget : (List.range 2).map (el (after (exec (.cget 20 0 16 0 0 0 0 1) tiled)) 20) = [0x40700000, 0xBFC00000] := by decide +kernel
theorem test_czero : (after (exec (.czero 3) (machine { bare with store := { bare.store with tiles := [(3 * 1024 + 33, 7)] } }))).hart.tileAt 3 1 1 = 0 := by decide +kernel
theorem test_czero_beyond_share : (after (exec (.czero 3) (machine { bare with place := { bare.place with h := 4 } }))).hart.trap.scause = 0x206 := by decide +kernel
theorem test_cshp_bad : (after (exec (.cshp 3) (two 0xFFFFFFFFFFFFFFFF 0))).hart.trap.scause = 0x205 := by decide +kernel
-- 11_route, the router's table and inbox registers, and its FREAD of row 2
/-- Two route-table entries in v4. -/
def router : State := machine (ElemsOf 64 4 [0x0000000001000003, 0x0000000002000003] (Regs [(18, 0x0200), (19, 4)] (Len 8 bare)))
theorem test_rtset : (after (exec (.rtset false 4 18) router)).core.routes[1]?.getD 0 = 0x0000000002000003 := by decide +kernel
theorem test_rtset_count_zero : (after (exec (.rtset false 4 18) (router.wr 18 0))).hart.trap.scause = 0x105 := by decide +kernel
/-- A closed frame of one row of two words: choice 0 returned (-12.0, 1.5), choice 1 was dropped. -/
def framed : State := (machine (Len 2 bare)).modCore fun y => { y with
  lm := [(8192, 0x3FC00000C1400000)]
  frames := y.frames.set 0 { Frame.init with st := 3, w := 2, maxr := 8, base := 0x100, nrow := 1, wts := [0x3F200000, 0x3EC00000], stat := [some 0, some 3] } }
theorem test_fread : (List.range 2).map (el (after (exec (.fread false 20 21 0) framed)) 20) = [0xC0F00000, 0x3F700000] := by decide +kernel
theorem test_fread_status : (after (exec (.fread false 20 21 0) framed)).hart.elem bare.cfg 21 8 0 = 0x18 := by decide +kernel
theorem test_fwait_owner : (after (exec (.fwait false 20 0) framed)).rd 20 = 0 := by decide +kernel
-- 12_engines R265 to R271: a card with no rows is refused with FORM, field 0
theorem test_enq_form : (after (exec (.enqStk plain 1 12 8) (machine (Len 1 bare)))).hart.chunk (Len 1 bare).cfg 12 0 = 6 := by decide +kernel
theorem test_cwpw_reached : (after (exec (.cwpw false 1 0) (two 0 0))).hart.q.stall = .none := by decide +kernel
-- 05_harts R104 to R114, 15_device
theorem test_vgrant_write : ((after (exec (.vgrantWrite 5 3) (two 0 0))).coreAt 5).vgrant = 3 := by decide
theorem test_plimit_low : (after (exec (.plimitWrite 999) (two 0 0))).mgr.plimit = 3400 := by decide
theorem test_plimit : (after (exec (.plimitWrite 1000) (two 0 0))).mgr.plimit = 1000 := by decide
theorem test_devnum_once : (after (exec (.devnumWrite 5) (two 0 0))).mgr.devnum = 0 ∧ (after (exec (.devnumWrite 5) { two 0 0 with mgr := { (two 0 0).mgr with devlock := false } })).mgr.devnum = 5 := by decide
theorem test_preempt_all : (after (exec (.preempt 0 0x80000000) (two 0 0))).hart.trap.pend = true := by decide
theorem test_intstat_clear : ((after (exec (.intstatClear 0 5) ((two 0 0).modTenAt 0 fun x => { x with intstat := 7 }))).tenAt 0).intstat = 2 := by decide
theorem test_trapvec_write : ((after (exec (.registerWrite (.ten 0) 0x88 0x2003) (two 0 0))).tenAt 0).trapvec = 0x2000 := by decide
theorem test_lqpush_first : ((after (exec (.lqpush 0 0 7) (two 0 0))).tenAt 0).staging = [7] := by decide
theorem test_lqpush_skip : ((after (exec (.lqpush 0 2 7) (two 0 0))).tenAt 0).intstat = 1 := by decide
theorem test_host_write : (after (exec (.hostWrite 0x2000 3 0x1122334455667788) (two 0 0))).readMem 0x2000 8 = 0x55667788 := by decide
theorem test_host_write_nowhere : exec (.hostWrite 0x300000000000 0 0) (two 0 0) = .fault (.noSuchAddress 0x300000000000) := by rfl
theorem test_halt_refused : (after (exec .halt (two 0 0))).mgr.dbgres = 0x203 := by decide
theorem test_read_pc : (after (exec .read (((machine { bare with halted := true }).modTenAt 0 fun x => { x with session := true }).modMgr fun m => { m with dbgaddr := 0x0800000000000000 }))).mgr.dbgdata = 0x1000 := by decide +kernel
theorem test_trap_take_pend : (after (exec .trapTake (machine { bare with trap := { bare.trap with pend := true } }))).hart.trap.scause = 0x320 := by decide +kernel
theorem test_machine_check : (after (exec (.machineCheck .queues) (two 0 0))).hart.trap.checks = [.queues] := by decide +kernel
theorem test_hexit_free : ((after (exec .hexitFree (machine { bare with wait := .hexit }))).launches.map Launch.left) = [0] := by decide +kernel
theorem test_hbar_release : (after (exec .hbarRelease (machine { bare with wait := .hbar }))).hart.pc = 0x1004 := by decide +kernel
-- a convoy of one word runs and leaves its queue
/-- A hart with a VMUL v3, v1, v2 at the head of its queue, 3.0 in v1 and 2.0 in v2. -/
def convoy : State :=
  let k := Elems 2 [0x40000000] (Elems 1 [0x40400000] (Len 1 bare))
  machine { k with q := { k.q with vq := [queued 0x1200C22000000000 0x2000 k], nextSeq := 1 } }
theorem test_convoy_dispatch : el (after (exec (.convoyDispatch 0xFFFFFFFF) convoy)) 3 0 = 0x40C00000 := by decide +kernel
theorem test_convoy_leaves : (after (exec (.convoyDispatch 0xFFFFFFFF) convoy)).hart.q.vq = [] := by decide +kernel
-- the next step fetches what withFetchWord places
theorem test_step_runs_word : ((after (step (State.reset.withFetchWord 32 0x04C00063))).hartAt 0 0).rd 6 = 0x63 := by decide +kernel
theorem test_step_runs_vector_word : ((after (step (State.reset.withFetchWord 64 0))).hartAt 0 0).q.vq = [] := by decide +kernel

/-! ### Witnesses: for each statement, states and operands that meet its hypotheses -/

/-- An outcome is a next state. -/
def answers (o : Out) : Bool :=
  match o with
  | .next _ => true
  | _ => false
theorem next_of_answers {o : Out} (h : answers o = true) : o = .next (after o) := by
  cases o <;> simp_all [answers, after]
/-- With one core listed, an error-free core list. -/
theorem noErrors_of {s : State} {y : Core} (h : s.cores = [(0, y)]) (hl : s.latent = []) (hy : y.lmLatent = []) : s.NoErrors := by
  refine ⟨hl, fun c => ?_⟩
  simp only [State.coreAt, h, mget]
  split
  · exact hy
  · rfl
/-- With one core listed, no marks. -/
theorem noMarks_of {s : State} {y : Core} (h : s.cores = [(0, y)]) (hl : s.marks = []) (hy : y.lmMarks = []) : s.NoMarks := by
  refine ⟨hl, fun c => ?_⟩
  simp only [State.coreAt, h, mget]
  split
  · exact hy
  · rfl

theorem witness_quiet : (two 1 2).Quiet := ⟨by decide, by decide⟩
theorem witness_calm : (two 1 2).Calm := ⟨by decide, by decide, by decide, by decide⟩
theorem witness_noSnapshot : (two 1 2).NoSnapshot := by unfold State.NoSnapshot; decide

-- StepRunsTheTurn
/-- The scalar turn of hart 0 of core 0. -/
def turn0 : Turn := { core := 0, hart := 0, input := none, ev := none }
/-- The first turn of the agenda taken up. -/
def taken (s : State) : State := { s with tick := s.tick + 1, agenda := [], cc := 0, ch := 0 }
/-- An ADD at the PC. -/
def program : State := { Put 0x1000 4 0x02030000 (two 1 2) with agenda := [turn0] }
theorem witness_step_runs : (taken program).hart.mayIssue = true
    ∧ (match (taken program).fetch32 (taken program).hart.pc with
      | .ok (w, t) => decide (decode32 w = .ok (.add 16 3 0)) && (t.gate (.add 16 3 0)).isNone
      | .error _ => false) = true := by decide +kernel
theorem witness_step_illegal : (match (taken (Put 0x1003 1 0xFF program)).fetch32 0x1000 with
      | .ok (w, _) => (decode32 w).toOption.isNone
      | .error _ => false) = true := by decide +kernel
theorem witness_step_gated : (match (taken (program.modHart fun k => { k with q := { k.q with vq := [queued 0x6202040018000000 0x2000 k], nextSeq := 1 } })).fetch32 0x1000 with
      | .ok (_, t) => (t.gate (.add 16 8 0)).isSome
      | .error _ => false) = true := by decide +kernel
theorem witness_step_fetch_fails : (taken (program.modHart fun k => { k with ptroot := 0 })).hart.mayIssue = true
    ∧ ((taken (program.modHart fun k => { k with ptroot := 0 })).fetch32 0x1000).toOption = none := by decide +kernel
theorem witness_step_waits : (taken (program.modHart fun k => { k with wait := .hexit })).hart.mayIssue = false := by decide +kernel
theorem witness_step_event : isEvent (.preempt 0 0) = true ∧ isEvent (.add 1 2 3) = false := by decide
theorem witness_step_free : (two 1 2).agenda = [] ∧ (two 1 2).turns ≠ [] ∧ State.reset.agenda = [] := by decide +kernel

-- FetchReadsMemory
theorem witness_fetch : spaceOf 0x1000 = some .translated
    ∧ (match program.walkStage 0 program.hart .fetch 0x1000 with
      | .ok (l, t) => !program.permFails program.hart .fetch 4 l t && program.core.icache.isEmpty && !program.marked (.mem t.pa)
          && !program.hasError (.mem t.pa)
      | .error _ => false) = true := by decide +kernel
/-- The same with the word in the instruction cache. -/
def cachedWord : State := program.modCore fun y => { y with icache := [(0x1000, 0x02030000)] }
theorem witness_fetch_cached : (match cachedWord.walkStage 0 cachedWord.hart .fetch 0x1000 with
      | .ok (_, t) => (cachedWord.core.icache.find? fun p => p.1 == t.pa).isSome
      | .error _ => false) = true := by decide +kernel

-- StepKeepsMemoryCanonical, StepKeepsLegalShapes
theorem witness_mem_step : program.memOk ∧ ∃ t, step program = .next t :=
  ⟨by unfold State.memOk; decide +kernel, _, next_of_answers (by decide +kernel)⟩
/-- A machine with a checked descriptor at the head of tenancy 0's queue: H 1, NREG 32, one core. -/
def launching : State := program.modTenAt 0 fun x => { x with
  lq := [{ words := Vector.ofFn fun (i : Fin 16) => if i = 1 then 0x0000000100002001 else if i = 3 then 0x10000 else if i = 5 then 0x30000 else 0, src := 0 }]
  checked := true }
theorem witness_shapes_step : launching.shapesOk ∧ ∃ t, step launching = .next t := by
  refine ⟨⟨?_, ?_⟩, _, next_of_answers (by decide +kernel)⟩
  · intro p hp q hq
    simp only [launching, program, State.modTenAt, Put, two, machine, List.mem_singleton] at hp
    subst hp
    simp only [List.mem_singleton] at hq
    subst hq
    exact ⟨by decide, by decide⟩
  · intro p hp _
    simp only [launching, program, State.modTenAt, State.tenAt, Put, two, machine, mset, mget, if_true, Nat.lt_irrefl, if_false, List.mem_singleton] at hp
    subst hp
    exact ⟨_, [], rfl, by decide, by decide⟩

-- the round trips
theorem witness_scalar_word : (Instr.csrw 0 7 0x05A).wellFormed = true ∧ encode32 (.csrw 0 7 0x05A) = some 0x880705A1 := by decide
theorem witness_vector_word : encode64 (.vcvt plain 4 1 6) = some 0x2201020018000000 := by decide
theorem witness_decoded_word : (decode32 0x880705A1).toOption = some (.csrw 0 7 0x05A) := by decide

-- DivisionNeverTraps
theorem witness_division : (two 7 0).rd 4 = 0 ∧ (two 0x8000000000000000 0xFFFFFFFFFFFFFFFF).rd 3 = BitVec.ofInt 64 (-2 ^ 63)
    ∧ (two 0x8000000000000000 0xFFFFFFFFFFFFFFFF).rd 4 = BitVec.allOnes 64
    ∧ (two 0x8000000000000000 1).rd 4 ≠ 0 ∧ ¬ ((two 0x8000000000000000 1).rd 3 = BitVec.ofInt 64 (-2 ^ 63) ∧ (two 0x8000000000000000 1).rd 4 = BitVec.allOnes 64) := by
  decide

-- BranchesAndJumps
theorem witness_jalr : (BitVec.ofInt 64 (((two 0x2000 0).rd 3).toInt + (4 : BitVec 16).toInt)).toNat % 4 = 0
    ∧ (BitVec.ofInt 64 (((two 0x2000 0).rd 3).toInt + (1 : BitVec 16).toInt)).toNat % 4 ≠ 0 := by decide

-- TrapReturn
/-- A hart at system level with its saved PC. -/
def handler (sepc : Word) (vp : Bool) : State :=
  machine { bare with trap := { bare.trap with system := true, sepc := sepc }, vec := { bare.vec with vp := vp } }
theorem witness_trap_return : (handler 0x2000 true).Quiet ∧ (handler 0x2000 true).hart.trap.system = true ∧ (handler 0x2000 true).hart.halted = false
    ∧ (handler 0x2000 true).hart.trap.sepc.toNat % 4 = 0 ∧ (handler 0x2000 false).hart.vec.vp = false ∧ (handler 0x2000 true).hart.vec.vs ≠ 0 :=
  ⟨⟨by decide, by decide⟩, by decide⟩
theorem witness_trap_return_refused : (two 1 2).Quiet ∧ (two 1 2).Calm ∧ (two 1 2).hart.trap.system = false
    ∧ (handler 0x2000 true).Calm ∧ (handler 0x2000 true).hart.vec.vp = true :=
  ⟨witness_quiet, witness_calm, by decide, ⟨by decide, by decide, by decide, by decide⟩, by decide⟩
theorem witness_trap_return_misaligned : (handler 0x2002 false).Calm ∧ (handler 0x2002 false).hart.trap.system = true
    ∧ (handler 0x2002 false).hart.trap.sepc.toNat % 4 ≠ 0 ∧ (handler 0x2002 false).hart.vec.vp = false :=
  ⟨⟨by decide, by decide, by decide, by decide⟩, by decide⟩

-- LoadsComplete, LoadDataArrives
/-- The checked place of eight bytes at 0x2000. -/
def part2000 : Part := { va := 0x2000, loc := .mem 0x2000, tr := some { pa := 0x2000, dev := 0, cls := 0, sf := 0, srm := 0, leaf := 0x10000, d := true } }
theorem witness_load : data.Quiet ∧ data.hart.sbuf = [] ∧ data.Sound part2000 ∧ data.checkScalar .load 8 0x2000 = .ok part2000
    ∧ data.checkScalar .load 4 0x2000 = .ok part2000 ∧ data.checkScalar .load 1 0x2000 = .ok part2000 :=
  ⟨⟨by decide, by decide⟩, by decide, ⟨by decide, by decide, by decide⟩, by decide +kernel, by decide +kernel, by decide +kernel⟩
/-- A hart that waits for data. -/
def waiting (l : Loc) (s : State) : State := s.modHart fun k => { k with wait := .load { d := 5, n := 8, signed := false, ea := 0x2000, loc := l } }
theorem witness_load_data : (waiting (.mem 0x2000) data).Quiet ∧ (waiting (.mem 0x2000) data).Calm
    ∧ (waiting (.mem 0x2000) data).forwarded.marked (.mem 0x2000) = false ∧ (waiting (.mem 0x2000) data).forwarded.hasError (.mem 0x2000) = false
    ∧ (waiting (.mem 0x2000) { data with marks := [32] }).forwarded.marked (.mem 0x2000) = true
    ∧ (waiting (.mem 0x2000) { data with latent := [32] }).forwarded.marked (.mem 0x2000) = false
    ∧ (waiting (.mem 0x2000) { data with latent := [32] }).forwarded.hasError (.mem 0x2000) = true
    ∧ (∀ b ∈ (waiting (.mem 0x2000) data).hart.sbuf, b.loc.isReg = false)
    ∧ (waiting (.reg 0 0x88) data).hart.wait = .load { d := 5, n := 8, signed := false, ea := 0x2000, loc := .reg 0 0x88 } :=
  ⟨⟨by decide, by decide⟩, ⟨by decide, by decide, by decide, by decide⟩, by decide, by decide, by decide, by decide, by decide, by decide, by decide⟩

-- StoresEnterTheBuffer, BufferedStorePerforms
/-- A store that waits in the buffer. -/
def sbuf1 (l : Loc) : SBuf := { loc := l, cls := 0, n := 8, data := 7, step := 0 }
theorem witness_store : data.checkScalar .put 8 0x2000 = .ok part2000 ∧ data.checkScalar .put 1 0x2000 = .ok part2000 ∧ data.hart.sbuf.length < 16
    ∧ 16 ≤ (data.modHart fun k => { k with sbuf := List.replicate 16 (sbuf1 (.mem 0x2000)) }).hart.sbuf.length :=
  ⟨by decide +kernel, by decide +kernel, by decide, by decide⟩
theorem witness_buffered : (data.modHart fun k => { k with sbuf := [sbuf1 (.mem 0x20FC)] }).NoSnapshot
    ∧ (data.modHart fun k => { k with sbuf := [sbuf1 (.mem 0x20FC)] }).hart.sbuf = sbuf1 (.mem 0x20FC) :: []
    ∧ (∀ l ∈ data.latent, l ≠ lineOf 0x20FC ∧ l ≠ lineOf 0x20FC + 1)
    ∧ (data.modHart fun k => { k with sbuf := [sbuf1 (.lm 0 0)] }).hart.sbuf = sbuf1 (.lm 0 0) :: []
    ∧ (∀ w ∈ (data.coreAt 0).lmLatent, w ≠ lmIndex 0 ∧ w ≠ lmIndex 0 + 1) := by
  unfold State.NoSnapshot
  decide

-- ScalarAccessFaults, ScalarAtomics
theorem witness_faults : data.Calm ∧ (data.rd 3 + (2 : BitVec 16).signExtend 64).toNat % 8 ≠ 0
    ∧ (data.wr 3 0x1000000000000).checkScalar .load 8 0x1000000000000 = .error (0x12, 0x1000000000000)
    ∧ (data.wr 3 0xF100000000200000).checkScalar .put 1 0xF100000000200000 = .error (0x12, 0xF100000000200000)
    ∧ (data.wr 3 0x800000000).checkScalar .amo 8 0x800000000 = .error (0x11, 0x800000000) :=
  ⟨⟨by decide, by decide, by decide, by decide⟩, by decide, by decide +kernel, by decide +kernel, by decide +kernel⟩
theorem witness_amo : data.checkScalar .amo 8 (data.rd 3) = .ok part2000 ∧ data.hart.amoWaits true part2000.loc 8 = false
    ∧ data.marked part2000.loc = false ∧ data.hasError part2000.loc = false ∧ data.checkScalar .amo 4 (data.rd 3) = .ok part2000 :=
  ⟨by decide +kernel, by decide, by decide, by decide, by decide +kernel⟩

-- FencesCompleteOrWait
/-- A hart with a VLD in its queue. -/
def loadQueued (vs : BitVec 2) : State :=
  machine { bare with vec := { bare.vec with vs := vs }, q := { bare.q with vq := [queued 0x5000400000600000 0x2000 bare], nextSeq := 1 } }
theorem witness_fence : (two 1 2).fenceBusy true true true = false ∧ (loadQueued 1).fenceBusy false true false = true
    ∧ (loadQueued 1).vectorBusy false = true ∧ (loadQueued 1).hart.vec.vs ≠ 0 ∧ (loadQueued 0).vectorBusy false = true ∧ (loadQueued 0).hart.vec.vs = 0
    ∧ (data.modHart fun k => { k with sbuf := [sbuf1 (.mem 0x2000)], wait := .fence true false false }).fenceBusy true false false = true
    ∧ (data.modHart fun k => { k with wait := .fence true false false }).fenceBusy true false false = false := by
  decide +kernel
theorem witness_fence_quiet : (loadQueued 1).Quiet ∧ (loadQueued 0).Calm := ⟨⟨by decide, by decide⟩, by decide, by decide, by decide, by decide⟩

-- BlocksAreCapturedAndPlaced
theorem witness_block : (match block.scan 0x1010 256 0x1010 [] with
      | .ok (ws, _) => ws.all fun w => (wordSources w).all fun r => !block.hart.pending r
      | .error _ => false) = true
    ∧ (block.hart.pc &&& ~~~7) + BitVec.ofInt 64 (8 * (2 : BitVec 21).toInt) = 0x1010 ∧ (0x1010 : Word).toNat % 8 = 0 ∧ block.hart.vec.vs ≠ 0
    ∧ block.hart.trap.system = false ∧ ((0x1004 : Word) + BitVec.ofInt 64 (1 : BitVec 16).toInt).toNat % 8 ≠ 0 := by
  decide +kernel
/-- A VMUL and a CZERO still to be placed. -/
def placing (n : Nat) : State :=
  let x := queued 0x1200C22000000000 0x2000 bare
  machine { bare with wait := .placing [x, queued 0x7100000000000000 0x2008 bare], q := { bare.q with vq := List.replicate n x } }
theorem witness_placing : (placing 0).Quiet ∧ (placing 63).hart.q.vq.length < 64 ∧ ¬ (placing 64).hart.q.vq.length < 64
    ∧ (placing 0).hart.wait = .placing (queued 0x1200C22000000000 0x2000 bare :: [queued 0x7100000000000000 0x2008 bare]) :=
  ⟨⟨by decide, by decide⟩, by decide +kernel, by decide +kernel, by decide +kernel⟩

-- LengthGranted, CsrReadAndWrite, CsrAccessByLevel
theorem witness_vtype : (4 : Word).toNat < 32 ∧ (4 : Word).toNat % 8 ≤ 4 ∧ 32 ≤ (32 : Word).toNat ∧ 4 < (5 : Word).toNat % 8 ∧ (two 1 2).Quiet :=
  ⟨by decide, by decide, by decide, by decide, witness_quiet⟩
theorem witness_csr : csrKept (0x020 : BitVec 12).toNat = some 0xFFFFFFFF ∧ csrWaits 0x102 = false ∧ (two 1 2).hart.liveWords = []
    ∧ csrReads false 0x020 = true ∧ csrWrites false 0x020 = true ∧ csrReads true 0x108 = true ∧ csrWrites true 0x108 = true ∧ csrReads false 0x108 = false
    ∧ csrWrites true 0x013 = false := by decide

-- CachesAndTranslations
theorem witness_caches : (two 0x2000 256).hart.queued = false ∧ (two 0x2000 256).hart.sbuf = [] ∧ (handler 0x2000 false).hart.trap.system = true
    ∧ (∀ p ∈ (handler 0x2000 false).cores, mmuScope .M 0 p.1 = true → (handler 0x2000 false).accessing p.1 (handler 0x2000 false).hart.place.ten = false) ∧ (two 0x2000 256).hart.trap.system = false
    ∧ (two 0x2000 0).rd 4 = 0 ∧ 2 ^ 32 < ((two 0x2000 0x100000001).rd 4).toNat
    ∧ (two 0x2000 256).rd 4 ≠ 0 ∧ ((two 0x2000 256).rd 4).toNat ≤ 65536 - ((two 0x2000 256).rd 3).toNat % 65536
    ∧ (two 0x2000 256).hart.pieceOutside 0x2000 256 = none := by decide
theorem witness_cache_parts : (two 0x2000 256).checkParts 0 (two 0x2000 256).hart .load 8 [(0x2000, 256)] = .ok (part2000 :: [])
    ∧ (two 0x2000 256).checkParts 0 (two 0x2000 256).hart .put 8 [(0x2000, 256)] = .ok (part2000 :: []) ∧ part2000.loc = .mem 0x2000 :=
  ⟨by decide +kernel, by decide +kernel, by decide⟩

-- QueuesSavedAndLoaded
/-- A handler with a VMUL stopped in the queue and s3 a place for the image. -/
def saving : State := (handler 0x2000 true).modHart fun k => { Regs [(3, 0x2000), (4, 1)] k with
  q := { k.q with vq := [{ queued 0x1200C22000000000 0x3000 k with pre := true }] } }
theorem witness_vqsave : saving.Quiet ∧ saving.hart.sbuf = [] ∧ saving.hart.trap.system = true ∧ (saving.rd 3).toNat % 32 = 0 ∧ saving.hart.q.flight = none
    ∧ saving.hart.q.stall = .none ∧ saving.hart.image ≠ []
    ∧ (saving.checkPieces .put (unitPieces 3 (saving.rd 3) (8 * saving.hart.image.length))).toOption.isSome = true ∧ (saving.wr 3 0x2008).rd 3 = 0x2008 :=
  ⟨⟨by decide, by decide⟩, by decide, by decide, by decide, by decide, by decide, by decide, by decide +kernel, by decide⟩
/-- A handler with empty queues and, at 0x2000, the image that VQSAVE makes of one VNOP: an entry of a configuration and one of the word. -/
def loading : State := (after (exec (.vqsave 5 3) saving)).wr 4 ((after (exec (.vqsave 5 3) saving)).rd 5)
theorem witness_vqload : loading.hart.queued = false ∧ (loading.rd 4).toNat ≤ 288 ∧ 0 < (loading.rd 4).toNat ∧ (loading.rd 3).toNat % 32 = 0
    ∧ (match loading.readWords (4 * (loading.rd 4).toNat) (loading.rd 3) with
      | .ok ws => match parseImage (byFours (loading.rd 4).toNat ws) 0 none 0 0 with
        | .ok xs => decide (xs.length = 1)
        | .error _ => false
      | .error _ => false) = true := by decide +kernel

-- ExitAndBarrier, DeclareAndStep, FarmsShareWork
theorem witness_exit : (two 1 2).hart.queued = false ∧ (two 1 2).memoryQueued = false ∧ (machine { bare with wait := .hexit }).hart.place.placed = true
    ∧ (machine { bare with wait := .hexit }).Quiet ∧ (machine { bare with wait := .hexit }).hart.queued = false :=
  ⟨by decide, by decide, by decide, ⟨by decide, by decide⟩, by decide⟩
/-- Two harts of the launch on the core. -/
def pair (w : SWait) : State := (machine { bare with wait := .hbar }).modCore fun y => { y with harts := y.harts ++ [(1, { bare with wait := w })] }
theorem witness_barrier : (pair .hbar).core.barrierFull 1 = true ∧ (pair .none).core.barrierFull 1 = false ∧ (pair .hbar).hart.place.placed = true
    ∧ (pair .hbar).mgr.traced = none ∧ (∀ p ∈ (pair .hbar).core.harts, p.2.dbgStep = false) ∧ ((pair .hbar).core.harts.map Prod.fst).Nodup := by decide
theorem witness_declare : (two 8 0).rd 3 = 8 ∧ (two 8 0).hart.vec.vs ≠ 0 ∧ (two 8 0).hart.queued = false
    ∧ (machine { bare with vec := { bare.vec with vs := 0 } }).hart.vec.vs = 0
    ∧ (0x1F02FFFF : Nat) < 2 ^ 29 ∧ 0x1F02FFFF / 2 ^ 16 % 256 ≤ 2 ∧ ¬ (0x20000000 < 2 ^ 29) ∧ (0x1000000 % 256 = 0 ∧ 0x1000000 ≤ 2 ^ 24) := by decide
/-- A machine whose launch has a farm of two, one index left, opened by the hart. -/
def farming (n : Nat) (x : Word) : State := { two x 0 with launches := [{ launch1 with farms := [(2, n)] }] } |>.modHart fun k => { k with farms := 1 }
theorem witness_farm : (farming 1 0).hart.farms < 16 ∧ ((farming 1 0).rd 3).toNat < min (farming 1 0).hart.farms 16
    ∧ (farming 1 0).launchOf 1 = some { launch1 with farms := [(2, 1)] } ∧ (farming 2 0).launchOf 1 = some { launch1 with farms := [(2, 2)] }
    ∧ min (farming 1 1).hart.farms 16 ≤ ((farming 1 1).rd 3).toNat ∧ 16 ≤ ((two 0 0).modHart fun k => { k with farms := 16 }).hart.farms := by decide

/-- The conditions of a word on vector groups, together. -/
theorem runs_of {k : Hart} {x : Entry} {pm : Option (BitVec 3)} {ds ss : List Grp} {read : Nat → List Grp}
    (h : k.vec.vs ≠ 0 ∧ (k.cfg.nreg = 8 ∨ k.cfg.nreg = 16 ∨ k.cfg.nreg = 32) ∧ (k.place.h = 1 ∨ k.place.h = 2 ∨ k.place.h = 4 ∨ k.place.h = 8)
      ∧ x.ill = false ∧ descrReserved x.fval = false ∧ (∀ g ∈ ds ++ ss, g.bad05 k x.cfg = false ∧ g.bad06 k x.cfg = false)
      ∧ (∀ e < x.vl, ∀ g ∈ read e, k.elemMarked x.cfg g.base g.w e = false) ∧ ∀ e < x.vl, ∀ r ∈ pmReads pm, k.maskMarked r (e / 64) = false) :
    Runs k x pm ds ss read :=
  ⟨h.1, ⟨h.2.1, h.2.2.1⟩, h.2.2.2.1, h.2.2.2.2.1, h.2.2.2.2.2.1, h.2.2.2.2.2.2.1, h.2.2.2.2.2.2.2⟩

/-- The predicate m2. -/
def under2 : VHdr := { c := false, pm := some 2 }
/-- A captured word of a machine with the descriptor in s6. -/
def capt (s : State) : Entry := s.capture 7 6

-- ValueClassResults: two and three operands, a scalar operand, a predicate, VINDEX, VCLAMP, VSEL
/-- VADD v4, v1, v2; VFMA with v3 as well; VCLAMP between v3 and v2. -/
theorem witness_value_class : let s := three 0
    let x := capt s
    let ss := opndGrps x.vl [.vec 1 x.fmt.fa, .vec 2 x.fmt.fb, .vec 3 x.fmt.fc]
    Runs s.hart x none [x.grp 4 x.fmt.fd] ss (s.reads none ss) ∧ x.fmt.scl = 0 ∧ isValue x.fmt.fd = true ∧ isValue x.fmt.fa = true
      ∧ overlap137 s.hart x.cfg [x.grp 4 x.fmt.fd] ss = false :=
  ⟨runs_of (by decide +kernel), by decide +kernel⟩
/-- VADD v1, v1, s7 under m2: the destination coincides with a source. -/
theorem witness_value_class_in_place : let s := (three 0).modHart (Bits 2 [false, true])
    let x := capt s
    let ss := opndGrps x.vl [.vec 1 x.fmt.fa, bOpnd (.scal 7) x x.fmt.fb]
    Runs s.hart x (some 2) [x.grp 1 x.fmt.fd] ss (s.reads (some 2) ss) ∧ overlap137 s.hart x.cfg [x.grp 1 x.fmt.fd] ss = false :=
  ⟨runs_of (by decide +kernel), by decide +kernel⟩
theorem witness_vindex : let s := three 0
    Runs s.hart (capt s) none [(capt s).grp 4 0] (opndGrps 2 []) (s.reads none []) :=
  runs_of (by decide +kernel)
theorem witness_vsel : let s := (three 0).modHart (Bits 2 [false, true])
    let x := capt s
    let pick := fun e => if s.hart.maskBit 2 e then Opnd.vec 1 0 else Opnd.vec 2 0
    Runs s.hart x none [x.grp 4 0] (opndGrps x.vl [.vec 1 0, .vec 2 0]) (fun e => s.reads none (opndGrps x.vl [pick e]) e)
      ∧ (∀ e < x.vl, s.hart.active none e = true → s.hart.maskMarked 2 (e / 64) = false) ∧ overlap137 s.hart x.cfg [x.grp 4 0] (opndGrps x.vl [.vec 1 0, .vec 2 0]) = false :=
  ⟨runs_of (by decide +kernel), by decide +kernel⟩

-- FunctionAndConversionResults: FP32 throughout, and BF16 widened (0x63)
theorem witness_functions : let s := three 0
    let x := s.capture 0 6
    let ss := [x.grp 1 x.fmt.fa]
    Runs s.hart x none [x.grp 4 x.fmt.fd] ss (s.reads none ss) ∧ x.fmt.scl = 0 ∧ overlap137 s.hart x.cfg [x.grp 4 x.fmt.fd] ss = false ∧ x.fmt.fa ≤ 3 ∧ x.fmt.fd ≤ 3 :=
  ⟨runs_of (by decide +kernel), by decide +kernel⟩
theorem witness_conversion : let s := three 0x63
    let x := s.capture 0 6
    let ss := [x.grp 1 x.fmt.fa]
    Runs s.hart x none [x.grp 4 x.fmt.fd] ss (s.reads none ss) ∧ x.fmt.fa = 3 ∧ overlap137 s.hart x.cfg [x.grp 4 x.fmt.fd] ss = false :=
  ⟨runs_of (by decide +kernel), by decide +kernel⟩

-- RoundedElementsLand
theorem witness_legal : (three 0).hart.legal ∧ (three 0).hart.cfg.nreg = 32 ∧ (descr 0).rm ≠ 5 := ⟨⟨by decide, by decide⟩, by decide, by decide⟩

-- RawAndShiftResults: FP32 patterns, and INT32 shifts (0x9CE73)
theorem witness_raw : let s := three 0
    let x := capt s
    let ss := opndGrps x.vl [.vec 1 x.fmt.fa, bOpnd (.scal 7) x x.fmt.fb]
    Runs s.hart x none [x.grp 4 x.fmt.fd] ss (s.reads none ss) ∧ x.fmt.scl = 0 ∧ overlap137 s.hart x.cfg [x.grp 4 x.fmt.fd] ss = false
      ∧ contWidth x.fmt.fa = contWidth x.fmt.fd ∧ contWidth x.fmt.fb = contWidth x.fmt.fd :=
  ⟨runs_of (by decide +kernel), by decide +kernel⟩
theorem witness_shift : let s := three 0x9CE73
    let x := capt s
    let ss := opndGrps x.vl [.vec 1 x.fmt.fa, bOpnd (.scal 7) x x.fmt.fb]
    Runs s.hart x none [x.grp 4 x.fmt.fd] ss (s.reads none ss) ∧ x.fmt.scl = 0 ∧ isInt x.fmt.fa = true ∧ isInt x.fmt.fb = true ∧ isInt x.fmt.fd = true
      ∧ memWidth x.fmt.fd = memWidth x.fmt.fa ∧ overlap137 s.hart x.cfg [x.grp 4 x.fmt.fd] ss = false :=
  ⟨runs_of (by decide +kernel), by decide +kernel⟩

-- MaskLogicResults, MaskCounts, CompareResults
theorem witness_masks : MaskRuns masks.hart (some 2) [1, 2] ∧ masks.hart.isBound 3 = false :=
  ⟨⟨by decide, by decide, by decide, by decide, by decide⟩, by decide⟩
theorem witness_counts : (∀ i < 1, (masks.hart.active (some 2) i && masks.hart.maskBit 4 i) = false)
    ∧ (masks.hart.active (some 2) 0 && masks.hart.maskBit 1 0) = true ∧ ∀ e < masks.hart.cfg.vl.toNat, (masks.hart.active none e && masks.hart.maskBit 4 e) = false := by
  decide
theorem witness_compare : let s := three 0
    let x := capt s
    let ss := opndGrps x.vl [.vec 1 x.fmt.fa, .vec 2 x.fmt.fb]
    Runs s.hart x none [] ss (s.reads none ss) ∧ x.fmt.scl = 0 ∧ isValue x.fmt.fa = true ∧ isValue x.fmt.fb = true ∧ s.hart.isBound 2 = false :=
  ⟨runs_of (by decide +kernel), by decide +kernel⟩

-- ReductionResults: with and without an initial value
theorem witness_reduction : let s := sums 5
    let x := s.capture 7 0
    let ss := [x.grp 1 x.fmt.fa]
    Runs s.hart x none [] ss (s.reads none ss) ∧ x.fmt.scl = 0 ∧ x.fmt.rm ≠ 5 ∧ isValue x.fmt.fa = true ∧ isValue x.fmt.fd = true ∧ isValue x.fmt.fb = true
      ∧ contWidth x.fmt.fa = contWidth x.fmt.fd ∧ contWidth x.fmt.fb = contWidth x.fmt.fd :=
  ⟨runs_of (by decide +kernel), by decide +kernel⟩

-- QuantizationResults: one block of eight elements to E4M3 and back (VTYPE 0x0C, descriptors 0x20000 and 0x1000004)
/-- Eight elements under VTYPE with EW 4 and BLK 8. -/
def quant (f : Word) : State := machine { Elems 1 [0x3F800000, 0x40000000] (Regs [(6, f)] (Len 8 bare)) with cfg := { (Len 8 bare).cfg with vtype := 0x0C } }
theorem witness_vqnt : let s := quant 0x20000
    let x := s.capture 0 6
    let bl := 8 <<< (x.cfg.vtype.toNat / 8 % 4)
    let sg : Grp := { base := 8, n := x.vl / bl, w := 8 }
    x.cfg.vtype.toNat / 8 % 4 ≠ 0 ∧ Runs s.hart x none [x.grp 4 x.fmt.fd, sg] [x.grp 1 x.fmt.fa] (s.reads none [x.grp 1 x.fmt.fa]) ∧ x.fmt.scl = 0 ∧ x.fmt.fa = 0
      ∧ isQuant x.fmt.fd = true ∧ overlapAny s.hart x.cfg [x.grp 4 x.fmt.fd, sg] [x.grp 1 x.fmt.fa] = false
      ∧ overlapAny s.hart x.cfg [x.grp 4 x.fmt.fd] [sg] = false :=
  ⟨by decide +kernel, runs_of (by decide +kernel), by decide +kernel⟩
theorem witness_vdqnt : let s := quant 0x1000004
    let x := s.capture 0 6
    let bl := 8 <<< (x.cfg.vtype.toNat / 8 % 4)
    let sg : Grp := { base := 8, n := x.vl / bl, w := 8 }
    Runs s.hart x none [x.grp 4 x.fmt.fd] [x.grp 1 x.fmt.fa, sg] (s.reads none [x.grp 1 x.fmt.fa]) ∧ x.fmt.scl = 1 ∧ isQuant x.fmt.fa = true ∧ isFunc x.fmt.fd = true
      ∧ (∀ e < x.vl, s.hart.active none e = true → s.hart.elemMarked x.cfg 8 8 (e / bl) = false)
      ∧ overlapAny s.hart x.cfg [x.grp 4 x.fmt.fd] [x.grp 1 x.fmt.fa, sg] = false :=
  ⟨runs_of (by decide +kernel), by decide +kernel⟩

-- RearrangementResults: moves by index, packing, a shape of 8 by 8 with panels of 8, and blocks of 8 by 8
theorem witness_moves : let s := moves
    let x := s.capture 3 6
    Runs s.hart x none [x.grp 4 x.fmt.fa] [x.grp 1 x.fmt.fa] (fun _ => []) ∧ Runs s.hart x (some 1) [x.grp 4 x.fmt.fa] [x.grp 1 x.fmt.fa] (fun _ => [])
      ∧ Runs s.hart x none [x.grp 4 x.fmt.fa] [x.grp 1 x.fmt.fa, x.grp 2 x.fmt.fb] (s.reads none [x.grp 2 x.fmt.fb])
      ∧ x.fmt.scl = 0 ∧ contWidth x.fmt.fd = contWidth x.fmt.fa ∧ overlapAny s.hart x.cfg [x.grp 4 x.fmt.fa] [x.grp 1 x.fmt.fa, x.grp 2 x.fmt.fb] = false
      ∧ isInt x.fmt.fb = true ∧ (∀ e < x.vl, s.hart.elemMarked x.cfg 1 32 e = false) :=
  ⟨runs_of (by decide +kernel), runs_of (by decide +kernel), runs_of (by decide +kernel), by decide +kernel⟩
/-- Sixty-four elements and the shape Rw 8, Cl 8, PW 0 in s3. -/
def shaped : State := machine (Regs [(3, 0x0000000000080008)] (Len 64 bare))
theorem witness_reshape : let s := shaped
    let x := s.capture 3 0
    (∃ sh, shapeOf x.sval = some sh ∧ sh.rw * sh.cl = x.vl ∧ sh.cl % sh.p = 0 ∧ sh.rw % sh.p = 0)
      ∧ Runs s.hart x none [x.grp 4 x.fmt.fa] [x.grp 1 x.fmt.fa] (fun _ => []) :=
  ⟨⟨_, rfl, by decide +kernel⟩, runs_of (by decide +kernel)⟩
theorem witness_transpose : let s := shaped
    let y := s.capture 0 0
    Runs s.hart y none [eightRegs s.hart y 8] [eightRegs s.hart y 16] (fun _ => []) ∧ overlapAny s.hart y.cfg [eightRegs s.hart y 8] [eightRegs s.hart y 16] = false
      ∧ y.vl ≤ perReg s.hart y.cfg 32 :=
  ⟨runs_of (by decide +kernel), by decide +kernel⟩

-- VectorLoadResults: unit, strided and indexed forms, VLDFF whose second element has no page, and VLD.K under a bound mask
/-- Every element of a word that is active is located, in sound memory. -/
def allPass (s : State) (fm : AForm) (x : Entry) (act : Hart → Nat → Bool) : Bool :=
  (List.range x.vl).all fun e => !act s.hart e || match locate fm .vload x.sval act x e s with
    | .ok l => l.ps.all fun p => !p.1.loc.isReg && !s.marked p.1.loc && !s.hasError p.1.loc
    | .error _ => false
theorem witness_loads : let s := mem4
    let x := s.capture 3 6
    Runs s.hart x none [x.grp 4 x.fmt.fa] (AForm.unit.grps x) (fun _ => []) ∧ Runs s.hart x none [x.grp 4 x.fmt.fa] ((AForm.indexed 2).grps x) (fun _ => [])
      ∧ x.fmt.scl = 0 ∧ 8 ≤ memWidth x.fmt.fa ∧ isInt x.fmt.fb = true ∧ overlapAny s.hart x.cfg [x.grp 4 x.fmt.fa] ((AForm.indexed 2).grps x) = false
      ∧ allPass s .unit x (fun u e => u.active none e) = true ∧ allPass s (.strided 4) x (fun u e => u.active none e) = true
      ∧ allPass s (.indexed 2) x (fun u e => u.active none e) = true :=
  ⟨runs_of (by decide +kernel), runs_of (by decide +kernel), by decide +kernel⟩
theorem witness_vldff : let s := machine (Regs [(3, 0x7FFFFFFFC)] (Len 2 bare))
    let x := s.capture 3 0
    let act := fun (u : Hart) e => u.active none e
    Runs s.hart x none [x.grp 4 x.fmt.fa] [] (fun _ => []) ∧ s.hart.isBound 3 = false
      ∧ (match locate .unit .vload x.sval act x 0 s with
        | .ok l => l.ps.all fun p => !p.1.loc.isReg && !s.marked p.1.loc && !s.hasError p.1.loc
        | .error _ => false) = true
      ∧ (locate .unit .vload x.sval act x 1 s).toOption = none ∧ s.hart.active none 1 = true :=
  ⟨runs_of (by decide +kernel), by decide +kernel⟩
theorem witness_vldff_whole : allPass mem4 .unit (mem4.capture 3 0) (fun u e => u.active none e) = true ∧ (mem4.capture 3 0).vl = 4 := by decide +kernel
/-- The two chunks of a copy of 512 bytes to 0x2000 under m3: the first has landed. -/
def bound : State := mem4.modHart fun k => Bits 3 [true, false] { k with store := { k.store with binds := [(3, { dest := 0x2000, len := 512, csz := 8, nc := 2, bound := true })] } }
theorem witness_vld_k : let s := bound
    let x := s.capture 3 0
    let r : BindRec := { dest := 0x2000, len := 512, csz := 8, nc := 2, bound := true }
    s.hart.record 3 = some r ∧ Runs s.hart x (some 3) [x.grp 4 x.fmt.fa] [] (fun _ => [])
      ∧ allPass s .unit x (fun u e => kActive .unit x.sval r 3 32 x u e) = true ∧ kActive .unit x.sval r 3 32 x s.hart 0 = true :=
  ⟨by decide +kernel, runs_of (by decide +kernel), by decide +kernel⟩

-- VectorStoresRunInOrder, StoredElementBytes
theorem witness_stores : let s := mem2
    let x := s.capture 3 6
    Runs s.hart x (some 1) [] (x.grp 1 x.fmt.fa :: (AForm.indexed 2).grps x) (fun _ => []) ∧ x.fmt.scl = 0 ∧ 8 ≤ memWidth x.fmt.fa ∧ isInt x.fmt.fb = true
      ∧ answers (.next (afterElems (fun e u => if u.hart.active (some 1) e then storeElem .unit { lo := 0, hi := x.vl, anyOrder := false, full := [] } x.sval (fun u e => u.active (some 1) e) 1 x e u else .ok u) s 3)) = true
      ∧ (storeElem .unit { lo := 0, hi := x.vl, anyOrder := false, full := [] } x.sval (fun u e => u.active (some 1) e) 1 x 2 s).toOption.isSome = true :=
  ⟨runs_of (by decide +kernel), by decide +kernel⟩
theorem witness_stored_element : mem4.NoSnapshot ∧ mem4.NoErrors
    ∧ (locate .unit .vput 0x2000 (fun u e => u.active none e) (mem4.capture 3 6) 0 mem4).toOption.isSome = true
    ∧ mem4.hart.elemMarked (mem4.capture 3 6).cfg 1 32 0 = false
    ∧ ((mem4.modHart fun k => { k with store := { k.store with poison := [chunkIndex k k.cfg 1 0] } }).hart.elemMarked mem4.hart.cfg 1 32 0) = true
    ∧ (mem4.parts .vput 0x2000 8).toOption.isSome = true ∧ (WReg.reg 1).marked mem4.hart mem4.hart.cfg 0 = false := by
  refine ⟨by unfold State.NoSnapshot; decide, noErrors_of rfl rfl rfl, ?_⟩
  decide +kernel

-- WholeRegisterTransfers: a mask of a hart of eight, 2,048 chunks; a register's chunks in one page
/-- A hart of eight on its core. -/
def eighth : State := machine { Regs [(3, 0x20000)] bare with place := { bare.place with h := 8 } }
theorem witness_whole : eighth.hart.vec.vs ≠ 0 ∧ eighth.hart.legal ∧ (eighth.capture 3 0).ill = false ∧ (0x20000 : Word).toNat % 8 = 0
    ∧ (31 : BitVec 5).toNat < (eighth.capture 3 0).cfg.nreg.toNat ∧ eighth.hart.isBound 7 = false
    ∧ (eighth.parts .vload 0x20000 8).toOption.isSome = true ∧ (WReg.mask 7).count eighth.hart eighth.hart.cfg = 2048 :=
  ⟨by decide, ⟨by decide, by decide⟩, by decide, by decide, by decide, by decide, by decide +kernel, by decide +kernel⟩

-- VectorAtomicsRunInOrder: integers under 0x273 and FP32 under 0x260
theorem witness_vamo : let s := mem2.wr 6 0x273
    let x := s.capture 3 6
    let g := fun (r : BitVec 5) => ({ base := r.toNat, n := x.vl, w := 32 } : Grp)
    Runs s.hart x (some 1) [g 4] [g 1, x.grp 2 x.fmt.fb, g 5] (fun _ => []) ∧ x.fmt.scl = 0 ∧ x.fmt.rm ≠ 5 ∧ isInt x.fmt.fb = true ∧ x.fmt.fa = 0x13
      ∧ overlapAny s.hart x.cfg [g 4] [g 1, x.grp 2 x.fmt.fb, g 5] = false
      ∧ (vamoElem (fun _ _ v _ => some v) x.sval 4 1 2 none x 2 s).toOption.isSome = true :=
  ⟨runs_of (by decide +kernel), by decide +kernel⟩
theorem witness_vamo_element : let u := mem2.wr 6 0x273
    let x := u.capture 3 6
    u.hart.elemMarked x.cfg 1 32 2 = false ∧ (AForm.indexed 2).marked x u.hart 2 = false
      ∧ (x.sval + BitVec.ofInt 64 (intValue x.fmt.fb (u.hart.elem x.cfg 2 (contWidth x.fmt.fb) 2))) = 0x2004 ∧ (0x2004 : Word).toNat % 4 = 0
      ∧ (match u.parts .vamo 0x2004 4 with
        | .ok ps => ps.all fun p => !p.1.loc.isReg && !u.marked p.1.loc && !u.hasError p.1.loc
        | .error _ => false) = true ∧ (mem2.capture 3 6).fmt.fa = 0 := by
  decide +kernel

-- PeerAccesses: two elements of core 0's own lane memory through the peer window, at rows 0 and 1
/-- Byte offsets 0 and 256 in v2, the peer window of core 0 in s3. -/
def peers : State := machine (Elems 2 [0, 256] (Elems 1 [7, 8] (Regs [(3, 0xF000000000000000), (6, 0x260)] (Len 2 bare))))
theorem witness_peer : let s := peers
    let x := s.capture 3 6
    let ix := x.grp 2 x.fmt.fb
    s.NoErrors ∧ Runs s.hart x none [x.grp 4 x.fmt.fa] [ix] (s.reads none [ix]) ∧ Runs s.hart x none [] [x.grp 1 x.fmt.fa, ix] (s.reads none [x.grp 1 x.fmt.fa, ix])
      ∧ x.fmt.scl = 0 ∧ 8 ≤ memWidth x.fmt.fa ∧ isInt x.fmt.fb = true ∧ (none : Option (BitVec 3)) ≠ some 3 ∧ s.hart.isBound 3 = false
      ∧ overlapAny s.hart x.cfg [x.grp 4 x.fmt.fa] [ix] = false ∧ peerPlace s 0xF000000000000100 4 = some (0, 256) :=
  ⟨noErrors_of rfl rfl rfl, runs_of (by decide +kernel), runs_of (by decide +kernel), by decide +kernel⟩

-- PluralResults: a run of one row in banks 0 to 3, with and without an operand row, and an empty set
theorem witness_plural : let s := lanes
    let x := s.capture 0 6
    s.NoErrors ∧ PluralReady s.hart x (plurOf x s 3 7 none false (some (s.rd 4))) (some (s.rd 4)) ∧ PluralReady s.hart x (plurOf x s 3 8 none false none) none
      ∧ (∀ ij ∈ (plurOf x s 3 7 none false (some (s.rd 4))).places 0 1, ∀ i ∈ (plurOf x s 3 7 none false (some (s.rd 4))).reads ij.1 ij.2, smem s.core.lmMarks i = false)
      ∧ (plurOf x s 3 8 none false none).places 0 1 = [] ∧ ((plurOf x s 3 7 none false none).places 0 1).length = 3 ∧ isPlural x.fmt.fd = true :=
  ⟨noErrors_of rfl rfl rfl, ⟨by decide +kernel, by decide +kernel, by decide +kernel, by decide +kernel, by decide +kernel⟩,
    ⟨by decide +kernel, by decide +kernel, by decide +kernel, by decide +kernel, by decide +kernel⟩, by decide +kernel⟩

-- WaitingWordsRunAndEnd
/-- A word encoded. -/
def wordOf (i : Instr) : Word := (encode64 i).getD 0
/-- A queue that runs and begins with a word that waits. -/
def asleep (i : Instr) (sv : Word) (w : VStall) (k : Hart) : Hart :=
  { k with q := { k.q with vq := [{ queued (wordOf i) 0x1000 k with sval := sv }], nextSeq := 1, flight := some [0], stall := w } }
theorem waitsAt_of {k : Hart} {x : Entry} {r : List Entry} {i : Instr}
    (h : k.q.vq = x :: r ∧ instrOf x.word = some i ∧ x.word.getLsbD 55 = false ∧ k.queuesRun [x] = true ∧ k.q.flight = some [0]
      ∧ k.q.landed = [] ∧ k.q.begun = none) : WaitsAt k x r i :=
  ⟨h.1, h.2.1, h.2.2.1, h.2.2.2.1, h.2.2.2.2.1, h.2.2.2.2.2⟩
/-- Two addresses in v4, and the values 0x600000005 and 9, of which memory holds the first. -/
def waits : State := { mem4 with cores := [(0, { Core.init with
  harts := [(0, ElemsOf 64 6 [0x600000005, 9] (ElemsOf 64 4 [0x2000, 0x2008] (Regs [(3, 1)] (Len 2 bare))))], launch := some 1 })] }
/-- The doubleword at 0x2000 or at 0x2008. -/
def partAt (e : Nat) : List (Part × Nat) :=
  match waits.parts .vload (0x2000 + 8 * BitVec.ofNat 64 e) 8 with
  | .ok ps => ps
  | .error _ => []
theorem witness_meets : ∀ e < 2, waits.meets (waits.capture 3 0) 4 6 partAt e := by
  have h : ∀ e < 2, waits.hart.chunkMarked (waits.capture 3 0).cfg 4 e = false ∧ waits.hart.chunkMarked (waits.capture 3 0).cfg 6 e = false
      ∧ (waits.hart.chunk (waits.capture 3 0).cfg 4 e).toNat % 8 = 0
      ∧ waits.parts .vload (waits.hart.chunk (waits.capture 3 0).cfg 4 e) 8 = .ok (partAt e)
      ∧ ∀ p ∈ partAt e, p.1.loc.isReg = false ∧ waits.marked p.1.loc = false ∧ waits.hasError p.1.loc = false := by decide +kernel
  intro e he
  obtain ⟨a, b, c, d, f⟩ := h e he
  exact ⟨a, b, c, d, fun p hp => ⟨(f p hp).1, (f p hp).2.1, (f p hp).2.2⟩⟩
theorem witness_vwait : Runs waits.hart (waits.capture 3 0) none [] [{ base := 4, n := 2, w := 64 }, { base := 6, n := 2, w := 64 }] (fun _ => [])
    ∧ waits.hart.isBound 3 = false ∧ metSoFar waits = [] ∧ (waits.capture 3 0).sval ≠ 0 ∧ (waits.capture 0 0).sval = 0
    ∧ BitVec.ofNat 64 (waits.readParts (partAt 0)) = waits.hart.chunk waits.hart.cfg 6 0
    ∧ BitVec.ofNat 64 (waits.readParts (partAt 1)) ≠ waits.hart.chunk waits.hart.cfg 6 1 :=
  ⟨runs_of (by decide +kernel), by decide +kernel⟩
theorem witness_vwait_asleep : let i := Instr.vwait plain 3 4 6 3
    let s := waits.modHart (asleep i 1 (.vwait [0]))
    WaitsAt s.hart { queued (wordOf i) 0x1000 waits.hart with sval := 1 } [] i ∧ s.hart.q.stall = .vwait [0]
      ∧ maskMark (mVwait plain 3 4 6 { queued (wordOf i) 0x1000 waits.hart with sval := 1 } s) s.hart 0 2 = none :=
  ⟨waitsAt_of (by decide +kernel), by decide +kernel⟩
/-- An inbox of two rows of one word, of which n are there. -/
def inboxed (n : BitVec 9) : State := machine { Regs [(3, 1)] (Len 2 bare) with inbox := { head := 1, count := n, w := 1, cap := 2, base := 0x40 } }
theorem witness_rrecv : let x := (inboxed 1).capture 3 0
    let ds := [({ base := 4, n := 2, w := 32 } : Grp)]
    let hs := [({ base := 6, n := 4, w := 64 } : Grp)]
    Runs (inboxed 1).hart x none (ds ++ hs) [] (fun _ => []) ∧ overlapAny (inboxed 1).hart x.cfg ds hs = false ∧ rrecvWant x (inboxed 1).hart = 2
      ∧ (∀ j < 2, laneScan (inboxed 2).core ((inboxed 2).hart.inbox.slot ((1 + j) % 2)) 20 = none) ∧ x.sval ≠ 0 ∧ rrecvWant x (inboxed 2).hart = 2 :=
  ⟨runs_of (by decide +kernel), by decide +kernel⟩
theorem witness_rrecv_asleep (n : BitVec 9) (hn : n = 1 ∨ n = 2) : let i := Instr.rrecv false 4 6 7 3
    WaitsAt ((inboxed n).modHart (asleep i 1 .rrecv)).hart { queued (wordOf i) 0x1000 (inboxed n).hart with sval := 1 } [] i := by
  rcases hn with rfl | rfl <;> exact waitsAt_of (by decide +kernel)
/-- A frame of core 0 in a state of its own. -/
def waitsFrame (st : BitVec 2) : State := framed.modCore fun y => { y with frames := y.frames.set 0 { y.frames[0] with st := st } }
theorem witness_fwait : let i := Instr.fwait false 20 0
    (framed.capture 0 0).ill = false ∧ framed.hart.vec.vs ≠ 0 ∧ (framed.core.frame 0).owner.toNat = framed.ch ∧ (framed.core.frame 0).st = 3
      ∧ ((waitsFrame 1).core.frame 0).st = 1 ∧ ((waitsFrame 2).core.frame 0).st = 2
      ∧ WaitsAt ((waitsFrame 1).modHart (asleep i 0 .fwait)).hart (queued (wordOf i) 0x1000 framed.hart) [] i
      ∧ WaitsAt ((waitsFrame 2).modHart (asleep i 0 .fwait)).hart (queued (wordOf i) 0x1000 framed.hart) [] i :=
  ⟨by decide, by decide, by decide, by decide, by decide, by decide, waitsAt_of (by decide +kernel), waitsAt_of (by decide +kernel)⟩
theorem witness_cwpw : let i := Instr.cwpw false 1 3
    ((two 5 0).core.chan 1).cwp.toNat < ((two 5 0).capture 3 0).sval.toNat ∧ ((two 0 0).capture 3 0).sval.toNat ≤ ((two 0 0).core.chan 1).cwp.toNat
      ∧ WaitsAt ((two 5 0).modHart (asleep i 5 .cwpw)).hart { queued (wordOf i) 0x1000 (two 5 0).hart with sval := 5 } [] i
      ∧ WaitsAt ((two 5 0).modHart (asleep i 0 .cwpw)).hart { queued (wordOf i) 0x1000 (two 5 0).hart with sval := 0 } [] i :=
  ⟨by decide, by decide, waitsAt_of (by decide +kernel), waitsAt_of (by decide +kernel)⟩

-- CombResults: shapes of M 8, N 8 and one panel, without a third operand and with one along A, and both scales
/-- A hart with CSHAPE and VTYPE set, a descriptor with both scales in s6, and a page address in s3. -/
def combs (shape vtype : Word) : State :=
  machine { Regs [(3, 0x4000), (6, 0x3000000)] bare with cfg := { bare.cfg with vtype := vtype }, vec := { bare.vec with cshape := shape } }
theorem combReady_of {k : Hart} {x : Entry} {gs : List Grp}
    (h : k.vec.vs ≠ 0 ∧ (k.cfg.nreg = 8 ∨ k.cfg.nreg = 16 ∨ k.cfg.nreg = 32) ∧ (k.place.h = 1 ∨ k.place.h = 2 ∨ k.place.h = 4 ∨ k.place.h = 8)
      ∧ x.ill = false ∧ ∀ g ∈ gs, g.bad05 k x.cfg = false ∧ g.bad06 k x.cfg = false) : CombReady k x gs :=
  ⟨h.1, ⟨h.2.1, h.2.2.1⟩, h.2.2.2.1, h.2.2.2.2⟩
theorem witness_ctri : let s := combs 0x10000 4
    let x := s.capture 0 0
    let gs := ctriGrps (cshapeOf s.hart.vec.cshape) x.fmt (combBlen x) 1 2 0 0 0
    (3 : BitVec 3).toNat < 8 / s.hart.place.h.toNat ∧ CombReady s.hart x gs ∧ cshapeLegal s.hart.vec.cshape = true ∧ descrReserved x.fval = false
      ∧ x.fmt.scl = 0 ∧ x.fmt.fa ≤ 0x0F ∧ x.fmt.fb ≤ 0x0F ∧ x.fmt.fd = 0 ∧ x.fmt.rm ≠ 5 ∧ s.hart.store.poison = [] :=
  ⟨by decide, combReady_of (by decide +kernel), by decide +kernel⟩
theorem witness_ctri_scaled : let s := combs 0x10010 0xC
    let x := s.capture 0 6
    let gs := ctriGrps (cshapeOf s.hart.vec.cshape) x.fmt (combBlen x) 1 2 3 4 5
    CombReady s.hart x gs ∧ cshapeLegal s.hart.vec.cshape = true ∧ (cshapeOf s.hart.vec.cshape).mode = 1 ∧ descrReserved x.fval = false
      ∧ x.fmt.scl = 3 ∧ x.fmt.fa ≤ 0x0F ∧ x.fmt.fb ≤ 0x0F ∧ x.fmt.fc ≤ 0x0F ∧ x.fmt.fd = 0 ∧ x.fmt.rm ≠ 5 ∧ x.cfg.vtype.extractLsb' 3 2 ≠ 0
      ∧ gs.length = 5 ∧ s.hart.store.poison = [] :=
  ⟨combReady_of (by decide +kernel), by decide +kernel⟩
theorem witness_tile_share : ¬ (3 : BitVec 3).toNat < 8 / (quarter 0).hart.place.h.toNat ∧ (quarter 0).hart.q.landed = [] ∧ (quarter 0).hart.vec.vs ≠ 0
    ∧ ((two 0x10000 0).capture 3 0).ill = false ∧ cshapeLegal ((two 0x10000 0).capture 3 0).sval = true := by decide +kernel
/-- A window of two rows and three columns at (1, 2), with CO 4 and RS 8. -/
def windows : State := machine (Regs [(3, 0x0000000800000004)] (Len 64 bare))
theorem witness_cget : let z := windows.capture 3 0
    let w := twinOf 1 1 2 2 z
    CombReady windows.hart z [{ base := 9, n := w.count false, w := 32 }] ∧ CombReady windows.hart z [{ base := 9, n := w.count true, w := 32 }]
      ∧ w.bad05 false z = false ∧ w.bad05 true z = false ∧ descrReserved z.fval = false ∧ z.fmt.rm ≠ 5 ∧ z.fmt.scl = 0 ∧ isValue z.fmt.fd = true
      ∧ z.fmt.fa = 0 ∧ contWidth z.fmt.fd = 32 ∧ (∀ e < w.count false, windows.hart.elemMarked z.cfg 9 32 e = false) :=
  ⟨combReady_of (by decide +kernel), combReady_of (by decide +kernel), by decide +kernel⟩
theorem witness_tile_memory : let s := combs 0x10000 4
    let u := s.capture 3 0
    let ea := u.sval + (0 : BitVec 16).signExtend 64
    let pairs := (List.range 512).map fun i => (ea + BitVec.ofNat 64 (8 * i), 8)
    ea.toNat % 4096 = 0 ∧ s.NoErrors ∧ s.NoSnapshot ∧ (s.checkParts s.cc s.hart .vload 8 pairs).toOption.isSome = true
      ∧ (s.checkParts s.cc s.hart .vput 8 pairs).toOption.isSome = true := by
  refine ⟨by decide, noErrors_of rfl rfl rfl, by unfold State.NoSnapshot; decide, ?_, ?_⟩
  · decide +kernel
  · decide +kernel

-- QueuesRunTheirHeads: a CSHP in the comb queue, the VMUL of a convoy, words that fail their checks, and queues that stand
/-- A hart with words in its queues. -/
def queues (vq cq : List Word) (k : Hart) : Hart :=
  { k with q := { k.q with vq := vq.map fun w => queued w 0x2000 k, cq := cq.map fun w => queued w 0x2000 k, nextSeq := 1 } }
/-- CSHP s3 with a legal shape, or 0, in s3. -/
def shaping (v : Word) : State := machine (queues [] [wordOf (.cshp 3)] (Regs [(3, v)] bare))
theorem witness_comb_head : let s := shaping 0
    let x := queued (wordOf (.cshp 3)) 0x2000 s.hart
    s.Quiet ∧ s.hart.q.cq = [x] ∧ s.hart.queuesRun [x] = true ∧ s.combFree (x, x.meaning s) = true
      ∧ (dispatchCheck s.hart [(x, x.meaning s)]).isSome = true ∧ s.hart.q.flight = none ∧ s.hart.q.stall = .none ∧ s.hart.q.landed = [] :=
  ⟨⟨by decide, by decide⟩, by decide +kernel⟩
theorem witness_comb_runs : let s := machine (queues [] [wordOf (.cshp 3)] (Regs [(3, 0x10000)] bare))
    let x : Entry := { queued (wordOf (.cshp 3)) 0x2000 s.hart with sval := s.rd 3 }
    s.Quiet ∧ s.hart.q.cq = [x] ∧ s.combFree (x, x.meaning s) = true ∧ dispatchCheck s.hart [(x, x.meaning s)] = none
      ∧ (match (x.meaning s).run (s.grant (.comb :: (x.meaning s).uses)) 0 (x.meaning s).len with
        | .ok _ => true
        | _ => false) = true :=
  ⟨⟨by decide, by decide⟩, by decide +kernel⟩
theorem witness_queues_stand : (machine { queues [0] [0] bare with vec := { bare.vec with vs := 0 } }).hart.queuesRun [queued 0 0x2000 bare] = false := by decide
theorem witness_convoy : let s := convoy
    let x := queued 0x1200C22000000000 0x2000 s.hart
    s.Quiet ∧ s.hart.q.vq.head? = some { x with sval := 0, fval := 0, cfg := s.hart.cfg } ∧ x.word.getLsbD 55 = false ∧ s.hart.queuesRun [x] = true
      ∧ s.convoyFree [(x, x.meaning s)] = true ∧ dispatchCheck s.hart [(x, x.meaning s)] = none
      ∧ (match runConvoy (s.grant ((x.meaning s).uses.filter fun u => u != .route)) [(x, x.meaning s)] [] (0xFFFFFFFF : BitVec 32).toNat with
        | .done t => t.hart.q == s.hart.q
        | _ => false) = true :=
  ⟨⟨by decide, by decide⟩, by decide +kernel⟩
theorem witness_convoy_check : let s := machine (queues [0xFF00000000000000] [] bare)
    let x := queued 0xFF00000000000000 0x2000 s.hart
    s.Quiet ∧ s.hart.queuesRun [x] = true ∧ x.word.getLsbD 55 = false ∧ s.convoyFree [(x, x.meaning s)] = true
      ∧ dispatchCheck s.hart [(x, x.meaning s)] = some (0x02, 0x2000, none) :=
  ⟨⟨by decide, by decide⟩, by decide +kernel⟩

-- AsynchronousTraps
/-- A hart with something that waits to be taken. -/
def dueNow (c : List MCUnit) (st : Option Word) (p sie : Bool) : State :=
  machine { bare with trap := { bare.trap with checks := c, stepped := st, pend := p, system := true, sie := sie } }
theorem witness_due : (∀ u ∈ [MCUnit.tile 3, .queues, .core], (dueNow [u] (some 0x1000) true true).hart.trap.due = true)
    ∧ (dueNow [] none true true).hart.trap.due = true ∧ (dueNow [] none true false).hart.trap.due = false
    ∧ (dueNow [] none true true).hart.place.placed = true ∧ (dueNow [] none true true).hart.q.flight = none
    ∧ (machine { bare with halted := true }).hart.halted = true ∧ State.reset.hart.place.placed = false := by decide

-- RouteWords: two rows of two elements; row 0 goes to entry 0 and nowhere, row 1 to entry 0 beyond its SHARE and to no entry
/-- The rows in v1, the choices in v2, the weights in v3, W in s3, and frame 0 in a state of its own. -/
def routes (st : BitVec 2) : State := (machine (ElemsOf 16 2 [0xFF00, 0x4600] (Elems 3 [1, 2, 3, 4] (Elems 1 [5, 6, 7, 8] (Regs [(3, 2)] (Len 4 bare)))))).modCore fun y => { y with
  routes := y.routes.set 0 1
  frames := y.frames.set 0 { Frame.init with st := st, w := 2, maxr := 8, base := 0x100 } }
theorem witness_route : let s := routes 0
    let x := s.capture 3 0
    let f := s.core.frame 0
    Runs s.hart x none [] [{ base := 1, n := 4, w := 32 }, { base := 2, n := 2, w := 16 }, { base := 3, n := 4, w := 32 }] (fun _ => [])
      ∧ f.st = 0 ∧ x.sval >>> 11 = 0 ∧ x.sval.extractLsb' 0 11 = f.w ∧ x.vl = 4 ∧ f.maxr = 8 ∧ s.hart.lmbase = 0 ∧ s.hart.lmsize = 8192
      ∧ s.hart.store.poison = [] ∧ s.reachable ((s.core.routes[0]?.getD 0).extractLsb' 47 17).toNat = true ∧ ((routes 1).core.frame 0).st = 1
      ∧ (routes 1).hart.q.landed = [] :=
  ⟨runs_of (by decide +kernel), by decide +kernel⟩
theorem witness_rtset : let s := router
    let x := s.capture 18 0
    Runs s.hart x none [] [{ base := 4, n := 2, w := 64 }] (fun _ => []) ∧ (x.sval.extractLsb' 8 7).toNat = 2 ∧ (x.sval.extractLsb' 0 6).toNat = 0
      ∧ x.sval.extractLsb' 6 2 = 0 ∧ x.sval >>> 15 = 0
      ∧ (∀ i < 2, (s.hart.chunk x.cfg 4 i).extractLsb' 40 7 = 0 ∧ (s.hart.chunk x.cfg 4 i).extractLsb' 27 5 = 0
        ∧ (s.hart.chunk x.cfg 4 i).extractLsb' 9 15 = 0 ∧ ((s.hart.chunk x.cfg 4 i).extractLsb' 0 9).toNat ≤ 256)
      ∧ ((router.wr 18 0).capture 18 0).sval.extractLsb' 8 7 = 0
      ∧ Runs (router.wr 18 0).hart ((router.wr 18 0).capture 18 0) none [] [{ base := 4, n := 0, w := 64 }] (fun _ => []) :=
  ⟨runs_of (by decide +kernel), by decide +kernel, by decide +kernel, by decide +kernel, by decide +kernel, by decide +kernel, by decide +kernel,
    runs_of (by decide +kernel)⟩
/-- Two rows of two elements with their headers in v6: one names core 0 of this device, one no core of the tenancy. -/
def returns : State := machine { ElemsOf 64 6 [0, 0, 0x0000640000000000, 0] (Elems 1 [5, 6, 7, 8] (Len 4 bare)) with inbox := { head := 0, count := 0, w := 2, cap := 2, base := 0x40 } }
theorem witness_rret : let s := returns
    let z := s.capture 0 0
    Runs s.hart z none [] [{ base := 1, n := 4, w := 32 }, { base := 6, n := 4, w := 64 }] (fun _ => []) ∧ s.hart.inbox.w.toNat = 2 ∧ z.vl = 4 :=
  ⟨runs_of (by decide +kernel), by decide +kernel⟩
theorem witness_fread : let s := framed
    let z := s.capture 0 0
    let f := s.core.frame 0
    Runs s.hart z none [{ base := 20, n := 2, w := 32 }, { base := 21, n := 1, w := 8 }] [] (fun _ => [])
      ∧ overlapAny s.hart z.cfg [{ base := 20, n := 2, w := 32 }] [{ base := 21, n := 1, w := 8 }] = false ∧ f.st = 3 ∧ f.owner.toNat = s.ch
      ∧ f.nrow = 1 ∧ f.w = 2 ∧ ∀ c < 2, laneScan s.core (f.base.toNat * 256 + c * 4 * 2) 8 = none :=
  ⟨runs_of (by decide +kernel), by decide +kernel⟩

-- RouteArrivals
/-- A row of one element from core 0 of this device, or of another, for a hart of core 0 of tenancy 0. -/
def rowMsg (sdev : Nat) (tag : BitVec 56) : RowMsg :=
  { ten := 0, sdev := sdev, score := 0, ddev := 0, dcore := 0, dhart := 0, h0 := header0 sdev 0 0 1 0 0 1, h1 := header1 tag 0, data := [(7, false)] }
/-- A message in the fabric. -/
def delivered (m : Msg) (s : State) : State := { s with fabric := [m] }
theorem witness_arrival (m : RowMsg) : (delivered (.row m) (inboxed 1)).earliest 0 = some (0, .row m) := by
  simp [State.earliest, delivered]
theorem witness_row : let s := delivered (.row (rowMsg 0 0)) (inboxed 1)
    let k := s.hartAt 0 0
    s.NoErrors ∧ s.physCore 0 0 = some 0 ∧ s.physCore 0 200 = none ∧ s.runningOn 0 = some launch1 ∧ launch1.ten = (rowMsg 0 0).ten
      ∧ ((0, (rowMsg 0 0).h1.extractLsb' 8 56) ∈ launch1.tags) ∧ ¬ (0, (rowMsg 0 9).h1.extractLsb' 8 56) ∈ launch1.tags ∧ (rowMsg 3 0).sdev ≠ s.mgr.devnum.toNat
      ∧ k.place.placed = true ∧ k.place.launch = launch1.id ∧ k.inbox.cap ≠ 0 ∧ k.inbox.w = (rowMsg 0 0).h0.extractLsb' 15 11
      ∧ k.inbox.count.toNat < k.inbox.cap.toNat ∧ ¬ (inboxed 2).hart.inbox.count.toNat < (inboxed 2).hart.inbox.cap.toNat ∧ bare.inbox.cap = 0
      ∧ { s with launches := [] }.runningOn 0 = none ∧ (6 : BitVec 6) ≠ launch1.ten :=
  ⟨noErrors_of rfl rfl rfl, by decide +kernel⟩
/-- Frame 0 open with two rows of one word, of which choice 0 of row 0 is SENT, and its storage. -/
def openFrame : State := machine bare |>.modCore fun y => { y with
  frames := y.frames.set 0 { Frame.init with gen := 1, st := 1, timeout := 5, w := 1, maxr := 8, base := 0x100, nrow := 2, wts := [1, 2, 3, 4]
                                             stat := [none, some 1, some 2, none] } }
/-- A return to core 0 of tenancy 0. -/
def retMsg (gen : BitVec 2) (row w : Nat) (tag : BitVec 56) (full : Bool) : RetMsg :=
  { ten := 0, score := 0, ddev := 0, dcore := 0, h0 := header0 0 0 0 gen row 0 1, h1 := header1 tag 0, w := w, data := [(9, false)], full := full }
theorem witness_return (m : RetMsg) : (delivered (.ret m) openFrame).earliest 0 = some (0, .ret m)
    ∧ (delivered (.refusal m) openFrame).earliest 0 = some (0, .refusal m) := by
  simp [State.earliest, delivered]
theorem witness_return_cases : let f := openFrame.core.frame 0
    let row := fun (m : RetMsg) => (m.h0.extractLsb' 27 8).toNat
    openFrame.physCore 0 0 = some 0 ∧ (retMsg 1 0 1 0 false).h1.extractLsb' 8 56 = openFrame.core.ltag ∧ (retMsg 1 0 1 9 false).h1.extractLsb' 8 56 ≠ openFrame.core.ltag
      ∧ (retMsg 1 0 1 0 false).h0.extractLsb' 35 2 = f.gen ∧ (retMsg 2 0 1 0 false).h0.extractLsb' 35 2 ≠ f.gen ∧ f.st = 1 ∧ (framed.core.frame 0).st ≠ 1
      ∧ row (retMsg 1 0 1 0 false) < f.nrow ∧ f.stat[0]? = some none ∧ ¬ row (retMsg 1 2 1 0 false) < f.nrow ∧ f.stat[2]? ≠ some none
      ∧ (retMsg 1 0 1 0 false).w = f.w.toNat ∧ (retMsg 1 0 2 0 false).w ≠ f.w.toNat ∧ f.timeout ≠ 0 ∧ (framed.core.frame 0).timeout = 0
      ∧ (machine bare).earliest 0 = none := by
  decide +kernel

-- EngineCommands: a card of each kind, a copy, a copy with a binding, an inactive command
/-- A command in the slot at v8. -/
def slots (q : Slot8) : State := machine (ElemsOf 64 8 (q.map BitVec.toNat) (Bits 1 [false] (Len 1 bare)))
/-- IRED of one row of one FP32 element from 0x2000 to 0x3000, DONE at 0x4000. -/
def iredSlot : Slot8 := [0x100000101, 0x2000, 0x3000, 0x4000, 0, 0, 0, 0]
/-- RCOPY of one row. -/
def rcopySlot : Slot8 := [0x102, 0x2000, 0x3000, 0x4000, 0, 0, 0, 0]
/-- RFILL of one row with zeros. -/
def rfillSlot : Slot8 := [0x103, 0, 0x3000, 0x4000, 0, 0, 0, 0]
/-- A copy of 512 bytes in chunks of 256 on channel 1, with or without m2 bound. -/
def copySlot (fl : Word) : Slot8 := [0x080120 + fl <<< 24, 0x2000, 0x3000, 0x4000, 512, 0, 0, 0]
theorem witness_enq : let s := slots iredSlot
    let x := s.capture 0 0
    let gs := ({ base := 8, n := 1, w := 512 } : Grp)
    let ys := ({ base := 20, n := 1, w := 64 } : Grp)
    Runs s.hart x none [ys] [gs] (fun _ => []) ∧ Runs s.hart x (some 1) [ys] [gs] (fun _ => []) ∧ x.vl = 1 ∧ overlapAny s.hart x.cfg [ys] [gs] = false
      ∧ s.hart.isBound 3 = false ∧ s.hart.store.poison = [] ∧ s.hart.active (some 1) 0 = false :=
  ⟨runs_of (by decide +kernel), runs_of (by decide +kernel), by decide +kernel⟩
theorem witness_cards : (∀ q ∈ [iredSlot, rcopySlot, rfillSlot], cardReason q (cardRanges q (slots q)) [] (slots q) = none)
    ∧ cardReason [] (cardRanges [] (slots [])) [] (slots []) = some (6, 0) := by decide +kernel
theorem witness_card_legal : CardLegal iredSlot ∧ CardLegal rcopySlot ∧ CardLegal rfillSlot ∧ ¬ CardLegal [] := by
  refine ⟨.inl ?_, .inr (.inl ?_), .inr (.inr ?_), ?_⟩
  · refine ⟨by decide, by decide, by decide, by decide, by decide, by decide, by decide, fun j h0 h8 => ?_⟩
    have : j ∈ List.range 8 := List.mem_range.2 h8
    revert h0
    exact (by decide : ∀ j ∈ List.range 8, slotByte iredSlot 1 ≤ j → slotIndex iredSlot j = 0) j this
  · decide
  · decide
  · rintro (h | h | h)
    · exact absurd h.1 (by decide)
    · exact absurd h.1 (by decide)
    · exact absurd h.1 (by decide)
theorem witness_copies : CopyLegal (copySlot 0) 256 ∧ CopyLegal (copySlot 5) 256 ∧ ¬ CopyLegal (copySlot 4) 256
    ∧ (∀ q ∈ [copySlot 0, copySlot 5], copyReason q (copyRanges q (slots q)) (slots q) = none) ∧ copyBind (copySlot 0) = false
    ∧ copyBind (copySlot 5) = true := by
  refine ⟨?_, ?_, ?_, by decide +kernel⟩
  · exact ⟨by decide, by decide, by decide, by decide, by decide, by decide, by decide, by decide, by decide, by decide, by decide, by decide, by decide⟩
  · exact ⟨by decide, by decide, by decide, by decide, by decide, by decide, by decide, by decide, by decide, by decide, by decide, by decide, by decide⟩
  · exact fun h => absurd (h.2.2.2.2.2.1) (by decide)

-- EngineWork
/-- A card alone in the queue of stack 0. -/
def carded (c : Card) : State := { machine bare with engines := [(0, { Stack.init with cards := [(0, [c])] })] }
/-- A card of so many rows of stack 1, as accepted. -/
def card (op : BitVec 8) (dlen n rowBytes dstBytes : Nat) : Card :=
  { op := op, count := n, fmt := 0, acc := false, pat := 0, dlen := dlen
    rows := (List.range n).map fun i => [{ pa := 0x1000002000 + 0x800 * i, n := rowBytes, cls := 0 }]
    dst := [{ pa := 0x4000, n := dstBytes, cls := 0 }], comp := 0x8000, ten := 0, core := 0, hart := 0, launch := 1, step := 0 }
theorem nodup_run (a n : Nat) : ((List.range n).map (a + ·)).Nodup :=
  List.Nodup.map (fun _ _ h => Nat.add_left_cancel h) List.nodup_range
/-- The bytes of a single segment. -/
theorem segBytes_one (g : Seg) : segBytes [g] = (List.range g.n).map (g.pa + ·) := by simp [segBytes]
theorem cardRuns_of {op : BitVec 8} {dlen rowBytes dstBytes : Nat} (hr : 0 < rowBytes) (hd : dstBytes ≤ 0x4000)
    (hl : op ≠ 1 → dstBytes % 256 = 0 ∧ 0 < dstBytes) : CardRuns (carded (card op dlen 2 rowBytes dstBytes)) 0 0 (card op dlen 2 rowBytes dstBytes) rowBytes dstBytes where
  next := by simp [carded, Stack.next, State.stackAt, mget, Stack.init, Stack.ofTen, card]
  count := by simp [card]
  rows := fun _ => by simp [card]
  size := fun _ r hr' => by
    simp only [card, List.mem_map, List.mem_range] at hr'
    obtain ⟨i, _, rfl⟩ := hr'
    exact ⟨by simp [segBytes_one], fun g hg => by simp only [List.mem_singleton] at hg; subst hg; exact hr⟩
  fits := ⟨by simp [card, segBytes_one], by simp only [card, segBytes_one]; exact nodup_run _ _⟩
  line := fun h g hg => by
    simp only [card, List.mem_singleton] at hg
    subst hg
    exact ⟨show 16384 % 256 = 0 by decide, (hl h).1, (hl h).2⟩
  apart := fun i hi h => by
    simp only [card, segBytes_one, List.mem_map, List.mem_range] at h
    omega
  calm := ⟨noErrors_of rfl rfl rfl, (by unfold State.NoSnapshot; decide : (machine bare).NoSnapshot), noMarks_of rfl rfl rfl⟩
theorem witness_ired : CardRuns (carded (card 1 3 2 12 12)) 0 0 (card 1 3 2 12 12) 12 12 :=
  cardRuns_of (by decide) (by decide) (fun h => absurd rfl h)
theorem witness_rcopy : CardRuns (carded (card 2 0 2 2048 4096)) 0 0 (card 2 0 2 2048 4096) 2048 4096 :=
  cardRuns_of (by decide) (by decide) (fun _ => by decide)
/-- RFILL reads no rows. -/
theorem witness_rfill : let c := { card 3 0 2 1 4096 with rows := [] }
    CardRuns (carded c) 0 0 c 0 4096 := by
  have h := cardRuns_of (op := 3) (dlen := 0) (rowBytes := 1) (dstBytes := 4096) (by decide) (by decide) (fun _ => by decide)
  exact ⟨by simp [carded, Stack.next, State.stackAt, mget, Stack.init, Stack.ofTen, card], h.count, fun h => absurd rfl h, fun h => absurd rfl h, h.fits, h.line,
    h.apart, ⟨noErrors_of rfl rfl rfl, by unfold State.NoSnapshot; decide, noMarks_of rfl rfl rfl⟩⟩
/-- A reduction packet of eight bytes. -/
def packet : Packet := { segs := [{ pa := 0x2000, n := 8, cls := 0 }], bytes := List.replicate 8 1, marks := List.replicate 8 false, ten := 0, core := 0, launch := some 1, handle := 5, chunk := 0, step := 3 }
theorem witness_packet : let s := { machine bare with engines := [(0, { Stack.init with rq := [packet] })] }
    (s.stackAt 0).rq = [packet] ∧ packet.launch = (s.coreAt 0).launch ∧ ({ packet with launch := some 9 } : Packet).launch ≠ (s.coreAt 0).launch ∧ s.NoErrors ∧ s.NoSnapshot ∧ (segBytes packet.segs).length = packet.bytes.length ∧ (segBytes packet.segs).Nodup
      ∧ ((machine bare).stackAt 0).rq = [] ∧ ((machine bare).stackAt 0).next = none :=
  ⟨rfl, by decide, by decide, noErrors_of rfl rfl rfl, by unfold State.NoSnapshot; decide, by decide, by decide, rfl, by decide⟩
/-- A copy of 512 bytes in chunks of 256 with m2 bound. -/
def copyCmd : CopyCmd :=
  { src := .mem [{ pa := 0x2000, n := 512, cls := 0 }], dst := .mem [{ pa := 0x3000, n := 512, cls := 0 }], len := 512, csz := 8
    comp := some { pa := 0x4000, n := 8, cls := 0 }, bind := some 2, hart := 0, launch := 1, ten := 0, step := 0, poison := false }
/-- The channel in the middle of it, or with it waiting. -/
def copying (started : Bool) (chunk : Nat) : State := (machine bare).modCore fun y => { y with
  chans := y.chans.set 1 { cmds := [copyCmd], cwp := 0, started := started, chunk := chunk } }
theorem witness_copy_chunk (chunk : Nat) (hc : chunk = 0 ∨ chunk = 1) : let s := copying true chunk
    let off := chunk * 2 ^ copyCmd.csz
    let m := min (2 ^ copyCmd.csz) (copyCmd.len - off)
    let locs := fun (e : CopyEnd) => ((e.runs 0 copyCmd.len).flatMap Run.locs).drop off |>.take m
    (s.core.chan 1).cmds = [copyCmd] ∧ (s.core.chan 1).started = true ∧ (s.core.chan 1).chunk = chunk ∧ s.NoErrors ∧ s.NoSnapshot ∧ s.NoMarks
      ∧ (locs copyCmd.src).length = m ∧ (locs copyCmd.dst).length = m ∧ (locs copyCmd.dst).Nodup
      ∧ (∀ i < 8, Loc.mem (0x4000 + i) ∉ locs copyCmd.dst) ∧ (s.hartAt 0 0).place.placed = true ∧ (s.hartAt 0 0).place.launch = copyCmd.launch
      ∧ (s.hartAt 0 0).q.flight = none ∧ (s.hartAt 0 0).q.stall = .none := by
  have hn : ((CopyEnd.mem [{ pa := 0x3000, n := 512, cls := 0 }]).runs 0 512 |>.flatMap Run.locs) = (List.range 512).map fun i => Loc.mem (0x3000 + i) := by
    simp [CopyEnd.runs, runsOf, Run.locs]
  have hd : ((List.range 512).map fun i => Loc.mem (0x3000 + i)).Nodup :=
    List.Nodup.map (fun a b h => by simpa using h) List.nodup_range
  refine ⟨rfl, rfl, rfl, noErrors_of rfl rfl rfl, by rcases hc with rfl | rfl <;> (unfold State.NoSnapshot; decide), noMarks_of rfl rfl rfl, ?_⟩
  refine ⟨by rcases hc with rfl | rfl <;> decide +kernel, by rcases hc with rfl | rfl <;> decide +kernel, ?_, ?_, rfl, rfl, rfl, rfl⟩
  · show (((CopyEnd.mem [{ pa := 0x3000, n := 512, cls := 0 }]).runs 0 512 |>.flatMap Run.locs).drop _ |>.take _).Nodup
    rw [hn]
    exact (hd.sublist (List.drop_sublist _ _)).sublist (List.take_sublist _ _)
  · intro i hi h
    have h := List.mem_of_mem_drop (List.mem_of_mem_take h)
    simp only [copyCmd] at h
    rw [hn] at h
    simp only [List.mem_map, List.mem_range, Loc.mem.injEq] at h
    omega
theorem witness_copy_idle : ((copying false 0).core.chan 1).cmds ≠ [] ∧ ((machine bare).core.chan 1).cmds = [] := by decide

-- Collectives: a group of this hart alone, chunks of 64 FP32 elements
/-- A hart with CSTR 256, CGRP 5, COPR, CSTEP 3 and so many elements, on a core that holds the group. -/
def member (copr : BitVec 13) (vl : Nat) (g : List GroupEnt) : State :=
  (machine { Elems 1 [1, 2] (Regs [(3, 0x2000)] (Len vl bare)) with
    cfg := { (Len vl bare).cfg with cstr := 256, cgrp := 5, copr := copr, cstep := 3 } }).modCore fun y => { y with groups := g }
/-- Handle 5, of hart 0 of core 0 of this device, and of one more record before or after it. -/
def solo : GroupEnt := { handle := 5, gather := false, members := [0] }
/-- A group whose rank 0 is core 1; this hart has rank 1. -/
def duo : GroupEnt := { handle := 5, gather := true, members := [0x100000000, 0] }
/-- A group of core 1 alone. -/
def foreign : GroupEnt := { handle := 5, gather := false, members := [0x100000000] }
theorem witness_vst_c : let s := member 0 64 [solo]
    let x := s.capture 3 0
    let w := winOf x 0
    winBad05 x 0 = false ∧ s.hart.q.stall = .none ∧ x.coprK = 0 ∧ Runs s.hart x none [] [x.grp 1 x.fmt.fa] (fun _ => []) ∧ w.n = 1
      ∧ s.groupOf x.handle = some solo ∧ s.rankIn solo = some 0 ∧ s.reachable (recDev 0) = true ∧ s.hart.store.poison = []
      ∧ (member 0 64 []).groupOf x.handle = none ∧ (member 0 64 [foreign]).groupOf x.handle = some foreign ∧ (member 0 64 [foreign]).rankIn foreign = none :=
  ⟨by decide +kernel, by decide, by decide, runs_of (by decide +kernel), by decide +kernel⟩
theorem witness_vst_c_top : let s := member 0x400 64 [solo]
    let x := s.capture 3 0
    winBad05 x 0 = false ∧ x.coprK = 4 ∧ Runs s.hart x none [x.grp 9 x.fmt.fa] [x.grp 1 x.fmt.fa] (fun _ => [])
      ∧ overlapAny s.hart x.cfg [x.grp 9 x.fmt.fa] [x.grp 1 x.fmt.fa] = false :=
  ⟨by decide +kernel, by decide, runs_of (by decide +kernel), by decide +kernel⟩
/-- What the port records of chunk 32 of handle 5. -/
def recorded (r : List ChunkRec) (s : State) : State := s.modCore fun y => { y with recs := r }
theorem witness_vld_c : let s := member 0 64 [solo]
    let x := s.capture 3 0
    let w := winOf x 0
    Runs s.hart x none [x.grp 9 x.fmt.fa] [] (fun _ => []) ∧ w.n = 1 ∧ w.first % solo.members.length = 0
      ∧ ((recorded [{ handle := 5, chunk := w.first, ls := some 3, failed := [], served := 0 }] s).core.chunkRec x.handle w.first).ls = some 3
      ∧ x.cfg.cstep = 3 ∧ 3 ∈ ((recorded [{ handle := 5, chunk := w.first, ls := none, failed := [3], served := 0 }] s).core.chunkRec x.handle w.first).failed
      ∧ (s.core.chunkRec x.handle w.first).ls = none ∧ (s.core.chunkRec x.handle w.first).failed = []
      ∧ (List.range 64).all (fun e => match s.parts .vload (w.addr + BitVec.ofNat 64 (4 * e)) 4 with
        | .ok ps => ps.all fun p => !p.1.loc.isReg && !s.marked p.1.loc && !s.hasError p.1.loc
        | .error _ => false) = true :=
  ⟨runs_of (by decide +kernel), by decide +kernel⟩
theorem witness_vld_c_fetch : let s := member 0 64 [duo]
    let x := s.capture 3 0
    let w := winOf x 0
    s.groupOf x.handle = some duo ∧ s.rankIn duo = some 1 ∧ duo.gather = true ∧ w.n = 1 ∧ w.first % duo.members.length ≠ 1 := by decide +kernel
theorem witness_vstr : let s := mem2
    let x := s.capture 3 6
    Runs s.hart x (some 1) [] [x.grp 1 x.fmt.fa, x.grp 2 x.fmt.fb] (fun _ => []) ∧ memBad05 (.indexed 2) x = false ∧ s.hart.isBound 4 = false
      ∧ s.hart.q.stall = .none ∧ (List.range x.vl).filter (s.hart.active (some 1)) = [2]
      ∧ (s.parts .vremote (elemAddr (.indexed 2) (baseOf x 0) x s.hart 32 2).1 4).toOption.isSome = true ∧ s.hart.store.poison = [] :=
  ⟨runs_of (by decide +kernel), by decide +kernel⟩
/-- A contribution of rank 0 of one, for a chunk at 0x2000. -/
def contribution (ocore : Nat) : Contrib :=
  { ten := 0, system := false, handle := 5, step := 3, chunk := 32, rank := 0, ranks := 1, gather := false, op := 0, fa := 0, rm := 0, sat := false, stride := 256
    elems := List.replicate 64 0x3F800000, marked := false, odev := 0, ocore := ocore, ohart := 0, sdev := 0, score := 0, shart := 0, id := 7 }
theorem witness_message (m : Msg) (s : State) : (delivered m s).earliest 0 = some (0, m) := by
  simp [State.earliest, delivered]
theorem witness_contribution : let s := delivered (.contrib (contribution 0)) (machine bare)
    s.ownerHart 0 0 0 = some 0 ∧ s.ownerHart 0 1 0 = none ∧ s.core.staged = []
      ∧ (contribution 0) ∈ ((machine bare).modCore fun y => { y with staged := [contribution 0] }).core.staged :=
  ⟨by decide, by decide, rfl, by decide⟩
theorem witness_staging_full : ∃ c : Contrib, c.sameChunk (contribution 0) = false ∧ 2 ^ 21 < ([c].map Contrib.size).sum + (contribution 0).size
    ∧ (((machine bare).modCore fun y => { y with staged := [c] }).combinable 0 c).isSome = true := by
  have long : ∃ l : List (BitVec 32), l.length = 524288 := ⟨List.replicate 524288 0, List.length_replicate⟩
  obtain ⟨l, hl⟩ := long
  have h4 : memWidth (0 : BitVec 5).toNat / 8 = 4 := by decide
  refine ⟨{ contribution 0 with chunk := 33, elems := l }, rfl, ?_, rfl⟩
  simp only [List.map, List.sum_cons, List.sum_nil, Contrib.size, contribution, hl, h4, List.length_replicate]
  decide
/-- A port with one contribution staged, for a chunk in HBM4 or, through a second page, in LPDDR-6. -/
def port (chunk : Nat) (ranks : Nat) : State :=
  { (machine bare).modCore fun y => { y with staged := [{ contribution 0 with chunk := chunk, ranks := ranks }] } with
    mem := (machine bare).mem }
theorem witness_combine : let s := port 32 1
    let m := { contribution 0 with chunk := 32, ranks := 1 }
    let ps := checkRange { r := false, w := true, lpd := true, lane := false } ((s.at s.cc m.ohart).asLevel false) (BitVec.ofNat 64 (m.chunk * m.stride)) 256
    s.core.staged[0]? = some m ∧ s.core.staged[1]? = none ∧ s.combinable s.cc m = some [m] ∧ (port 32 2).combinable 0 { m with ranks := 2 } = none ∧ rangeReason [(0, ps)] = none ∧ (segsOf ps).head?.any (fun g => regionOf g.pa == 0)
      ∧ (s.stackAt (stackOf 0x2000)).rq.length < 64 ∧ s.NoSnapshot :=
  ⟨by decide +kernel, by decide, by decide +kernel, by decide +kernel, by decide +kernel, by decide +kernel, by decide, by unfold State.NoSnapshot; decide⟩
theorem witness_combine_fails : let s := (port 32 1).modHart fun k => { k with ptroot := 0 }
    rangeReason [(0, checkRange { r := false, w := true, lpd := true, lane := false } ((s.at s.cc 0).asLevel false) 0x2000 256)] ≠ none := by decide +kernel
/-- The page at 0 lies in LPDDR-6. -/
def farPage : State := { port 32 1 with
  mem := (bytesOf 8 (2 ^ 44 + 0x3F)).zipIdx.foldl (fun m p => mput memDefault m (0x10000 + p.2) p.1) []
  tens := [(0, { Ten.init with wins := [(0, 0, 0x1000000), (1, 0, 0x1000000)] })] }
theorem witness_combine_far : let ps := checkRange { r := false, w := true, lpd := true, lane := false } ((farPage.at farPage.cc 0).asLevel false) 0x2000 256
    rangeReason [(0, ps)] = none ∧ (∀ g ∈ segsOf ps, regionOf g.pa ≠ 0) ∧ farPage.NoErrors ∧ farPage.NoSnapshot
      ∧ (segBytes (segsOf ps)).length = 64 * 4 ∧ segsOf ps = [{ pa := 2 ^ 44 + 0x2000, n := 256, cls := 0 }]
      ∧ (segBytes [{ pa := 2 ^ 44 + 0x2000, n := 256, cls := 0 }]).Nodup :=
  ⟨by decide +kernel, by decide +kernel, noErrors_of rfl rfl rfl, by unfold State.NoSnapshot; decide, by decide +kernel, by decide +kernel,
    by rw [segBytes_one]; exact nodup_run _ _⟩
theorem witness_packets_full : 64 ≤ (({ port 32 1 with engines := [(0, { Stack.init with rq := List.replicate 64 packet })] } : State).stackAt 0).rq.length := by decide
/-- A fetch of chunk 32 of handle 5. -/
def fetchMsg : FetchMsg := { ten := 0, system := false, handle := 5, step := 3, chunk := 32, stride := 256, odev := 0, ocore := 0, ohart := 0, sdev := 0, score := 0, shart := 0, id := 7 }
theorem witness_fetch_served : let r := fun (l : Option Word) (f : List Word) => recorded [{ handle := 5, chunk := 32, ls := l, failed := f, served := 0 }] (machine bare)
    (machine bare).ownerHart 0 0 0 = some 0 ∧ ((r (some 3) []).core.chunkRec 5 32).ls = some 3 ∧ 3 ∈ ((r none [3]).core.chunkRec 5 32).failed
      ∧ ((r none []).core.chunkRec 5 32).ls = none
      ∧ rangeReason [(0, checkRange { r := true, w := false, lpd := true, lane := false } ((machine bare).at 0 0) 0x2000 256)] = none
      ∧ rangeReason [(0, checkRange { r := true, w := false, lpd := true, lane := false } ((machine { bare with ptroot := 0 }).at 0 0) 0x2000 256)] = some (3, 0)
      ∧ (machine bare).NoErrors ∧ (machine bare).NoMarks :=
  ⟨by decide, by decide, by decide, by decide, by decide +kernel, by decide +kernel, noErrors_of rfl rfl rfl, noMarks_of rfl rfl rfl⟩
/-- A machine whose hart waits at the head of its queue. -/
def stalled (i : Instr) (w : VStall) (s : State) : State := s.modHart (asleep i 0x2000 w)
theorem begun_of {k : Hart} {x : Entry} {r : List Entry} {i : Instr}
    (h : k.q.vq = x :: r ∧ instrOf x.word = some i ∧ x.word.getLsbD 55 = false ∧ k.q.flight = some [0] ∧ k.q.landed = [] ∧ k.q.comb = none ∧ k.store.poison = []) :
    Begun k x r i := ⟨h.1, h.2.1, h.2.2.1, h.2.2.2.1, h.2.2.2.2⟩
theorem witness_fetched : let i := Instr.vldC false 9 3 0 0
    let s := stalled i (.vldC 7 32) (member 0 64 [solo])
    let x : Entry := { queued (wordOf i) 0x1000 (member 0 64 [solo]).hart with sval := 0x2000 }
    Begun (s.hartAt 0 0) x [] i ∧ (s.hartAt 0 0).q.stall = .vldC 7 32 ∧ (winOf x 0).first = 32 ∧ (winOf x 0).per = x.vl
      ∧ dispatchCheck (s.hartAt 0 0) [(x, x.meaning (s.at 0 0))] = none ∧ (bare.q.stall ≠ .vldC 7 32) :=
  ⟨begun_of (by decide +kernel), by decide +kernel⟩
theorem witness_acks : let i := Instr.vstC false 0 1 3 0 0
    let j := Instr.vstr plain 1 3 3 2 6 0
    Begun ((stalled i (.vstC 7 1 []) (member 0 64 [solo])).hartAt 0 0) { queued (wordOf i) 0x1000 (member 0 64 [solo]).hart with sval := 0x2000 } [] i
      ∧ Begun ((stalled j (.vstr 7 [(0, [0, 2])] none) mem4).hartAt 0 0)
        { queued (wordOf j) 0x1000 mem4.hart with sval := 0x2000 } [] j :=
  ⟨begun_of (by decide +kernel), begun_of (by decide +kernel)⟩
/-- A train of two words, of which the second lies outside the windows. -/
def trainMsg : TrainMsg := { ten := 0, sdev := 0, score := 0, shart := 0, tag := 0, id := 7, ddev := 0, width := 4, step := 3, count := 2, check := 0
                             elems := [{ pa := 0x2000, n := 4, cls := 0, data := 5 }, { pa := 0x20000000000, n := 4, cls := 0, data := 6 }] }
theorem witness_train : (delivered (.train trainMsg) (machine bare)).NoErrors ∧ (delivered (.train trainMsg) (machine bare)).NoSnapshot :=
  ⟨noErrors_of rfl rfl rfl, by unfold State.NoSnapshot; decide⟩

-- LaunchesAndSnapshots
/-- Sixteen good words at 0x2000 for a descriptor of one hart on one core, s4 naming them, the completion word at 0x30000. -/
def goodWords : List Word := [0x1000, 0x0000000100002001, 0, 0x10000, 0, 0x30000, 0, 0, 0, 0, 0, 0, 0, 0, 0, 0]
/-- A machine whose tenancy 0 has its windows written as well. -/
def windowed (s : State) : State := s.modTenAt 0 fun x => { x with winbase := x.winbase.set 0 0x8000000000000000, winlim := x.winlim.set 0 0x00000FFFFFFF0000 }
/-- A queue with one descriptor in it. -/
def queueing (ws : List Word) (c : Bool) : State := (windowed (machine bare)).modTenAt 0 fun x => { x with lq := [descOf ws 0x2000], checked := c }
theorem witness_hlaunch : let s := two 0 0x2000
    (s.rd 4).toNat % 128 = 0 ∧ s.memoryQueued = false ∧ s.hart.sbuf = [] ∧ s.Quiet
      ∧ ((List.range 16).all fun j => match s.checkScalar .load 8 (s.rd 4 + BitVec.ofNat 64 (8 * j)) with
        | .ok p => !p.loc.isReg && !s.marked p.loc && !s.hasError p.loc
        | .error _ => false) = true
      ∧ ((two 0 0x2008).rd 4).toNat % 128 ≠ 0 ∧ (loadQueued 1).memoryQueued = true ∧ (loadQueued 1).hart.vec.vs ≠ 0 :=
  ⟨by decide, by decide, by decide, ⟨by decide, by decide⟩, by decide +kernel, by decide, by decide +kernel, by decide⟩
theorem witness_launch_check : ((queueing goodWords false).tenAt 0).lq = [descOf goodWords 0x2000] ∧ (queueing goodWords false).NoErrors
    ∧ (queueing goodWords false).NoSnapshot ∧ ((queueing goodWords false).doneAt 0 ((queueing goodWords false).tenAt 0).openWins (0x10000 &&& ~~~0xFFFF) 0x30000).isSome = true
    ∧ (queueing (goodWords.set 5 0x30001) false).doneAt 0 ((queueing (goodWords.set 5 0x30001) false).tenAt 0).openWins (0x10000 &&& ~~~0xFFFF) 0x30001 = none
    ∧ ((descOf goodWords 0x2000).words.toList.getD 1 0).extractLsb' 0 8 = 1 ∧ 8 * ((queueing goodWords false).groupsOf 0).length ≥ 1
    ∧ ((descOf (goodWords.set 1 0x0000000100002003) 0x2000).words.toList.getD 1 0).extractLsb' 0 8 = 3 :=
  ⟨by decide +kernel, noErrors_of rfl rfl rfl, by unfold State.NoSnapshot; decide, by decide +kernel, by decide +kernel, by decide, by decide +kernel, by decide⟩
theorem witness_launch_place : ((queueing goodWords true).tenAt 0).lq = [descOf goodWords 0x2000] ∧ ((queueing goodWords true).tenAt 0).checked = true
    ∧ ((((queueing goodWords true).groupsOf 0).flatMap fun g => (List.range 8).map (8 * g + ·)).filter fun c => ((queueing goodWords true).coreAt c).launch == none).length = 7
    ∧ ((descOf goodWords 0x2000).words.toList.getD 1 0).extractLsb' 32 16 = 1
    ∧ ((descOf (goodWords.set 1 0x0000000800002001) 0x2000).words.toList.getD 1 0).extractLsb' 32 16 = 8
    ∧ ((machine bare).tenAt 0).lq = [] := by decide +kernel
theorem witness_launch_complete : let s : State := { windowed (machine bare) with launches := [{ launch1 with left := 0 }] }
    s.launches[0]? = some { launch1 with left := 0 } ∧ launch1.ten = 0 ∧ s.NoErrors ∧ s.NoSnapshot ∧ launch1.left ≠ 0
      ∧ (s.doneAt 0 (s.tenAt 0).wins launch1.ptroot launch1.done).isSome = true :=
  ⟨rfl, rfl, noErrors_of rfl rfl rfl, by unfold State.NoSnapshot; decide, by decide, by decide +kernel⟩
/-- Propolis in a state, with units. -/
def snap (st : BitVec 3) (copied : BitVec 24) (us : List Machine.PUnit) (uncut : List (Nat × Nat)) : State := (machine bare).modTenAt 0 fun x => { x with
  wins := (1, 0, 0x1000000) :: x.wins
  prop := { x.prop with st := st, n := 3, parea := 0x100000000001, copied := copied, units := us, uncut := uncut } }
/-- A noted unit. -/
def unit5 (d : Bool) : Machine.PUnit := { unit := 5, page := 5, root := 0x10000, leafAt := 0x10000, image := none, drained := d }
theorem witness_arm : (0x8000000000000003 : Word).getLsbD 63 = true ∧ (3 : Word).getLsbD 63 = false ∧ ((snap 0 0 [] []).tenAt 0).prop.st = 0
    ∧ ((snap 3 0 [] []).tenAt 0).prop.st = 3 ∧ (snap 0 0 [] []).areaGood 0 0x100000000001 = true ∧ (snap 0 0 [] []).areaGood 0 1 = false
    ∧ ((0, 0) ∈ (member 0 1 []).hartsOf 0) ∧ (2 : Nat) < ((member 0 1 []).hartAt 0 0).cfg.cstep.toNat
    ∧ (∀ h ∈ (snap 0 0 [] []).hartsOf 0, ¬ 3 < ((snap 0 0 [] []).hartAt h.1 h.2).cfg.cstep.toNat) := by decide +kernel
theorem witness_snapshot : ((snap 2 0 [unit5 false] []).tenAt 0).prop.units[0]? = some (unit5 false) ∧ (16 : Nat) ≤ (16 : BitVec 24).toNat
    ∧ (((0x100000000001 : Word).toNat % 65536) * 16 = 16) ∧ (snap 2 0 [unit5 false] []).preCutLeft 0 3 = false
    ∧ ((snap 2 0 [] [(0, 0)]).tenAt 0).prop.uncut ≠ [] ∧ (snap 3 0 [unit5 false] []).reachable (((snap 3 0 [unit5 false] []).tenAt 0).prop.pdest >>> 47).toNat = true
    ∧ ((snap 3 0 [unit5 true, unit5 false] []).tenAt 0).prop.units = [unit5 true] ++ unit5 false :: [] := by decide +kernel

-- HostAndManagerWrites
theorem witness_lqpush : ((machine bare).tenAt 0).staging = []
    ∧ (((machine bare).modTenAt 0 fun x => { x with staging := List.replicate 15 0 }).tenAt 0).staging.length = 15
    ∧ ((machine bare).tenAt 0).lq.length < 64
    ∧ 64 ≤ (((machine bare).modTenAt 0 fun x => { x with lq := List.replicate 64 (descOf [] 0) }).tenAt 0).lq.length := by decide +kernel
theorem witness_manager : (machine bare).mgr.state ≠ 2 ∧ (machine bare).mgr.state ≠ 3 ∧ (machine bare).mgr.devlock = true ∧ State.reset.mgr.devlock = false
    ∧ State.reset.mgr.state = 0 ∧ ({ State.reset with mgr := { Mgr.init with state := 3 } } : State).mgr.state = 3
    ∧ (machine bare).launches.any (fun l => l.left != 0) = true ∧ State.reset.launches.any (fun l => l.left != 0) = false
    ∧ 1000 ≤ ((1000 : Word).extractLsb' 0 12).toNat ∧ ((3400 : Word).extractLsb' 0 12).toNat ≤ 3400 ∧ ((999 : Word).extractLsb' 0 12).toNat < 1000
    ∧ 3400 < ((3401 : Word).extractLsb' 0 12).toNat := by decide
theorem witness_groupown : let g : Fin 16 := 1
    (∀ c ∈ (List.range 8).map (8 * g.val + ·), ((machine bare).coreAt c).launch = none) ∧ (machine bare).mgr.groupown[g]? ≠ some 5
      ∧ ((machine bare).coreAt 0).launch ≠ none := by decide +kernel
theorem witness_windows : (∀ l ∈ (machine bare).launches, l.ten = 1 → l.left = 0) ∧ ¬ (∀ l ∈ (machine bare).launches, l.ten = 0 → l.left = 0) := by decide
theorem witness_host_write : memExists 0x2000 ∧ memExists (0x2000 + 8 - 1) ∧ ¬ memExists (0x300000000000 % 2 ^ 47) ∧ memExists (2 ^ 40 - 1)
    ∧ ¬ memExists (2 ^ 40) ∧ memExists (2 ^ 44 + 2 ^ 42 - 1) ∧ (machine bare).NoErrors ∧ (machine bare).NoSnapshot :=
  ⟨by decide, by decide, by decide, by decide, by decide, by decide, noErrors_of rfl rfl rfl, by unfold State.NoSnapshot; decide⟩

-- DebugPort. That a token verifies rests on the scheme, which the model leaves open (log 14).
/-- A module with a session of tenancy 0, DBGSEL and DBGADDR set. -/
def debugging (halted : Bool) (sel addr : Word) : State :=
  ((machine { Regs [(3, 7)] bare with halted := halted }).modTenAt 0 fun x => { x with session := true }).modMgr fun m => { m with dbgsel := sel, dbgaddr := addr }
theorem witness_debug : let s := debugging true 0 0
    s.mgr.state = 1 ∧ s.mgr.sec = false ∧ (s.tenAt 0).session = true ∧ s.selCore = some 0 ∧ (debugging true 0x7F0000 0).selCore = none
      ∧ (s.hartAt 0 0).place.placed = true ∧ (s.hartAt 0 0).halted = true ∧ ((debugging false 0 0).hartAt 0 0).halted = false
      ∧ ((debugging true 0x1000000 0).hartAt 0 1).place.placed = false ∧ (two 0 0).mgr.state = 1 ∧ ((two 0 0).tenAt 0).session = false
      ∧ State.reset.mgr.state ≠ 1 ∧ (s.modMgr fun m => { m with sec := true }).mgr.sec = true ∧ (s.tenAt 0).token = false
      ∧ (two 0 0).tokenGood = false := by decide +kernel
/-- A manager block with DBGADDR set. -/
def naming (a : Word) : Mgr := { Mgr.init with dbgaddr := a }
theorem witness_debug_places : (naming 3).dbgPlace = some (.sreg 3) ∧ (naming 0x010000000000005A).dbgPlace = some (.csr 0x5A)
    ∧ (naming 0x0200000000020005).dbgPlace = some (.chunk 2 5) ∧ (naming 0x0300000000020005).dbgPlace = some (.mask 2 5)
    ∧ (naming 0x0400000000000022).dbgPlace = some (.tile 0 1 1) ∧ (naming 0x0600000000000009).dbgPlace = some (.lane 9)
    ∧ (naming 0x0700000000000003).dbgPlace = some (.route 3) ∧ (naming 0x0800000000000000).dbgPlace = some .pc
    ∧ (naming 0x20).dbgPlace = none ∧ (naming 0x0800000000000001).dbgPlace = none ∧ (naming 0x0900000000000000).dbgPlace = none :=
  ⟨rfl, rfl, rfl, rfl, rfl, rfl, rfl, rfl, rfl, rfl, rfl⟩
theorem witness_trace : (debugging true 0 0).traceGood = true
    ∧ ((debugging true 0 0).modMgr fun m => { m with dbgtbuf := 0x20000000000 }).traceGood = false := by decide +kernel

/-! ### More witnesses: a state for every clause that stands beside the main ones -/

-- TrapReturn: a stopped convoy, and words of which none has started
/-- A handler with a VMUL stopped in the queue and an ES0. -/
def stopped (es : BitVec 32) : State := (handler 0x2000 true).modHart fun k => { k with
  vec := { k.vec with es := k.vec.es.set 0 es }
  q := { k.q with vq := [{ queued 0x1200C22000000000 0x3000 k with pre := true }] } }
theorem witness_trap_return_es : (stopped 8).hart.q.vq ≠ [] ∧ (stopped 8).hart.vec.es[(0 : Fin 6)] ≠ 0 ∧ (∀ i : Fin 6, (stopped 0).hart.vec.es[i] = 0)
    ∧ (stopped 8).hart.vec.vs ≠ 0 ∧ (stopped 8).hart.vec.vp = true := by decide

-- StoresEnterTheBuffer: a leaf of which D is clear, and one in a line with an error, that the MMU still serves from its
-- cache (log 11: the free value Config.stale says whether it does)
/-- Memory at 0x2000 with D clear in its leaf. -/
def cleanPage : State := { data with mem := mput memDefault data.mem 0x10000 0x1F }
theorem witness_clean_leaf : (match cleanPage.checkScalar .put 8 0x2000 with
    | .ok p => !cleanPage.dirtyFails p && p.tr.any fun t => !t.d
    | .error _ => false) = true := by decide +kernel
/-- The same with the translation cached and an error in the leaf's line. -/
def stalePage : State := { cleanPage.touch 0 data.hart 0x2000 with latent := [256] }
theorem stalePage_walks (h : Config.stale 0 0 = true) : stalePage.walkStage 0 stalePage.hart .put (0x2000 : Word).toNat
    = .ok ({ pte := 0x1F, level := 0, at_ := 0x10000 }, { pa := 0x2000, dev := 0, cls := 0, sf := 0, srm := 0, leaf := 0x10000, d := false }) := by
  have w : stalePage.leafFor 0 stalePage.hart.place.ten.toNat stalePage.hart.ptroot (0x2000 : Word).toNat = .ok { pte := 0x1F, level := 0, at_ := 0x10000 } := by
    unfold State.leafFor
    rw [show stalePage.walk stalePage.hart.place.ten.toNat stalePage.hart.ptroot (0x2000 : Word).toNat = .error (.error 256) from by decide +kernel]
    exact if_pos h
  unfold State.walkStage
  rw [w]
  decide +kernel
theorem witness_dirty_fails (h : Config.stale 0 0 = true) : ∃ p, stalePage.checkScalar .put 8 0x2000 = .ok p ∧ stalePage.dirtyFails p = true
    ∧ p.tr.isSome = true := by
  refine ⟨{ va := 0x2000, loc := .mem 0x2000, tr := some { pa := 0x2000, dev := 0, cls := 0, sf := 0, srm := 0, leaf := 0x10000, d := false } }, ?_, by decide +kernel⟩
  unfold State.checkScalar State.checkParts
  simp only [List.map_cons, List.map_nil, show spaceOf 0x2000 = some .translated from by decide, show stalePage.cc = 0 from rfl, stalePage_walks h]
  decide +kernel

-- BufferedStorePerforms, ScalarAtomics: an empty buffer, and TRAPVEC through a page of the register region
/-- A system level hart whose page at 0 names its tenancy's register block, s3 TRAPVEC. -/
def regPage : State := { handler 0x2000 false with
  mem := (bytesOf 8 (2 ^ 45 + 0x3F)).zipIdx.foldl (fun m p => mput memDefault m (0x10000 + p.2) p.1) [] }
/-- TRAPVEC as a checked place. -/
def partReg : Part := { va := 0x88, loc := .reg 0 0x88, tr := some { pa := 2 ^ 45 + 0x88, dev := 0, cls := 0, sf := 0, srm := 0, leaf := 0x10000, d := true } }
theorem witness_buffered_reg : data.hart.sbuf = [] ∧ (data.modHart fun k => { k with sbuf := [sbuf1 (.reg 0 0x88)] }).hart.sbuf = sbuf1 (.reg 0 0x88) :: []
    ∧ (sbuf1 (.reg 0 0x88)).n = 8 ∧ 0x88 ∈ [0x88, 0x98, 0x210] := by decide
theorem witness_amo_reg : regPage.checkScalar .amo 8 0x88 = .ok partReg ∧ regPage.hart.amoWaits true partReg.loc 8 = false
    ∧ regPage.marked partReg.loc = false ∧ regPage.hasError partReg.loc = false ∧ partReg.loc = .reg 0 0x88 := by decide +kernel
theorem witness_amo_waits : (data.modHart fun k => { k with sbuf := [sbuf1 (.mem 0x2000)] }).hart.amoWaits true part2000.loc 8 = true
    ∧ (data.modHart fun k => { k with sbuf := [sbuf1 (.mem 0x2000)] }).checkScalar .amo 8 0x2000 = .ok part2000 := by decide +kernel
theorem witness_amo_marked : ({ data with marks := [32] } : State).marked part2000.loc = true ∧ ({ data with marks := [32] } : State).Calm
    ∧ ({ data with marks := [32] } : State).checkScalar .amo 8 (data.rd 3) = .ok part2000
    ∧ ({ data with latent := [32] } : State).marked part2000.loc = false ∧ ({ data with latent := [32] } : State).hasError part2000.loc = true
    ∧ ({ data with latent := [32] } : State).Calm ∧ ({ data with latent := [32] } : State).checkScalar .amo 8 (data.rd 3) = .ok part2000 :=
  ⟨by decide, ⟨by decide, by decide, by decide, by decide⟩, by decide +kernel, by decide, by decide, ⟨by decide, by decide, by decide, by decide⟩, by decide +kernel⟩
theorem test_amo_reg : (after (exec (.amoSwap 5 3 4 true false false .M) ((regPage.wr 3 0x88).wr 4 0x1003))).readReg 0 0x88 8 = 0x1000
    ∧ (after (exec (.amoSwap 5 3 4 true false false .M) ((regPage.wr 3 0x88).wr 4 0x1003))).rd 5 = 0 := by decide +kernel

-- BlocksAreCapturedAndPlaced: words from before a trap, a scan that fails, a pending register, an empty block
theorem witness_block_pre : (stopped 8).Calm ∧ (stopped 8).hart.trap.system = true ∧ ((stopped 8).hart.q.vq ++ (stopped 8).hart.q.cq).any (fun e => e.pre) = true
    ∧ block.hart.trap.system = false :=
  ⟨⟨by decide, by decide, by decide, by decide⟩, by decide⟩
/-- The block with no page table. -/
def noPages : State := block.modHart fun k => { k with ptroot := 0 }
theorem witness_block_scan : noPages.Calm ∧ noPages.hart.vec.vs ≠ 0 ∧ (noPages.scan 0x1010 256 0x1010 []).toOption = none :=
  ⟨⟨by decide, by decide, by decide, by decide⟩, by decide, by decide +kernel⟩
/-- The block behind a word that writes s5. -/
def pendingBlock : State := block.modHart fun k => { k with q := { k.q with vq := [queued (wordOf (.mpop plain 5 1)) 0x2000 k], nextSeq := 1 } }
theorem witness_block_pending : (match pendingBlock.scan 0x1010 256 0x1010 [] with
    | .ok (ws, _) => ws.any fun w => (wordSources w).any fun r => pendingBlock.hart.pending r
    | .error _ => false) = true ∧ pendingBlock.hart.vec.vs ≠ 0 := by decide +kernel
/-- The block with BPC past its two words. -/
def pastBlock : State := block.modHart fun k => { k with vec := { k.vec with bpc := 2 } }
theorem witness_block_empty : (match pastBlock.scan 0x1010 256 0x1010 [] with
    | .ok (ws, _) => decide (ws.length = 2)
    | .error _ => false) = true ∧ pastBlock.hart.vec.bpc.toNat = 2 := by decide +kernel
theorem test_block_empty : (after (exec (.vblk 2) pastBlock)).hart.vec.bpc = 2 ∧ (after (exec (.vblk 2) pastBlock)).hart.pc = 0x1004 := by decide +kernel

-- CsrReadAndWrite: the waits of R47, and VSTAT under way
theorem witness_csr_waits : csrWaits 0x014 = true ∧ csrWaits 0x020 = false ∧ (loadQueued 1).hart.liveWords ≠ [] ∧ (loadQueued 1).hart.vec.vs ≠ 0
    ∧ (loadQueued 0).hart.vec.vs = 0 ∧ (loadQueued 0).hart.liveWords ≠ [] ∧ csrReads false 0x014 = true ∧ csrWrites false 0x014 = true
    ∧ (loadQueued 1).hart.wait = .none ∧ csrReads false 0x012 = true ∧ csrWaits 0x012 = false := by decide
/-- A hart whose access of VSTAT has read BPC 3. -/
def vstatHeld : State := machine (Regs [(3, 8)] { bare with wait := .csr 3 })
theorem witness_csr_held : vstatHeld.Quiet ∧ vstatHeld.hart.wait = .csr 3 ∧ vstatHeld.hart.liveWords = [] := ⟨⟨by decide, by decide⟩, by decide⟩
theorem test_csrr_vstat_held : ((after (exec (.csrr 5 0 0x014) vstatHeld)).rd 5).extractLsb' 12 8 = 3 := by decide

-- QueuesSavedAndLoaded
theorem witness_vqsave_bytes : saving.NoSnapshot
    ∧ (match saving.checkPieces .put (unitPieces 3 (saving.rd 3) (8 * saving.hart.image.length)) with
      | .ok ps => ps.all fun p => !saving.dirtyFails p.1 && !p.1.loc.isReg
      | .error _ => false) = true
    ∧ saving.latent = []
    ∧ ((saving.hart.q.vq.map fun e => (false, e)).filter fun x => !x.1).map Prod.snd = saving.hart.q.vq :=
  ⟨by unfold State.NoSnapshot; decide, by decide +kernel, by decide, by decide⟩
theorem witness_vqload_refused : saving.Calm ∧ saving.hart.q.vq ≠ [] ∧ ((handler 0x2000 false).wr 4 289).Calm ∧ 288 < (((handler 0x2000 false).wr 4 289).rd 4).toNat
    ∧ ((handler 0x2000 false).wr 4 289).hart.queued = false ∧ (((handler 0x2000 false).wr 4 288).wr 3 0x2008).Calm
    ∧ ((((handler 0x2000 false).wr 4 288).wr 3 0x2008).rd 3).toNat % 32 ≠ 0 ∧ ((((handler 0x2000 false).wr 4 288).wr 3 0x2008).rd 4).toNat ≤ 288
    ∧ (((handler 0x2000 false).wr 4 288).wr 3 0x2008).hart.queued = false :=
  ⟨⟨by decide, by decide, by decide, by decide⟩, by decide, ⟨by decide, by decide, by decide, by decide⟩, by decide, by decide,
    ⟨by decide, by decide, by decide, by decide⟩, by decide⟩

-- VectorLoadResults: VLD.K with no mark in the chunks of its mask that it reads
theorem witness_vld_k_clean : let x := bound.capture 3 0
    let r : BindRec := { dest := 0x2000, len := 512, csz := 8, nc := 2, bound := true }
    ∀ e < x.vl, kMarked .unit x.sval r 3 32 x bound.hart e = false := by decide +kernel

-- CombResults: the stages of CTRI on the panel that 10_comb R232 works out
theorem test_stage2_panel : stage2 ([value 0 0x3F800000, value 0 0xBF800000, .num false 1 (-45) false] ++ List.replicate 61 (Val.zero false)) (Val.zero false) = 0 := by decide +kernel
theorem test_stage2_keeps : stage2 [.num false 1 (-45) false, Val.zero false] (Val.zero false) = 0x29000000 := by decide +kernel
theorem test_stage1_zero_inf : stage1 (Val.zero false) (.num false 2 0 false) (.inf true) = .nan ∧ stage1 (.inf false) (.num true 1 0 false) (.num false 1 0 false) = .inf true := by decide

-- QueuesRunTheirHeads, AsynchronousTraps: an instruction that has begun, and a level that is awaited
theorem witness_begun : (machine { bare with wait := .begun }).hart.wait = .begun ∧ (two 0 0).awaited.contains .issue = true
    ∧ (two 0 0).awaited.contains .comb = false ∧ (loadQueued 1).awaited.contains .slice = true := by decide +kernel

-- RouteWords, RouteArrivals: a header that names no core of another device, and a core whose clock stands
theorem witness_rret_elsewhere : ((0x0000E40000000000 : Word).extractLsb' 39 8).toNat = 200 ∧ ¬ 200 < 128 ∧ ((0x0000800000000000 ||| 0x0000640000000000 : Word).extractLsb' 47 17).toNat = 1 := by decide
theorem witness_frame_clock : openFrame.core.power ≠ 2 ∧ (openFrame.modHart fun k => { k with place := { k.place with placed := false } }).core.power = 2
    ∧ ((openFrame.modHart fun k => { k with place := { k.place with placed := false } }).core.frame 0).st = 1 := by decide

-- EngineCommands: a card whose rows have no translation is refused with WALK at FIELD 1
theorem witness_enq_walk : let s := (slots iredSlot).modHart fun k => { k with ptroot := 0 }
    cardReason iredSlot (cardRanges iredSlot s) [] s = some (3, 1) ∧ ((cardRanges iredSlot s).dst.filter Piece.walk).length = 1 := by decide +kernel

-- EngineWork: rows on stack 1 can meet the bound of stack 0; RFILL cannot
theorem witness_afar : (∃ r ∈ (card 1 3 2 12 12).rows.take 1, ∃ g ∈ r, stackOf g.pa ≠ 0) ∧ (card 1 3 2 12 12).count = 2 :=
  ⟨⟨_, List.mem_cons_self, _, List.mem_cons_self, by decide⟩, rfl⟩
theorem witness_no_bound : let c := { card 3 0 2 1 4096 with rows := [] }
    (carded c).stackAt 0 = { Stack.init with cards := [(0, [c])] } ∧ c.rows = [] ∧ 2 ≤ (2 : BitVec 7).toNat := ⟨rfl, rfl, by decide⟩

-- Collectives: a train for a device that cannot be reached, and contributions of a step that is past or on its way
/-- Memory of device 1 at 0, in a module whose ports carry nothing yet. -/
def abroad : State := { mem2 with
  mem := (bytesOf 8 (2 ^ 47 + 0x3F)).zipIdx.foldl (fun m p => mput memDefault m (0x10000 + p.2) p.1) []
  mgr := { mem2.mgr with devlock := false } }
theorem witness_vstr_unreached : (match abroad.parts .vremote 0x2004 4 with
      | .ok ps => ps.all fun p => p.1.tr.any fun t => t.dev == 1
      | .error _ => false) = true
    ∧ abroad.reachable 1 = false ∧ (elemAddr (.indexed 2) (baseOf (abroad.capture 3 6) 0) (abroad.capture 3 6) abroad.hart 32 2).1 = 0x2004 := by decide +kernel
theorem witness_known : (contribution 0).step.toNat ≤ (3 : Word).toNat
    ∧ (let e : Stack := { Stack.init with rq := [{ packet with chunk := 32 }] }
      ∃ p ∈ e.rq, p.core = 0 ∧ p.launch = (machine bare).core.launch ∧ p.handle = (contribution 0).handle ∧ p.chunk = (contribution 0).chunk ∧ p.step = (contribution 0).step) :=
  ⟨by decide, _, List.mem_cons_self, by decide⟩
theorem witness_combine_order : let y := ((machine bare).modCore fun y => { y with staged := [contribution 0, { contribution 0 with step := 2 }] }).core
    (y.allRanks { contribution 0 with step := 2 }).isSome = true ∧ ((port 32 1).core.staged.all fun o => !decide (o.step.toNat < 3)) = true := by decide +kernel
theorem witness_train_ack_core : (mem4.physCore 0 0).getD 128 = 0 ∧ (mem4.physCore 0 200).getD 128 = 128 ∧ (mem4.hartAt 128 0).q.stall = .none := by decide

-- LaunchesAndSnapshots
theorem witness_launch_gated : ((queueing goodWords false).modMgr fun m => { m with state := 0 }).mgr.state ≠ 1 ∧ (queueing goodWords false).mgr.state = 1
    ∧ ((queueing goodWords true).tenAt 0).winSet = false ∧ (((queueing goodWords true).modTenAt 0 fun x => { x with winSet := true }).tenAt 0).winSet = true
    ∧ (data.modHart fun k => { k with sbuf := [sbuf1 (.mem 0x2000)] }).hart.sbuf ≠ [] := by decide +kernel
/-- The unit noted, its snapshot area of 1 MiB, and so many copies in it. -/
def snapArea (copied : BitVec 24) (uncut : List (Nat × Nat)) : State := (snap 2 copied [unit5 false] uncut).modTenAt 0 fun x => { x with
  prop := { x.prop with area := 0x100000000001 } }
theorem witness_copy_area : ((0x100000000001 : Word).toNat % 65536) * 16 ≤ ((snapArea 16 []).tenAt 0).prop.copied.toNat
    ∧ ((snapArea 16 [(0, 0)]).tenAt 0).prop.uncut ≠ [] ∧ ((snapArea 16 []).tenAt 0).prop.uncut = []
    ∧ ¬ ((0x100000000001 : Word).toNat % 65536) * 16 ≤ ((snapArea 15 []).tenAt 0).prop.copied.toNat
    ∧ ((snapArea 15 []).tenAt 0).prop.units[0]? = some (unit5 false) ∧ ((snapArea 15 []).tenAt 0).prop.area = 0x100000000001 := by decide +kernel
theorem witness_copy_canonical : (snapArea 15 []).memOk := by unfold State.memOk; decide +kernel
theorem witness_all_drained : ((snap 3 1 [unit5 true] []).tenAt 0).prop.units = [unit5 true] ∧ ∀ z ∈ [unit5 true], z.drained = true := by decide +kernel

-- HostAndManagerWrites
theorem witness_ports : (71 : BitVec 16).toNat < 72 ∧ 72 ≤ (72 : BitVec 16).toNat := by decide
theorem witness_host_gated : ({ machine bare with mgr := { (machine bare).mgr with state := 3 } } : State).mgr.state ≠ 1 ∧ (machine bare).mgr.state = 1 := by decide
theorem test_window_base : ((after (exec (.windowWrite 1 0 false 0x8000000000010000) (two 0 0))).tenAt 1).winbase[0]? = some 0x10000
    ∧ ((after (exec (.windowWrite 1 0 false 0x8000000000010000) (after (exec (.windowWrite 1 0 true 0x20000) (two 0 0))))).tenAt 1).winbase[0]? = some 0x8000000000010000 := by
  decide +kernel

-- DebugPort
theorem witness_debug_gated : ((debugging true 0 0).modMgr fun m => { m with busy := some (0, 0) }).mgr.busy ≠ none ∧ (debugging true 0 0).mgr.busy = none
    ∧ ((debugging true 0 0).modMgr fun m => { m with state := 2 }).mgr.state = 2 ∧ State.reset.mgr.state ≠ 1 ∧ State.reset.mgr.busy = none
    ∧ ((debugging false 0 0).modHart fun k => { k with wait := .begun }).hart.wait = .begun := by decide +kernel
theorem witness_step_ends : (machine { bare with dbgStep := true }).mgr.traced = none ∧ (machine { bare with dbgStep := true }).hart.dbgStep = true := by decide
theorem test_step_then_done : (after (exec .step (debugging true 0 0))).mgr.dbgres = 0
    ∧ (after (exec (.addi 5 3 1) (after (exec .step (debugging true 0 0))))).mgr.dbgres = 1
    ∧ (after (exec (.addi 5 3 1) (after (exec .step (debugging true 0 0))))).hart.halted = true := by decide +kernel

-- StepRunsTheTurn: a hart that has gone on, and one that waits again
theorem witness_moved : (two 1 2).hart.moved (after (exec (.add 5 3 4) (two 1 2))).hart = true
    ∧ ((two 1 2).modHart fun k => { k with wait := .hbar }).hart.moved ((two 1 2).modHart fun k => { k with wait := .hbar }).hart = false := by decide
-- CachesAndTranslations: a store of the core is under way
theorem witness_accessing : let s := (handler 0x2000 false).modHart fun k => { k with sbuf := [sbuf1 (.mem 0x2000)] }
    s.hart.trap.system = true ∧ ∃ p ∈ s.cores, mmuScope .M s.cc p.1 = true ∧ s.accessing p.1 s.hart.place.ten = true := by decide
-- ValueClassResults, RoundedElementsLand: a quotient that is exact, and one known to 400 bits
theorem witness_stands : Stands 3 (-1) false (3 / 2) ∧ Stands (2 ^ 64) (-64) true (1 + 1 / 2 ^ 65) := by
  constructor <;> norm_num [Stands]
theorem witness_quotient : (3 : Nat) ≠ 0 ∧ (104 : Int) - (-149) ≤ 300 ∧ Val.div (.num false 3 0 false) (.num true 2 0 false) = .num true (3 * 2 ^ 401) (-402) false := by
  decide +kernel
-- FunctionAndConversionResults
theorem witness_power : |(-3 : ℤ)| ≤ 1000 ∧ (Val.num true 3 0 false).rat = (-3 : ℤ) ∧ (Val.num true 3 0 false).exp2 = .num false 1 (-3) false := by
  refine ⟨by decide, by norm_num [Val.rat], by decide⟩
-- StoredElementBytes: the second of two elements of VSTX at one place, which the first covers too
/-- Two elements of which each stores the word at 0x2000. -/
def both : State := machine (ElemsOf 32 2 [0, 0] (ElemsOf 32 1 [5, 6] (Regs [(3, 0x2000), (6, 0x1200)] (Len 2 bare))))
theorem witness_covered : let x := both.capture 3 6
    (locate (.indexed 2) .vput 0x2000 (fun u e => u.active none e) x 1 both).toOption.isSome = true
      ∧ ∃ os, storeAccs (.indexed 2) 0x2000 (fun u e => u.active none e) 1 x both 0 = some os
        ∧ ∃ o ∈ os, o.covers (.mem 0x2000) 3 :=
  ⟨by decide +kernel, [{ loc := .mem 0x2000, bytes := List.replicate 4 (0, 0xFF) }], by decide +kernel, _, List.mem_singleton.mpr rfl,
    by simp [Acc.covers]⟩
-- QueuesSavedAndLoaded, StoresEnterTheBuffer: a translation that has D clear, and one that has it set
theorem witness_dirties : (match cleanPage.checkScalar .put 8 0x2000, data.checkScalar .put 8 0x2000 with
    | .ok p, .ok q => p.dirties && !q.dirties
    | _, _ => false) = true := by decide +kernel
-- LaunchesAndSnapshots: a store past the cut to the noted unit
theorem witness_store_past_cut : let s := snapArea 15 []
    (∀ o, o ≠ 0 → (s.tenAt o).prop.st ∉ [1, 2, 3])
      ∧ (s.tenAt 0).prop.units.find? (fun y => y.unit == 0x50008 / 65536 && !y.drained) = some (unit5 false)
      ∧ ∀ c : Word, some (4 : Word) = some c → (3 : BitVec 48).toNat < c.toNat := by
  refine ⟨fun o h => ?_, by decide +kernel, fun c h => by cases h; decide⟩
  have e : (snapArea 15 []).tenAt o = (machine bare).tenAt o := (mget_mset_ne _ _ _ _ _ h).trans (mget_mset_ne _ _ _ _ _ h)
  rw [e, show (machine bare).tenAt o = Ten.init from by simp [State.tenAt, machine, mget, h]]
  decide
-- StepRunsTheTurn, FetchReadsMemory: a branch to itself goes on, and the grant of its issue is noted
theorem test_branch_to_itself : let s := two 1 1
    let t := after (exec (.beq 3 4 0) s)
    t.hart.pc = s.hart.pc ∧ s.hart.moved t.hart = false ∧ goesOn (.beq 3 4 0) = true ∧ goesOn (.add 5 3 4) = false
      ∧ (after (s.granting true [.issue] (.next t))).core.lastGrant ≠ s.core.lastGrant := by decide +kernel
-- BufferedStorePerforms: a lane-memory word with a mark and an error, written whole and in part
/-- A buffered store to word 0 of lane memory, of which words 0 and 1 are marked and 0 has an error. -/
def laneStore (n : Nat) : State := (data.modHart fun k => { k with sbuf := [{ sbuf1 (.lm 0 0) with n := n }] }).modCore fun y => { y with
  lmMarks := [0, 1], lmLatent := if n = 8 then [0] else [] }
theorem witness_lane_store : (laneStore 8).hart.sbuf = [sbuf1 (.lm 0 0)] ∧ (sbuf1 (.lm 0 0)).n = 8 ∧ (0 : Nat) % 8 = 0
    ∧ (laneStore 4).hart.sbuf = [{ sbuf1 (.lm 0 0) with n := 4 }] ∧ ∀ w ∈ ((laneStore 4).coreAt 0).lmLatent, w ≠ lmIndex 0 ∧ w ≠ lmIndex 0 + 1 := by decide
theorem test_lane_store_mark : (after (exec .storeBufferWrite (laneStore 8))).core.lmMarks = [1] ∧ (after (exec .storeBufferWrite (laneStore 8))).core.lmLatent = []
    ∧ (after (exec .storeBufferWrite (laneStore 4))).core.lmMarks = [0, 1] := by decide +kernel
-- StoredElementBytes: two words that fill a chunk, and the same with an error in their line that no mark records
/-- Two words for 0x2000, and lines with an error. -/
def chunked (l : List Nat) : State := { machine (Elems 1 [5, 6] (Regs [(3, 0x2000)] (Len 2 bare))) with latent := l }
/-- The run of the whole store. -/
def whole2 : StoreRun := { lo := 0, hi := 2, anyOrder := false, full := [] }
theorem witness_full_chunk : let x := (chunked []).capture 3 0
    (chunked []).NoSnapshot ∧ (chunked [32]).NoSnapshot ∧ (chunked []).NoErrors
      ∧ (match locate .unit .vput 0x2000 (fun u e => u.active none e) x 1 (chunked []) with
        | .ok l => fullChunk .unit whole2 0x2000 (fun u e => u.active none e) 1 x (chunked []) 1 l == some 0
        | .error _ => false) = true
      ∧ (match locate .unit .vput 0x2000 (fun u e => u.active none e) x 0 (chunked [32]) with
        | .ok l => (elemAccs .unit whole2 0x2000 (fun u e => u.active none e) 1 x (chunked [32]) 0 l (storePat x (chunked [32]).hart 1 0 l).1).any fun o => o.loc == .mem 0x2000
        | .error _ => false) = true ∧ lineOf 0x2000 = 32 ∧ (chunked [32]).hart.elemMarked x.cfg 1 32 0 = false :=
  ⟨by unfold State.NoSnapshot; decide, by unfold State.NoSnapshot; decide, noErrors_of rfl rfl rfl, by decide +kernel⟩
theorem test_chunk_at_once : (match storeElem .unit whole2 0x2000 (fun u e => u.active none e) 1 ((chunked []).capture 3 0) 0 (chunked []) with
    | .ok t => decide (t.readMem 0x2000 8 = 0x600000005)
    | .error _ => false) = true
    ∧ (match storeElem .unit whole2 0x2000 (fun u e => u.active none e) 1 ((chunked [32]).capture 3 0) 0 (chunked [32]) with
    | .ok t => decide (t.readMem 0x2000 8 = 0 ∧ t.marks = [32])
    | .error _ => false) = true := by decide +kernel
-- CombResults: words that name a tile beyond the share
theorem witness_beyond_share : cshapeOf (quarter 0).hart.vec.cshape = cshapeOf 0 ∧ (cshapeOf 0).mode = 0 ∧ ((quarter 0).capture 0 0).fmt.scl = 0 := by decide
theorem test_beyond_share : [Instr.cget 9 3 3 0 0 0 0 0, .cgetc 9 3 3 0 0 0 0 0, .cput 3 9 3 0 0 0 0 0, .tsave 3 3 8, .tload 3 3 8, .ctri 3 1 2 0 0 0 0].all fun i =>
    (after (exec i (quarter 0))).hart.trap.scause == 0x206 && (after (exec i (quarter 0))).hart.trap.stval == 0x1000 := by decide +kernel
-- QueuesRunTheirHeads, EngineCommands: an ENQ of two commands takes two grants, the work of one with each
/-- Two commands and their ENQ in the vector queue. -/
def twoCards : State :=
  machine (queues [wordOf (.enqStk plain 20 1 8)] [] (ElemsOf 64 8 ((iredSlot ++ iredSlot).map BitVec.toNat) (Len 2 bare)))
/-- The same with the first command queued. -/
def oneSent : State := after (exec (.convoyDispatch 0) twoCards)
theorem witness_grants : let s := twoCards
    let x := queued (wordOf (.enqStk plain 20 1 8)) 0x2000 s.hart
    s.hart.q.vq.head? = some { x with sval := 0, fval := 0, cfg := s.hart.cfg } ∧ x.word.getLsbD 55 = false ∧ s.hart.queuesRun [x] = true
      ∧ s.convoyFree [(x, x.meaning s)] = true ∧ dispatchCheck s.hart [(x, x.meaning s)] = none ∧ s.hart.q.begun = none
      ∧ maskMark (x.meaning s) s.hart 0 (x.meaning s).len = none ∧ (x.meaning s).span 0 = some 1 ∧ x.vl ≤ 64 := by decide +kernel
theorem witness_grants_go_on : let s := oneSent
    let x := queued (wordOf (.enqStk plain 20 1 8)) 0x2000 s.hart
    s.hart.q.begun.isSome = true ∧ s.hart.q.flight = some [1] ∧ s.hart.queuesRun [x] = true ∧ s.convoyFree [(x, x.meaning s)] = true
      ∧ (x.meaning s).span 1 = none ∧ s.hart.sequencing = true := by decide +kernel
theorem test_grants_one_by_one : oneSent.hart.q.vq.length = 1 ∧ (oneSent.engines.map fun e => e.2.cards.map fun p => p.2.length) = [[1]] ∧ twoCards.core.lastGrant ≠ oneSent.core.lastGrant
    ∧ (after (exec (.convoyDispatch 0) oneSent)).hart.q.vq = [] := by decide +kernel
-- DebugPort: a HALT between the two grants
theorem witness_halt_between : let s := (debugging false 0 0).modHart fun k => { oneSent.hart with dbgStep := k.dbgStep }
    s.hart.sequencing = true ∧ s.hart.wait ≠ .begun ∧ s.hart.halted = false ∧ (headRun s.hart.q.vq).isSome = true ∧ s.hart.q.flight = some [1]
      ∧ (match runConvoy s (((headRun s.hart.q.vq).getD []).map (Entry.cword s)) [1] (2 ^ 32) with
        | .done t => t.cc == 0 && t.ch == 0
        | _ => false) = true
      ∧ (after (exec .halt s)).hart.q.vq = [] := by decide +kernel
-- AsynchronousTraps: the queues are lost with the check that is taken; 08_memory R174: a leaf in a line with an error
theorem test_queues_lost : let s := twoCards.modHart fun k => { k with trap := { k.trap with checks := [.queues] } }
    (after (exec .trapTake s)).hart.q.vq = [] := by decide +kernel
theorem witness_leaf_error : let s : State := { snap 3 0 [unit5 false] [] with latent := [256] }
    ((s.tenAt 0).prop.units = [unit5 false]) ∧ smem s.latent (lineOf (unit5 false).leafAt) = true
      ∧ (after (exec (.propolisDrainRefused 0) s)).marks = [256]
      ∧ smem (snap 3 0 [unit5 false] []).latent (lineOf (unit5 false).leafAt) = false := by decide +kernel
-- StoredElementBytes: an element on a converting page
theorem witness_converting : (match locate .unit .vput 0x2000 (fun u e => u.active none e) (srPage.capture 4 0) 0 srPage with
    | .ok l => decide (l.sf ≠ 0) && decide (l.sf ≤ 4) && (l.ps.head?.bind fun p => p.1.tr).isSome
    | .error _ => false) = true := by decide +kernel
-- 08_memory R182 with 14_system R317: a store before the decider that waits for a load before it
theorem test_held_loads : heldLoads [{ c := true, slots := [.l] }, { c := true, slots := [.s] }, { c := false, slots := [.p] }] 2 = 1
    ∧ heldLoads [{ c := true, slots := [.l] }, { c := true, slots := [.s] }, { c := false, slots := [.p] }] 1 = 0 := by decide
-- 00_scope R5: a page with U = 0 is out of a program's reach through a port, whatever the owner's level is
theorem test_port_level : let s := { port 32 1 with mem := [(0x10000, 0x2F)] }.asLevel true
    let use : RangeUse := { r := false, w := true, lpd := true, lane := false }
    (rangeReason [(0, checkRange use (s.asLevel false) 0x2000 256)]).isSome = true ∧ rangeReason [(0, checkRange use s 0x2000 256)] = none := by decide +kernel
-- CompareResults, ReductionResults
theorem test_orders : cmpV (value 0 0xBF800000) (.inf true) = some .gt ∧ cmpV (value 0 0x3F800000) (value 0 0x40000000) = some .lt := by decide +kernel
theorem witness_reduction_parts : Val.nan ∈ [Val.nan] ∧ Val.inf false ∈ [Val.inf false] ∧ Val.nan ∉ [Val.inf false] ∧ Val.inf true ∉ [Val.inf false]
    ∧ value 9 0x80 ≠ .nan ∧ (0x80 : Nat) < 2 ^ memWidth 9 := by decide +kernel
/-- A CSHP with no legal shape beside a VLD.C that waits for chunk 5 of its data. -/
def shapingLate : State := (shaping 0).modHart fun k => { k with q := { k.q with stall := .vldC 7 32, flight := some [5] } }
theorem witness_comb_late : let s := shapingLate
    let x := queued (wordOf (.cshp 3)) 0x2000 s.hart
    s.Quiet ∧ s.hart.q.cq = [x] ∧ s.hart.queuesRun [x] = true ∧ s.combFree (x, x.meaning s) = true
      ∧ (dispatchCheck s.hart [(x, x.meaning s)]).isSome = true ∧ s.hart.q.stall = .vldC 7 32 ∧ s.hart.q.flight = some [5] ∧ s.hart.q.landed = [] :=
  ⟨⟨by decide, by decide⟩, by decide +kernel⟩
theorem test_comb_late : (after (exec .combWordIssue shapingLate)).hart.vec.es[(0 : Fin 6)] = 5 := by decide +kernel
-- AsynchronousTraps: a tile's machine check as VLD.C waits
theorem witness_check_late : let s := (dueNow [.tile 3] none false false).modHart fun k => { k with q := { k.q with stall := .vldC 7 32, flight := some [5] } }
    s.hart.place.placed = true ∧ s.hart.halted = false ∧ s.hart.wait ≠ .begun ∧ s.hart.q.landed = [] ∧ s.hart.q.stall = .vldC 7 32
      ∧ s.hart.q.flight = some [5] ∧ s.hart.trap.checks = [.tile 3] ∧ (after (exec .trapTake s)).hart.vec.es[(0 : Fin 6)] = 5 := by decide +kernel
-- EngineCommands: no command at all
theorem witness_enq_none : let s := machine (Len 0 bare)
    let x := s.capture 0 0
    let gs := ({ base := 8, n := 0, w := 512 } : Grp)
    let ys := ({ base := 20, n := 0, w := 64 } : Grp)
    Runs s.hart x none [ys] [gs] (fun _ => []) ∧ x.vl = 0 ∧ overlapAny s.hart x.cfg [ys] [gs] = false ∧ s.hart.isBound 3 = false :=
  ⟨runs_of (by decide +kernel), by decide +kernel⟩
-- LaunchesAndSnapshots: windows that do not hold a snapshot, and a store past the cut that waits in a buffer
/-- A placeable launch of a tenancy whose windows have been written, beside a snapshot that they do not hold. -/
def unheld : State := (queueing goodWords true).modTenAt 0 fun x => { x with winSet := true, prop := { x.prop with st := 2, n := 3, area := 0x100000000001, units := [unit5 false] } }
theorem witness_unheld : unheld.mgr.state = 1 ∧ (unheld.tenAt 0).winSet = true ∧ unheld.snapshotIn 0 (unheld.tenAt 0).openWins = false
    ∧ (unheld.tenAt 0).lq = [descOf goodWords 0x2000] ∧ (unheld.tenAt 0).checked = true
    ∧ ((((unheld).groupsOf 0).flatMap fun g => (List.range 8).map (8 * g + ·)).filter fun c => (unheld.coreAt c).launch == none).length = 7 := by decide +kernel
theorem test_unheld : ((after (exec (.launchPlace 0) unheld)).tenAt 0).prop.reason = 4 ∧ ((after (exec (.launchPlace 0) unheld)).tenAt 0).prop.st = 5
    ∧ ((after (exec (.launchPlace 0) unheld)).tenAt 0).lq = [] := by decide +kernel
theorem witness_store_awaits : let s := (snapArea 15 []).modHart fun k => { k with sbuf := [{ sbuf1 (.mem 0x50008) with step := 4 }] }
    s.storeAwaits 3 5 = true ∧ s.storeAwaits 3 4 = false ∧ (snapArea 15 []).storeAwaits 3 5 = false ∧ (s.tenAt 0).prop.units[0]? = some (unit5 false)
      ∧ ((after (exec (.propolisUnitCopy 0 0) s)).tenAt 0).prop.copied = 16 := by decide +kernel
-- HostAndManagerWrites: an 8-byte write of the host in the middle of LQPUSH is no part of the sequence (R340)
theorem test_lqpush_unaligned : ((after (exec (.registerWrite (.ten 0) 4 7) (two 0 0))).tenAt 0).staging = []
    ∧ ((after (exec (.registerWrite (.ten 0) 4 7) (two 0 0))).tenAt 0).intstat = 1 := by decide +kernel
-- QueuesSavedAndLoaded: the vector word after one that has completed, past the comb word behind it (R364)
theorem test_next_vector : (machine (queues [] [0] bare)).nextVector 0x1FF8 = 0x2008 ∧ (machine (queues [0] [] bare)).nextVector 0x1000 = 0x2000
    ∧ (machine bare).nextVector 0x1000 = 0x1008 := by decide +kernel
-- StepRunsTheTurn: a write of the host to a unit that is full up past the cut waits, and stays first on the agenda
/-- The area full after the last cut, and a turn in which the host writes to the noted unit. -/
def fullArea : State := { snapArea 16 [] with agenda := [{ core := 0, hart := 0, input := none, ev := some (.hostWrite 0x50000 3 7) }] }
theorem witness_outside_waits : fromOutside (.hostWrite 0x50000 3 7) = true ∧ isEvent (.hostWrite 0x50000 3 7) = true ∧ fromOutside .blockWordPlace = false
    ∧ waitsForDrain ((taken fullArea).granting false ((taken fullArea).eventUses (.hostWrite 0x50000 3 7)) (exec (.hostWrite 0x50000 3 7) (taken fullArea))) = true
    ∧ waitsForDrain (exec (.hostWrite 0x60000 3 7) (taken fullArea)) = false
    ∧ ({ fullArea with tick := 1, agenda := [] } : State).holdsUp { core := 0, hart := 0, input := none, ev := some (.hostWrite 0x50000 3 7) } = true := by decide +kernel
-- ShiftsByImmediateAndUppers: the three forms at their last count, the fourth, and an imm16 past eight bits
theorem witness_shift_forms : (0x3F : BitVec 16).toNat / 64 = 0 ∧ (0x40 : BitVec 16).toNat / 64 = 1 ∧ (0xBF : BitVec 16).toNat / 64 = 2
    ∧ (0xC0 : BitVec 16).extractLsb' 6 2 = 3 ∧ (0x100 : BitVec 16).extractLsb' 8 8 ≠ 0 ∧ (two 1 2).Calm :=
  ⟨by decide, by decide, by decide, by decide, by decide, witness_calm⟩
theorem test_shift_words : (decode32 ((6 : BitVec 6) ++ (5 : BitVec 5) ++ (3 : BitVec 5) ++ (0x7F : BitVec 16))).toOption = some (.shri 5 3 63) := by decide
-- ScalarAtomics: a granule with an error that no mark records, and one that a buffered store covers
theorem witness_amo_error : ({ data with latent := [32] } : State).Calm ∧ ({ data with latent := [32] } : State).forwarded.marked part2000.loc = false
    ∧ ({ data with latent := [32] } : State).forwarded.hasError part2000.loc = true ∧ ({ data with marks := [32] } : State).forwarded.marked part2000.loc = true
    ∧ ({ data with latent := [32] } : State).checkScalar .amo 8 (data.rd 3) = .ok part2000
    ∧ ({ data with marks := [32] } : State).checkScalar .amo 8 (data.rd 3) = .ok part2000 :=
  ⟨⟨by decide, by decide, by decide, by decide⟩, by decide, by decide, by decide, by decide +kernel, by decide +kernel⟩
theorem witness_amo_waits_sound : let s := data.modHart fun k => { k with sbuf := [sbuf1 (.mem 0x2000)] }
    s.checkScalar .amo 8 (s.rd 3) = .ok part2000 ∧ s.forwarded.marked part2000.loc = false ∧ s.forwarded.hasError part2000.loc = false
      ∧ s.hart.amoWaits true part2000.loc 8 = true := ⟨by decide +kernel, by decide, by decide, by decide⟩
-- BlocksAreCapturedAndPlaced: scans of R38, by their last word
/-- The words that a scan answers, or its failure. -/
def scanOf (s : State) (base : Word) : Option (List Word) × Failure :=
  match s.scan base 256 base [] with
  | .ok (ws, _) => (some ws, 0, 0)
  | .error (f, _) => (none, f)
/-- A word that writes s5 and one that reads it as its scalar source, at 0x1010. -/
def clashing : State := Put 0x1018 8 0x1200820000A00001 (Put 0x1010 8 (wordOf (.mpop plain 5 1)).toNat (machine bare))
theorem witness_scan_stops : wordDest (wordOf (.mpop plain 5 1)) = some 5 ∧ (5 : BitVec 5) ∈ wordSources 0x1200820000A00001
    ∧ scanOf clashing 0x1010 = (none, 0x02, 0x1018) ∧ scanOf block 0x1010 = (some [0x1200820000A00001, 0], 0, 0)
    ∧ (scanOf (Put 0x7FFFFFFF8 8 0x1200820000A00001 block) 0x7FFFFFFF8) = (none, 0x10, 0x800000000) := by decide +kernel
/-- A cached word is served and changes nothing. -/
def cachedAt (s : State) (va : Word) : Option (BitVec 32) :=
  match spaceOf va, s.walkStage s.cc s.hart .fetch va.toNat with
  | some .translated, .ok (l, t) => if s.permFails s.hart .fetch 4 l t then none else (s.core.icache.find? fun p => p.1 == t.pa).map Prod.snd
  | _, _ => none
theorem fetch32_cached {s : State} {va : Word} {w : BitVec 32} (h : cachedAt s va = some w) : s.fetch32 va = .ok (w, s) := by
  unfold cachedAt at h
  split at h
  · rename_i hs hw
    split at h
    · cases h
    · rename_i hp
      obtain ⟨p, hf, rfl⟩ := Option.map_eq_some_iff.1 h
      simp only [State.fetch32, hs, hw, hf]
      simp [hp]
  · cases h
/-- The instruction cache with 256 words at 0x1800 of which none is a VSTOP. -/
def endless : State := (machine bare).modCore fun y => { y with icache := (List.range 512).map fun i => (0x1800 + 4 * i, 0x01000000) }
theorem endless_cached : (List.range 512).all (fun i => cachedAt endless (0x1800 + BitVec.ofNat 64 (4 * i)) == some 0x01000000) = true := by decide +kernel
theorem witness_fetch_halves : (match block.fetch32 0x1010 with
    | .ok (lo, t) => (t.fetch32 0x1014).toOption.map (fun p => p.1 ++ lo) == (block.fetch64 0x1010).toOption.map Prod.fst && decide (lo = 0x00A00001)
    | .error _ => false) = true := by decide +kernel
theorem witness_scan_endless : (∀ i < 256, endless.fetch64 ((0x1800 : Word) + BitVec.ofNat 64 (8 * i)) = .ok (0x0100000001000000, endless))
    ∧ (0x0100000001000000 : Word) >>> 56 ≠ 0 ∧ wordDest 0x0100000001000000 = none := by
  have h := List.all_eq_true.1 endless_cached
  refine ⟨fun i hi => ?_, by decide, by decide⟩
  have h0 := fetch32_cached (eq_of_beq (h (2 * i) (List.mem_range.2 (by omega))))
  have h1 := fetch32_cached (eq_of_beq (h (2 * i + 1) (List.mem_range.2 (by omega))))
  rw [show 4 * (2 * i) = 8 * i by omega] at h0
  rw [show (0x1800 : Word) + BitVec.ofNat 64 (4 * (2 * i + 1)) = 0x1800 + BitVec.ofNat 64 (8 * i) + 4 by
    rw [show 4 * (2 * i + 1) = 8 * i + 4 by omega, BitVec.ofNat_add, ← BitVec.add_assoc]; rfl] at h1
  simp only [State.fetch64, h0, h1]
  rfl
-- QueuesSavedAndLoaded: the image of a vector and a comb word, and one whose second entry is bad
/-- A handler with a VMUL and a CZERO stopped in its queues. -/
def savingBoth : State := (handler 0x2000 true).modHart fun k => { Regs [(3, 0x2000)] k with
  q := { k.q with vq := [{ queued 0x1200C22000000000 0x3000 k with pre := true }], cq := [{ queued 0x7100000000000000 0x3008 k with pre := true, seq := 1 }] } }
theorem witness_image_back : let k := savingBoth.hart
    let xs := k.q.vq.map (fun e => (false, e)) ++ k.q.cq.map fun e => (true, e)
    (xs.filter Prod.fst).map Prod.snd = k.q.cq ∧ (xs.filter fun x => !x.1).map Prod.snd = k.q.vq ∧ xs.Pairwise (fun x y => x.2.seq < y.2.seq)
      ∧ (∀ p ∈ xs, p.2.addr.toNat % 8 = 0 ∧ p.2.cfg.vtype.toNat % 2 ^ 63 < 32 ∧ p.2.cfg.nreg ∈ [8, 16, 32] ∧ p.2.cfg.cstr.toNat % 256 = 0)
      ∧ k.q.vq.length ≤ 64 ∧ k.q.cq.length ≤ 32 ∧ k.image.length / 4 = 4 := by decide +kernel
/-- The image of one word, its B entry made an A. -/
def badImage : State := Put 0x2028 1 2 loading
theorem witness_vqload_bad : badImage.Calm ∧ badImage.hart.trap.system = true ∧ badImage.hart.queued = false ∧ (badImage.rd 4).toNat = 3 ∧ (badImage.rd 3).toNat % 32 = 0
    ∧ (match badImage.readWords (4 * (badImage.rd 4).toNat) (badImage.rd 3) with
      | .ok ws => match parseImage (byFours (badImage.rd 4).toNat ws) 0 none 0 0 with
        | .error i => decide (i < 3)
        | .ok _ => false
      | .error _ => false) = true :=
  ⟨⟨by decide +kernel, by decide +kernel, by decide +kernel, by decide +kernel⟩, by decide +kernel, by decide +kernel, by decide +kernel, by decide +kernel, by decide +kernel⟩
-- VectorLoadResults: VLD.K under the length of its record, a marked mask, and VLDFF whose later element meets an error of its own
theorem witness_vld_k_chunks : let x := bound.capture 3 0
    let r : BindRec := { dest := 0x2000, len := 512, csz := 8, nc := 2, bound := true }
    r.len ≤ 2 ^ 64 ∧ kActive .unit x.sval r 3 32 x bound.hart 63 = true ∧ kActive .unit x.sval r 3 32 x bound.hart 64 = false
      ∧ kMarked .unit x.sval r 3 32 x (bound.hart.modStore fun t => { t with poison := [maskPoison 3 0] }) 64 = true
      ∧ kMarked .unit x.sval r 3 32 x (bound.hart.modStore fun t => { t with poison := [maskPoison 3 0] }) 128 = false
      ∧ (match refSf .unit .vload x.sval (fun u e => kActive .unit x.sval r 3 32 x u e) x bound with
        | .ok sf => memWidthOf x sf == 32
        | .error _ => false) = true := by decide +kernel
theorem witness_vldff_error : let s := { machine (Regs [(3, 0x1FFC)] (Len 2 bare)) with latent := [32] }
    let x := s.capture 3 0
    let act := fun (u : Hart) e => u.active none e
    Runs s.hart x none [x.grp 4 x.fmt.fa] [] (fun _ => []) ∧ s.hart.isBound 3 = false ∧ s.hart.active none 0 = true ∧ s.hart.active none 1 = true
      ∧ (match locate .unit .vload x.sval act x 0 s, locate .unit .vload x.sval act x 1 s with
        | .ok l, .ok g => (l.ps.all fun p => !p.1.loc.isReg && !s.marked p.1.loc && !s.hasError p.1.loc) && g.ps.any fun p => !s.marked p.1.loc && s.hasError p.1.loc
        | _, _ => false) = true
      ∧ (after (exec (.vldff plain 4 3 3 0 0) s)).marks = [32] :=
  ⟨runs_of (by decide +kernel), by decide +kernel⟩
-- QueuesRunTheirHeads: convoys of two words
/-- The header of a word with C. -/
def linked : VHdr := { c := true, pm := none }
/-- Words in the vector queue of a hart with two elements in v1 and v2 and s3 a place whose second element has no page. -/
def convoyOf (ws : List Word) : State :=
  machine (queues ws [] (Elems 2 [0x40000000, 0x40000000] (Elems 1 [0x40400000, 0x40400000] (Regs [(3, 0x7FFFFFFFC)] (Len 2 bare)))))
/-- The words of the convoy at the head of the queue with their meanings. -/
def headWords (s : State) : List CWord := s.hart.q.vq.map fun z => (z, z.meaning s)
/-- v3 = v1 v2, then v4 = v3 + v1. -/
def chained : State := convoyOf [wordOf (.vmul linked 3 1 (.vec 2) 0), wordOf (.vadd plain 4 3 (.vec 1) 0)]
theorem witness_convoy_pair : let s := chained
    let ws := headWords s
    s.hart.q.vq.map (fun z => (z.word.getLsbD 55, z.word.extractLsb' 56 8 == 0)) = [(true, false), (false, false)] ∧ s.hart.queuesRun s.hart.q.vq = true
      ∧ s.convoyFree ws = true ∧ dispatchCheck s.hart ws = none ∧ s.hart.q.begun = none ∧ (∀ w ∈ ws, w.2.span 0 = none)
      ∧ (match runConvoy (s.grant (ws.flatMap fun w => w.2.uses)) ws [] (2 ^ 32 - 1) with
        | .done t => decide (t.hart.q = s.hart.q)
        | _ => false) = true := by decide +kernel
theorem test_convoy_pair : el (after (exec (.convoyDispatch 0xFFFFFFFF) chained)) 4 1 = 0x41100000 ∧ (after (exec (.convoyDispatch 0xFFFFFFFF) chained)).hart.q.vq = [] := by
  decide +kernel
/-- The result of a run that ends well. -/
def okState (r : VRes) : Option State :=
  match r with
  | .ok t => some t
  | _ => none
theorem witness_convoy_sequence : (∀ w ∈ headWords chained, 0 < w.2.unit ∧ 0 < w.2.chunk ∧ w.2.len ≤ 2 ^ 32)
    ∧ ((headWords chained).foldl (fun o w => o.bind fun t => okState (w.2.go t 0 w.2.len)) (some chained)).isSome = true
    ∧ (headWords chained).length = 2 := by decide +kernel
/-- Two loads, of which a convoy takes one. -/
def twoLoads : State := convoyOf [wordOf (.vld linked 4 3 0 0), wordOf (.vld plain 5 3 0 0)]
theorem witness_convoy_check_pair : let ws := headWords twoLoads
    twoLoads.hart.queuesRun twoLoads.hart.q.vq = true ∧ twoLoads.convoyFree ws = true ∧ dispatchCheck twoLoads.hart ws = some (0x03, 0x2000, none)
      ∧ (∀ w ∈ ws, w.2.bad02 = false) ∧ ((ws.take 1).flatMap fun w => w.2.slots).count .l = 1 ∧ (ws.flatMap fun w => w.2.slots).count .l = 2
      ∧ (ws.take 1).length ≤ 6 ∧ (∀ w ∈ ws, w.2.alone = false ∧ w.2.ring = false ∧ w.2.steps = false) := by decide +kernel
theorem witness_convoy_waits : (chained.modHart fun k => { k with vec := { k.vec with vs := 0 } }).hart.queuesRun chained.hart.q.vq = false
    ∧ (∀ z ∈ (convoyOf [wordOf (.vmul linked 3 1 (.vec 2) 0)]).hart.q.vq, z.word.getLsbD 55 = true ∧ z.word >>> 56 ≠ 0) := by decide +kernel
theorem witness_convoy_stopped : let s := chained
    let ws := headWords s
    (match runConvoy (s.grant (ws.flatMap fun w => w.2.uses)) ws [] 0 with
        | .stopped es t => es == [0, 0] && decide (t.hart.q = s.hart.q)
        | _ => false) = true := by decide +kernel
-- an element fault within a convoy: a VADD of a marked element after a VMUL
/-- v3 = v1 v2 and v4 = v1 v5, the second chunk of v5 being marked. -/
def markedPair : State := (convoyOf [wordOf (.vmul linked 3 1 (.vec 2) 0), wordOf (.vadd plain 4 1 (.vec 5) 0)]).modHart fun k =>
  let k := (Len 4 k).modStore fun t => { t with poison := [chunkIndex k k.cfg 5 1] }
  queues (k.q.vq.map Entry.word) [] k
theorem witness_convoy_element : let ws := headWords markedPair
    (∀ w ∈ ws, w.2.unit = 1 ∧ 0 < w.2.chunk ∧ w.2.len = 4 ∧ w.2.whole = false ∧ w.2.es0 = false ∧ w.2.broken = false ∧ w.2.pack.isNone = true ∧ Slot.l ∉ w.2.slots)
      ∧ (match ws with
        | [a, b] => match a.2.go markedPair 0 4 with
          | .ok t => match b.2.go t 0 4 with
            | .fault e _ _ _ => decide (e = 2)
            | _ => false
          | _ => false
        | _ => false) = true := by decide +kernel
theorem witness_convoy_fault : let s := markedPair
    let ws := headWords s
    s.hart.queuesRun s.hart.q.vq = true ∧ s.convoyFree ws = true ∧ dispatchCheck s.hart ws = none ∧ (∀ w ∈ ws, w.2.span 0 = none)
      ∧ (match runConvoy (s.grant (ws.flatMap fun w => w.2.uses)) ws [] (2 ^ 32 - 1) with
        | .fault es e _ _ t => es == [4, 2] && e == some 2 && decide (t.hart.q = s.hart.q) && decide (t.hart.pc = s.hart.pc)
        | _ => false) = true := by decide +kernel
theorem test_convoy_fault : let t := after (exec (.convoyDispatch 0xFFFFFFFF) markedPair)
    t.hart.vec.es[(0 : Fin 6)] = 4 ∧ t.hart.vec.es[(1 : Fin 6)] = 2 ∧ t.hart.vec.vtelem = 2 ∧ el t 3 1 = 0x40C00000 := by decide +kernel
theorem witness_convoy_broken : let ws := (headWords markedPair).map fun w => (w.1, { w.2 with broken := true })
    (∀ w ∈ ws, 0 < w.2.unit ∧ 0 < w.2.chunk ∧ w.2.len ≤ 2 ^ 32)
      ∧ (match ws with
        | [p, q] => match runConvoy markedPair [p] [] (2 ^ 32) with
          | .done t => p.2.broken && q.2.broken && decide (t.hart.lanes = markedPair.hart.lanes) && (match runConvoy t [q] [] (2 ^ 32), runConvoy markedPair [p, q] [] (2 ^ 32) with
            | .fault es e _ _ _, .fault fs _ _ _ _ => es == [2] && e == some 2 && fs == [4, 2]
            | _, _ => false)
          | _ => false
        | _ => false) = true := by decide +kernel
-- EngineCommands: a card that has ended between the grants of an ENQ still counts
/-- The ENQ of two commands with the first one queued and run, ECAP 1. -/
def oneEnded : State := ({ oneSent with engines := [] } : State).modHart fun k => { k with ecap := 1 }
theorem witness_cards_gone : let k := oneEnded.hart
    k.q.begun.isSome = true ∧ oneEnded.cardsGone 0 = [] ∧ oneEnded.cardsGone 1 = 1 :: List.replicate 15 0 ∧ oneEnded.outstanding 0 = 0
      ∧ cardReason iredSlot (cardRanges iredSlot oneEnded) [] oneEnded = none
      ∧ cardReason iredSlot (cardRanges iredSlot oneEnded) (oneEnded.cardsGone 1) oneEnded = some (2, 0) := by decide +kernel
-- LaunchesAndSnapshots: the area full after the last cut: the store waits, a card is passed over, a turn leaves what it found
theorem witness_copy_waits : let s := snapArea 16 []
    (s.tenAt 0).prop.units[0]? = some (unit5 false) ∧ (s.tenAt 0).prop.st = 2 ∧ (s.copyUnit 0 5).storeWaits = true ∧ (s.copyUnit 0 5).mem = s.mem
      ∧ (snapArea 16 [(0, 0)]).storeWaits = false ∧ ((snapArea 16 [(0, 0)]).copyUnit 0 5).storeWaits = false := by decide +kernel
/-- A card of RFILL to the noted unit, from a core past the cut. -/
def waitingCard : State := { snapArea 16 [] with engines := [(0, { Stack.init with cards := [(0, [{ card 3 0 1 1 256 with
  rows := [], dst := [{ pa := 0x50000, n := 256, cls := 0 }], step := 4 }])] })] }
theorem witness_card_waits : (match (waitingCard.stackAt 0).next with
    | some (t, c) => decide (t = 0) && decide (c.op = 3) && (runCard 0 t c c.count waitingCard).storeWaits
    | none => false) = true ∧ after (exec (.rfill 0) waitingCard) = waitingCard.modStackAt 0 (fun e => { e with last := 0 }) := by decide +kernel
theorem witness_turn_waits : let o : Turn := { core := 0, hart := 0, input := none, ev := some (.hostWrite 0x50000 3 7) }
    waitsForDrain (turnWork o (o.start (snapArea 16 []))) = true := by decide +kernel
/-- A packet to the noted unit before one to another row. -/
def waitingPacket : State := { snapArea 16 [] with engines := [(0, { Stack.init with rq := [{ packet with segs := [{ pa := 0x50000, n := 8, cls := 0 }], step := 4 }, packet] })] }
theorem test_packet_waits : (waitingPacket.nextPacket [] (waitingPacket.stackAt 0).rq).map (fun p => (p.1.segs.map Seg.pa, p.2.length)) = some ([0x2000], 1) := by decide +kernel
-- 02_stream R51: a widening VCVT and a VADD into its source, which cross, run on as one where a part of them would stop
theorem test_crossing : let s := (convoyOf [wordOf (.vcvt linked 8 4 6), wordOf (.vadd plain 4 8 (.vec 1) 0)]).wr 6 0x63
    let ws := s.hart.q.vq.map fun z => let z := { z with fval := if z.word.getLsbD 55 then 0x63 else 0 }; (z, z.meaning s)
    (match runConvoy s ws [] 0 with
      | .done _ => true
      | _ => false) = true ∧ dispatchCheck s.hart ws = none := by decide +kernel
-- 14_system R309: a program's word that runs in a handler does not reach a page with U = 0; a handler's own does
theorem test_word_level : let s := { (handler 0x2000 false).wr 3 0x2000 with mem := [(0x10000, 0x2F)] }
    let x := queued (wordOf (.vld plain 4 3 0 0)) 0x2000 { s.hart with cfg := { s.hart.cfg with vl := 1 } }
    ((x.meaning s).run s 0 1 matches .ok _) = true ∧ (({ x with prog := true }.meaning s).run s 0 1 matches .ok _) = false := by decide +kernel
-- 12_engines R284: a bit of an earlier binding that has landed and is not shown yet is cleared with the others
theorem test_bind_landed : ((bare.modQ fun q => { q with landed := [(3, 0), (3, 70), (2, 1)] }).bind 3
    { dest := 0, len := 512, csz := 8, nc := 2, bound := true }).q.landed = [(3, 70), (2, 1)] := by decide +kernel
-- 00_scope R5, 14_system R336: what a nested handler loads from a page that programs can fetch from is a program's
theorem test_system_only : ({ handler 0x2000 false with mem := [(0x10000, 0x2F)] } : State).systemOnly 0x2000 = true
    ∧ (handler 0x2000 false).systemOnly 0x2000 = false := by decide +kernel
theorem test_loaded_level (spp : Bool) : let t := after (exec (.vqload 3 4) (loading.modHart fun k => k.modTrap fun r => { r with spp := spp }))
    t.hart.q.vq.map Entry.prog = [true] := by
  cases spp <;> decide +kernel
/-- A hart of which m1 has held a binding that has ended. -/
def bound1 : State := machine ((Regs [(3, 0x2000)] (Len 2 bare)).modStore fun t => { t with binds := [(1, { dest := 0x2000, len := 8, csz := 2, nc := 2, bound := false })] })
-- 02_stream R51, 14_system R317: a VCVT into a register that a VADD of a marked element has read or written
/-- v8 = v4 as FP16 and v4 = v1 + v5, whose last of ten elements is marked, in either order, on a hart with groups of eight elements. -/
def crossed (ws : List Word) : State := (convoyOf ws).modHart fun k =>
  let k := { Len 10 k with place := { k.place with h := 8 } }
  let k := k.modStore fun t => { t with poison := [chunkIndex k k.cfg 5 4] }
  let q := queues ws [] k
  { q with q := { q.q with vq := q.q.vq.map fun z => { z with fval := if vopOf z.word == vopOf (wordOf (.vcvt plain 8 4 6)) then 0x63 else 0 } } }
def crossedLate : State := crossed [wordOf (.vcvt linked 8 4 6), wordOf (.vadd plain 4 1 (.vec 5) 0)]
theorem witness_crossing_fault : let ws := headWords crossedLate
    (∀ w ∈ ws, 0 < w.2.unit ∧ 0 < w.2.chunk ∧ w.2.len ≤ 2 ^ 32)
      ∧ (match ws with
        | [p, q] => match runConvoy crossedLate [p] [] (2 ^ 32) with
          | .done t => crosses crossedLate.hart q p && !p.2.broken && !q.2.broken && decide (t.hart.lanes = crossedLate.hart.lanes)
            && (match runConvoy t [q] [] (2 ^ 32) with
              | .fault es e _ _ _ => es == [8] && e == some 8
              | _ => false)
          | _ => false
        | _ => false) = true := by decide +kernel
theorem witness_no_crossing : ∀ a ∈ headWords markedPair, ∀ b ∈ headWords markedPair, crosses markedPair.hart a b = false := by decide +kernel
theorem test_crossing_fault : let t := after (exec (.convoyDispatch 0xFFFFFFFF) crossedLate)
    dispatchCheck crossedLate.hart (headWords crossedLate) = none ∧ t.hart.vec.es[(0 : Fin 6)] = 10 ∧ t.hart.vec.es[(1 : Fin 6)] = 8 := by decide +kernel
/-- The VADD first: it faults before anything of the VCVT is done, though one group of its elements is whole. -/
def crossedEarly : State := crossed [wordOf (.vadd linked 4 1 (.vec 5) 0), wordOf (.vcvt plain 8 4 6)]
theorem test_crossing_decider_first : let t := after (exec (.convoyDispatch 0xFFFFFFFF) crossedEarly)
    dispatchCheck crossedEarly.hart (headWords crossedEarly) = none ∧ t.hart.vec.es[(0 : Fin 6)] = 8 ∧ t.hart.vec.es[(1 : Fin 6)] = 0 := by decide +kernel
-- 12_engines R284, R285: a mask whose binding record a .K load uses, and a VCMP that writes it after the load or before it
theorem test_spread : (mVldK true 1 .unit 4 0 (bound1.capture 3 0) bound1).spread = [1]
    ∧ (mVcmp plain .lt 1 1 (.vec 2) (bound1.capture 0 0) bound1).maskW = [1]
    ∧ (match (mVldK true 1 .unit 4 0 (bound1.capture 3 0) bound1).run (bound1.modHart fun k => k.setMaskBit 1 0 true) 0 1 with
      | .stop 0x05 _ _ => true
      | _ => false) = true
    ∧ ((resumedWords [((bound1.capture 3 0), { bad05 := true, len := 2 }), ((bound1.capture 3 0), { bad05 := true, len := 2 })] [2, 1]).map fun w => w.2.bad05) = [false, true] := by
  decide +kernel

-- AsynchronousTraps, 14_system R314, R316: a tile's machine check while the convoy in flight is to end in its own trap
/-- The pair of markedPair under way, and a tile's check. -/
def checkFirst : State := markedPair.modHart fun k => { k with trap := { k.trap with checks := [.tile 0] }, q := { k.q with flight := some [0, 0] } }
theorem witness_check_first : let s := checkFirst
    s.hart.place.placed = true ∧ s.hart.halted = false ∧ s.hart.wait ≠ .begun ∧ s.hart.busy = false ∧ s.hart.q.stall = .none
      ∧ (headRun s.hart.q.vq).map (fun xs => xs.any Entry.pre) = some false
      ∧ (match runConvoy s (((headRun s.hart.q.vq).getD []).map (Entry.cword s)) [0, 0] (2 ^ 32) with
        | .fault es e _ _ t => es == [4, 2] && e == some 2 && decide (t.hart.q = s.hart.q)
        | _ => false) = true := by decide +kernel
/-- The hart as the handler of the check returns. -/
def owes : State := (after (exec .trapTake checkFirst)).modHart fun k => k.returnTrap true
theorem test_check_first : let t := after (exec .trapTake checkFirst)
    t.hart.trap.scause = 0x330 ∧ t.hart.vec.es[(0 : Fin 6)] = 0 ∧ t.hart.owing = false ∧ t.hart.due = false := by decide +kernel
theorem witness_owes : let s := owes
    s.hart.q.flight = none ∧ s.hart.q.stall = .none ∧ s.hart.q.landed = [] ∧ s.hart.q.comb = none ∧ s.hart.trap.checks = [] ∧ s.hart.vec.vs ≠ 0
      ∧ s.hart.q.owed.map (fun o => (o.es, o.pre, o.last)) = some ([4, 2], false, none) ∧ s.hart.mayIssue = false
      ∧ s.hart.queuesRun s.hart.q.vq = false := by decide +kernel
theorem test_owed_taken : let t := after (exec .trapTake owes)
    t.hart.trap.scause = 0x119 ∧ t.hart.vec.es[(0 : Fin 6)] = 4 ∧ t.hart.vec.es[(1 : Fin 6)] = 2 ∧ t.hart.vec.vtelem = 2 ∧ t.hart.q.owed = none := by
  decide +kernel
-- 19_prog_switch R364: a VRET while VS is OFF leaves it, and a later trap of the scalar stream finds nothing under way
theorem test_owed_off : let s := (after (exec .trapTake checkFirst)).modHart fun k => { k with vec := { k.vec with vs := 0 } }.returnTrap true
    s.hart.vec.vp = true ∧ s.hart.owing = false ∧ (after (exec .svc s)).hart.trap.scause = 0x23 ∧ (after (exec .svc s)).hart.vec.vtpc = 0 := by decide +kernel
-- QueuesRunTheirHeads, 01_machine R23: a tile saved and loaded line by line
/-- A tile word in the comb queue at the start of lane memory, whose first word is 0x4000000040400000. -/
def tiling (i : Instr) : State := (machine (queues [] [wordOf i] (Regs [(3, 0xF100000000000000)] bare))).modCore fun y => { y with lm := [(0, 0x4000000040400000)] }
theorem witness_tile_line : ∀ i ∈ [Instr.tsave 0 3 0, .tload 0 3 0], let s := tiling i
    let x := { queued (wordOf i) 0x2000 s.hart with sval := 0xF100000000000000, fval := 0 }
    s.hart.q.cq = [x] ∧ s.hart.q.comb = none ∧ s.hart.queuesRun [x] = true ∧ s.combFree (x, x.meaning s) = true
      ∧ dispatchCheck s.hart [(x, x.meaning s)] = none ∧ (x.meaning s).span 0 = some 1
      ∧ (((x.meaning s).run (s.grant (s.combUses (x.meaning s))) 0 1) matches .ok _) = true := by decide +kernel
/-- The first line saved: its word is that of the tile, 0. -/
def saved1 : State := after (exec .combWordIssue (tiling (.tsave 0 3 0)))
theorem test_tsave_line : saved1.hart.q.comb.map (fun b => (b.saves, b.line, b.loc)) = some (true, 1, .lm 0 0) ∧ saved1.core.lm = [] ∧ saved1.hart.q.cq.length = 1
    ∧ saved1.keeps 0 0 = [.comb] ∧ saved1.hart.busy = true := by decide +kernel
/-- The first line loaded. -/
def loaded1 : State := after (exec .combWordIssue (tiling (.tload 0 3 0)))
theorem test_tload_line : loaded1.hart.q.comb.map (fun b => (b.saves, b.line, b.vals.take 2)) = some (false, 1, [0x4000000040400000, 0])
    ∧ loaded1.keeps 0 0 = [] ∧ loaded1.hart.tileAt 0 0 0 = 0 := by decide +kernel
/-- A tile on its way with the last line, or the Comb, still to come. -/
def lastLine (i : Instr) (b : TileMove) : State := (tiling i).modHart fun k => k.modQ fun q => { q with comb := some b }
theorem witness_tile_last : let s := lastLine (.tsave 0 3 0) { saves := true, loc := .lm 0 0, through := false, line := 15, vals := List.replicate 512 7 }
    let x := { queued (wordOf (.tsave 0 3 0)) 0x2000 s.hart with sval := 0xF100000000000000, fval := 0 }
    s.hart.q.cq = [x] ∧ (x.meaning s).span 14 = some 15 ∧ (x.meaning s).span 15 = none
      ∧ (((x.meaning s).run (s.grant (s.combUses (x.meaning s))) 15 16) matches .ok _) = true
      ∧ (after (exec .combWordIssue s)).core.lmWord 511 = 7 ∧ (after (exec .combWordIssue s)).hart.q.cq = [] ∧ (after (exec .combWordIssue s)).hart.q.comb = none := by
  decide +kernel
theorem test_tload_last : let s := lastLine (.tload 0 3 0) { saves := false, loc := .lm 0 0, through := false, line := 16, vals := [0x4000000040400000] }
    let t := after (exec .combWordIssue s)
    s.combUses ((s.hart.q.cq.map fun x => x.meaning s).headD { c := false }) = [.comb] ∧ t.hart.tileAt 0 0 0 = 0x40400000 ∧ t.hart.tileAt 0 0 1 = 0x40000000 ∧ t.hart.q.cq = [] := by
  decide +kernel
-- a trap of the scalar stream finishes it; a marked line leaves the tile as it was
theorem test_tile_finished : let s := lastLine (.tsave 0 3 0) { saves := true, loc := .lm 0 0, through := false, line := 15, vals := List.replicate 512 7 }
    (after (exec .svc s)).core.lmWord 511 = 7 ∧ (after (exec .svc s)).hart.q.cq = [] ∧ s.hart.busy = true := by decide +kernel
theorem test_tile_marked : let s := (lastLine (.tload 0 3 0) { saves := false, loc := .lm 0 0, through := false, line := 15, vals := [] }).modCore fun y => { y with lmMarks := [480] }
    let t := after (exec .combWordIssue s)
    t.hart.trap.scause = 0x219 ∧ t.hart.q.comb = none ∧ t.hart.q.cq.length = 1 ∧ t.hart.tileAt 0 0 0 = 0 := by decide +kernel
-- WaitingWordsRunAndEnd, 01_machine R23: two rows of an RRECV take two grants of the banks, and leave the inbox with the second
/-- The RRECV of `inboxed 2` with its first row read. -/
def oneRow : State := after (exec .rrecvTake ((inboxed 2).modHart (asleep (.rrecv false 4 6 7 3) 1 .rrecv)))
theorem witness_rrecv_rows : (rrecvPieces (inboxed 1).hart 1).length = 1 ∧ (rrecvPieces (inboxed 2).hart 2).length = 2 := by decide +kernel
theorem test_rrecv_rows : oneRow.hart.q.flight = some [1] ∧ oneRow.hart.q.stall = .none ∧ oneRow.hart.inbox.count = 2 ∧ oneRow.keeps 0 0 = [.route]
    ∧ (after (exec (.convoyDispatch 0) oneRow)).hart.inbox.count = 0 ∧ (after (exec (.convoyDispatch 0) oneRow)).hart.q.vq = []
    ∧ (after (exec (.convoyDispatch 0) oneRow)).rd 7 = 2 := by decide +kernel
/-- A frame of two rows, of which the second has an OK contribution too. -/
def framedTwo : State := framed.modCore fun y => { y with
  frames := y.frames.set 0 { (y.frame 0) with nrow := 2, wts := [0x3F200000, 0x3EC00000, 0x3F200000, 0x3EC00000], stat := [some 0, some 3, some 0, some 3], base := 0x100 } }
/-- An FREAD of two rows in the vector queue, and its first row of lane memory read. -/
def fread1 : State := after (exec (.convoyDispatch 0) (framedTwo.modHart (queues [wordOf (.fread false 20 21 0)] [])))
theorem test_fread_rows : fread1.hart.q.flight = some [1] ∧ (fread1.core.frame 0).st = 3
    ∧ (List.range 2).map (el (after (exec (.convoyDispatch 0) fread1)) 20) = [0xC0F00000, 0x3F700000]
    ∧ ((after (exec (.convoyDispatch 0) fread1)).core.frame 0).st = 0 := by decide +kernel
theorem test_fread_marked : let t := after (exec (.convoyDispatch 0) (after (exec (.convoyDispatch 0) (framedTwo.modHart (queues [wordOf (.fread false 20 21 0)] []) |>.modCore fun y => { y with lmMarks := [8192] }))))
    t.hart.trap.scause = 0x119 ∧ t.hart.trap.stval = 0xF100000000010000 ∧ (t.core.frame 0).st = 3 := by decide +kernel
-- 01_machine R23: another hart's comb word waits while a tile is being saved
theorem test_comb_kept : let s := saved1.modCore fun y => { y with harts := y.harts ++ [(1, (shaping 0).hart)] }
    (s.keptFrom { core := 0, hart := 1, input := none, ev := some .combWordIssue }) = true
      ∧ (s.keptFrom { core := 0, hart := 0, input := none, ev := some .combWordIssue }) = false := by decide +kernel

/-! ### Worked values of the spec -/

-- 03_formats R83: 1000.0 and 896.0 in E4M3, the pattern of each step, and back
theorem test_quant_exponent : quantExp (value 0 0x447A0000) (quantMax 5) = 2 ∧ quantExp (value 0 0x44600000) (quantMax 5) = 2 := by decide +kernel
theorem test_quant_patterns : round 5 0 false 0 ((value 0 0x447A0000).scale (-2)) = 0x78 ∧ round 5 0 false 0 ((value 0 0x40400000).scale (-2)) = 0x34
    ∧ round 0 0 false 0 ((value 5 0x78).scale 2) = 0x44800000 := by decide +kernel
-- 06_varith R133: S + e that is zero under RDN
theorem test_index_zero : Val.add true (.ofInt (-3)) (.ofInt 3) = .zero true ∧ Val.add true (.ofInt 0) (.ofInt 0) = .zero false := by decide
-- 11_route R264: the row of the grid that returns in time, and the one that does not
theorem test_frame_closed : ({ Frame.init with stat := [some 0, some 1] } : Frame).statusByte 0 = 0x08
    ∧ ({ Frame.init with stat := [none, some 1] } : Frame).close.statusByte 0 = 0x0E ∧ ({ Frame.init with stat := [none, some 1] } : Frame).close.missing = 1 := by
  decide
theorem test_return_after_close : let y := openFrame.core.modFrame 0 Frame.close
    (y.answer (retMsg 1 0 1 0 false) false).late = 1 ∧ (y.answer (retMsg 2 0 1 0 false) false).stale = 1 := by decide +kernel
-- 12_engines R280: rows of 1.5, 4.5 and 9.5 pooled into 0.25
theorem test_pooled : iredElem { card 1 8 3 32 32 with acc := true } [bytesOf 4 0x3FC00000, bytesOf 4 0x40900000, bytesOf 4 0x41180000] (bytesOf 4 0x3E800000) 0
    = 0x417C0000 ∧ completionWord 3 0 false 1 = 0x0000000300000001 := by decide +kernel
-- 13_collective R298: the value of rank 0 as it is
theorem test_rank_zero_unrounded : combineElem [{ contribution 0 with sat := true, op := 0, fa := 0, elems := [0x7F800000] },
    { contribution 0 with rank := 1, sat := true, op := 0, fa := 0, elems := [0xFF800000] }] 0 = 0x7FC00000 := by decide +kernel
-- 14_system R316: a VNOP bounds no word after it
theorem test_vnop_length : (mVnop false (two 0 0 |>.capture 0 0) (two 0 0)).len = (two 0 0).hart.cfg.vl.toNat := by decide

end Sys2Proof.Tests
end

/-! SUPPORT. The fields of scalar words (02_stream R26, R27): what the decoder reads from a word that the encoder made, and
a word made again from its fields. -/

namespace Sys2Proof

section
variable (op : BitVec 6) (d a b : BitVec 5) (fn : BitVec 11) (imm : BitVec 16) (off : BitVec 21) (csr : BitVec 12)
  (k : BitVec 4) (l acq rel : Bool) (sc : Scope)

/-! ### Words of the formats -/

theorem fmtA_eq : fmtA op d a b fn = (op ++ d ++ a ++ b ++ fn : BitVec (6 + 5 + 5 + 5 + 11)).cast rfl := rfl
theorem fmtI_eq : fmtI op d a imm = (op ++ d ++ a ++ imm : BitVec (6 + 5 + 5 + 16)).cast rfl := rfl
theorem fmtJ_eq : fmtJ op d off = (op ++ d ++ off : BitVec (6 + 5 + 21)).cast rfl := rfl
theorem fmtC_eq : fmtC d a csr k = ((0x22 : BitVec 6) ++ d ++ a ++ csr ++ k : BitVec (6 + 5 + 5 + 12 + 4)).cast rfl := rfl
theorem amoFn_eq (o : BitVec 3) : amoFn o l acq rel sc = ((0 : BitVec 2) ++ sc.code ++ BitVec.ofBool rel ++ BitVec.ofBool acq
    ++ BitVec.ofBool l ++ o : BitVec (2 + 3 + 1 + 1 + 1 + 3)).cast rfl := rfl
theorem fenceFn_eq (o : BitVec 2) : fenceFn o sc = ((0 : BitVec 6) ++ sc.code ++ o : BitVec (6 + 3 + 2)).cast rfl := rfl
theorem tlbD_eq (o : BitVec 2) : tlbD o sc = (o ++ sc.code : BitVec (2 + 3)).cast rfl := rfl

theorem fmtA_parts : opOf (fmtA op d a b fn) = op ∧ f1Of (fmtA op d a b fn) = d ∧ f2Of (fmtA op d a b fn) = a
    ∧ f3Of (fmtA op d a b fn) = b ∧ fnOf (fmtA op d a b fn) = fn := by
  simp only [opOf, f1Of, f2Of, f3Of, fnOf, sfield, fmtA_eq, BitVec.extractLsb'_cast, BitVec.extractLsb'_append_eq_of_le,
    BitVec.extractLsb'_append_eq_of_add_le, BitVec.extractLsb'_eq_self, Nat.reduceLeDiff, Nat.reduceSub, and_self]
theorem fmtI_parts : opOf (fmtI op d a imm) = op ∧ f1Of (fmtI op d a imm) = d ∧ f2Of (fmtI op d a imm) = a
    ∧ immOf (fmtI op d a imm) = imm := by
  simp only [opOf, f1Of, f2Of, immOf, sfield, fmtI_eq, BitVec.extractLsb'_cast, BitVec.extractLsb'_append_eq_of_le,
    BitVec.extractLsb'_append_eq_of_add_le, BitVec.extractLsb'_eq_self, Nat.reduceLeDiff, Nat.reduceSub, and_self]
theorem fmtJ_parts : opOf (fmtJ op d off) = op ∧ f1Of (fmtJ op d off) = d ∧ offOf (fmtJ op d off) = off := by
  simp only [opOf, f1Of, offOf, sfield, fmtJ_eq, BitVec.extractLsb'_cast, BitVec.extractLsb'_append_eq_of_le,
    BitVec.extractLsb'_append_eq_of_add_le, BitVec.extractLsb'_eq_self, Nat.reduceLeDiff, Nat.reduceSub, and_self]
theorem fmtC_parts : opOf (fmtC d a csr k) = 0x22 ∧ f1Of (fmtC d a csr k) = d ∧ f2Of (fmtC d a csr k) = a
    ∧ sfield (fmtC d a csr k) 4 12 = csr ∧ sfield (fmtC d a csr k) 0 4 = k := by
  simp only [opOf, f1Of, f2Of, sfield, fmtC_eq, BitVec.extractLsb'_cast, BitVec.extractLsb'_append_eq_of_le,
    BitVec.extractLsb'_append_eq_of_add_le, BitVec.extractLsb'_eq_self, Nat.reduceLeDiff, Nat.reduceSub, and_self]

@[simp] theorem opOf_fmtA : opOf (fmtA op d a b fn) = op := (fmtA_parts op d a b fn).1
@[simp] theorem f1Of_fmtA : f1Of (fmtA op d a b fn) = d := (fmtA_parts op d a b fn).2.1
@[simp] theorem f2Of_fmtA : f2Of (fmtA op d a b fn) = a := (fmtA_parts op d a b fn).2.2.1
@[simp] theorem f3Of_fmtA : f3Of (fmtA op d a b fn) = b := (fmtA_parts op d a b fn).2.2.2.1
@[simp] theorem fnOf_fmtA : fnOf (fmtA op d a b fn) = fn := (fmtA_parts op d a b fn).2.2.2.2
@[simp] theorem opOf_fmtI : opOf (fmtI op d a imm) = op := (fmtI_parts op d a imm).1
@[simp] theorem f1Of_fmtI : f1Of (fmtI op d a imm) = d := (fmtI_parts op d a imm).2.1
@[simp] theorem f2Of_fmtI : f2Of (fmtI op d a imm) = a := (fmtI_parts op d a imm).2.2.1
@[simp] theorem immOf_fmtI : immOf (fmtI op d a imm) = imm := (fmtI_parts op d a imm).2.2.2
@[simp] theorem opOf_fmtJ : opOf (fmtJ op d off) = op := (fmtJ_parts op d off).1
@[simp] theorem f1Of_fmtJ : f1Of (fmtJ op d off) = d := (fmtJ_parts op d off).2.1
@[simp] theorem offOf_fmtJ : offOf (fmtJ op d off) = off := (fmtJ_parts op d off).2.2
@[simp] theorem opOf_fmtC : opOf (fmtC d a csr k) = 0x22 := (fmtC_parts d a csr k).1
@[simp] theorem f1Of_fmtC : f1Of (fmtC d a csr k) = d := (fmtC_parts d a csr k).2.1
@[simp] theorem f2Of_fmtC : f2Of (fmtC d a csr k) = a := (fmtC_parts d a csr k).2.2.1
@[simp] theorem csrField_fmtC : sfield (fmtC d a csr k) 4 12 = csr := (fmtC_parts d a csr k).2.2.2.1
@[simp] theorem fnField_fmtC : sfield (fmtC d a csr k) 0 4 = k := (fmtC_parts d a csr k).2.2.2.2

/-! ### Bits inside a field -/

theorem sfield_eq_fn (w : BitVec 32) {lo len : Nat} (h : lo + len ≤ 11) : sfield w lo len = (fnOf w).extractLsb' lo len :=
  (BitVec.extractLsb'_extractLsb'_of_le h).symm
theorem sfield_eq_imm (w : BitVec 32) {lo len : Nat} (h : lo + len ≤ 16) :
    sfield w lo len = (immOf w).extractLsb' lo len :=
  (BitVec.extractLsb'_extractLsb'_of_le h).symm
theorem sfield_eq_f1 (w : BitVec 32) {lo len : Nat} (h : lo + len ≤ 5) :
    sfield w (21 + lo) len = (f1Of w).extractLsb' lo len := by
  ext i hi
  simp only [sfield, f1Of, BitVec.getElem_extractLsb', BitVec.getLsbD_extractLsb', Nat.add_assoc,
    show lo + i < 5 by omega, decide_true, Bool.true_and]
theorem getLsbD_eq_fn (w : BitVec 32) {i : Nat} (h : i < 11) : w.getLsbD i = (fnOf w).getLsbD i := by
  simp [fnOf, sfield, h]

/-- A bit of a word as the field of one bit that it is. -/
theorem ofBool_getLsbD_eq_extractLsb' {n : Nat} (w : BitVec n) (i : Nat) : BitVec.ofBool (w.getLsbD i) = w.extractLsb' i 1 := by
  ext j hj
  obtain rfl : j = 0 := by omega
  simp

theorem fmtA_amoFn_parts (o : BitVec 3) : let w := fmtA op d a b (amoFn o l acq rel sc)
    sfield w 0 3 = o ∧ sfield w 6 3 = sc.code ∧ sfield w 9 2 = 0 ∧ w.getLsbD 3 = l ∧ w.getLsbD 4 = acq
      ∧ w.getLsbD 5 = rel := by
  intro w
  rw [sfield_eq_fn w (by decide), sfield_eq_fn w (by decide), sfield_eq_fn w (by decide), getLsbD_eq_fn w (by decide),
    getLsbD_eq_fn w (by decide), getLsbD_eq_fn w (by decide), fnOf_fmtA, amoFn_eq]
  simp only [BitVec.extractLsb'_cast, BitVec.extractLsb'_append_eq_of_le, BitVec.extractLsb'_append_eq_of_add_le,
    BitVec.extractLsb'_eq_self, Nat.reduceLeDiff, Nat.reduceSub, true_and, BitVec.getLsbD_cast, BitVec.getLsbD_append,
    BitVec.getLsbD_ofBool]
  simp
theorem fmtA_fenceFn_parts (o : BitVec 2) : let w := fmtA op d a b (fenceFn o sc)
    sfield w 0 2 = o ∧ sfield w 2 3 = sc.code ∧ sfield w 5 6 = 0 := by
  intro w
  rw [sfield_eq_fn w (by decide), sfield_eq_fn w (by decide), sfield_eq_fn w (by decide), fnOf_fmtA]
  simp only [fenceFn_eq, BitVec.extractLsb'_cast, BitVec.extractLsb'_append_eq_of_le, BitVec.extractLsb'_append_eq_of_add_le,
    BitVec.extractLsb'_eq_self, Nat.reduceLeDiff, Nat.reduceSub, and_self]
theorem fmtA_tlbD_parts (o : BitVec 2) : let w := fmtA op (tlbD o sc) a b fn
    sfield w 21 3 = sc.code ∧ sfield w 24 2 = o := by
  intro w
  rw [sfield_eq_f1 w (lo := 0) (by decide), sfield_eq_f1 w (lo := 3) (by decide), f1Of_fmtA]
  simp only [tlbD_eq, BitVec.extractLsb'_cast, BitVec.extractLsb'_append_eq_of_le, BitVec.extractLsb'_append_eq_of_add_le,
    BitVec.extractLsb'_eq_self, Nat.reduceLeDiff, Nat.reduceSub, and_self]
theorem fmtI_shift_parts (z : BitVec 8) (o : BitVec 2) (n : BitVec 6) : let w := fmtI op d a (z ++ o ++ n)
    sfield w 0 6 = n ∧ sfield w 6 2 = o ∧ sfield w 8 8 = z := by
  intro w
  rw [sfield_eq_imm w (by decide), sfield_eq_imm w (by decide), sfield_eq_imm w (by decide), immOf_fmtI]
  simp only [BitVec.extractLsb'_append_eq_of_le, BitVec.extractLsb'_append_eq_of_add_le,
    BitVec.extractLsb'_eq_self, Nat.reduceLeDiff, Nat.reduceSub, and_self]

/-! ### A word from its fields -/

variable {op d a b fn imm off csr k} {w : BitVec 32}

theorem fmtA_fields (ho : opOf w = op) (hd : f1Of w = d) (ha : f2Of w = a) (hb : f3Of w = b) (hf : fnOf w = fn) :
    fmtA op d a b fn = w := by
  subst ho hd ha hb hf
  simp only [fmtA_eq, opOf, f1Of, f2Of, f3Of, fnOf, sfield, BitVec.extractLsb'_append_extractLsb'_eq_extractLsb']
  exact BitVec.extractLsb'_eq_self
theorem fmtI_fields (ho : opOf w = op) (hd : f1Of w = d) (ha : f2Of w = a) (hi : immOf w = imm) : fmtI op d a imm = w := by
  subst ho hd ha hi
  simp only [fmtI_eq, opOf, f1Of, f2Of, immOf, sfield, BitVec.extractLsb'_append_extractLsb'_eq_extractLsb']
  exact BitVec.extractLsb'_eq_self
theorem fmtJ_fields (ho : opOf w = op) (hd : f1Of w = d) (hj : offOf w = off) : fmtJ op d off = w := by
  subst ho hd hj
  simp only [fmtJ_eq, opOf, f1Of, offOf, sfield, BitVec.extractLsb'_append_extractLsb'_eq_extractLsb']
  exact BitVec.extractLsb'_eq_self
theorem fmtC_fields (ho : opOf w = 0x22) (hk : sfield w 0 4 = k) : fmtC (f1Of w) (f2Of w) (sfield w 4 12) k = w := by
  subst hk
  rw [fmtC_eq, ← ho]
  simp only [opOf, f1Of, f2Of, sfield, BitVec.extractLsb'_append_extractLsb'_eq_extractLsb']
  exact BitVec.extractLsb'_eq_self
theorem amoFn_fields {o : BitVec 3} (ho : sfield w 0 3 = o) (hs : sfield w 6 3 = sc.code) (hz : sfield w 9 2 = 0) :
    fnOf w = amoFn o (w.getLsbD 3) (w.getLsbD 4) (w.getLsbD 5) sc := by
  subst ho
  rw [amoFn_eq, ← hs, ← hz]
  simp only [fnOf, sfield, ofBool_getLsbD_eq_extractLsb', BitVec.extractLsb'_append_extractLsb'_eq_extractLsb']
  rfl
theorem fenceFn_fields {o : BitVec 2} (ho : sfield w 0 2 = o) (hs : sfield w 2 3 = sc.code) (hz : sfield w 5 6 = 0) :
    fnOf w = fenceFn o sc := by
  subst ho
  rw [fenceFn_eq, ← hs, ← hz]
  simp only [fnOf, sfield, BitVec.extractLsb'_append_extractLsb'_eq_extractLsb']
  rfl
theorem tlbD_fields {o : BitVec 2} (ho : sfield w 24 2 = o) (hs : sfield w 21 3 = sc.code) : f1Of w = tlbD o sc := by
  subst ho
  rw [tlbD_eq, ← hs]
  simp only [f1Of, sfield, BitVec.extractLsb'_append_extractLsb'_eq_extractLsb']
  rfl
theorem shiftImm_fields {o : BitVec 2} (ho : sfield w 6 2 = o) (hz : sfield w 8 8 = 0) :
    immOf w = (0 : BitVec 8) ++ o ++ sfield w 0 6 := by
  subst ho
  rw [← hz]
  simp only [immOf, sfield, BitVec.extractLsb'_append_extractLsb'_eq_extractLsb']

/-! ### Scopes (R29) -/

@[simp] theorem scopeOf_code (sc : Scope) : scopeOf sc.code = some sc := by cases sc <;> rfl
theorem code_of_scopeOf : ∀ (c : BitVec 3) (sc : Scope), scopeOf c = some sc → c = sc.code := by
  intro c sc h
  unfold scopeOf at h
  split at h <;> cases h <;> exact BitVec.eq_of_toNat_eq ‹_›

/-- An instruction whose fields that must be zero were read was accepted because they are zero. -/
theorem need_eq_ok {z : Bool} {i j : Instr} : need z i = .ok j ↔ z = true ∧ i = j := by
  unfold need
  cases z <;> simp
theorem needScope_code (sc : Scope) (f : Scope → Except Reject Instr) : needScope sc.code f = f sc := by
  simp [needScope]
theorem needScope_eq_ok {c : BitVec 3} {f : Scope → Except Reject Instr} {i : Instr} (h : needScope c f = .ok i) :
    ∃ sc, c = sc.code ∧ f sc = .ok i := by
  unfold needScope at h
  split at h
  · next sc e => exact ⟨sc, code_of_scopeOf c sc e, h⟩
  · cases h

end

/-! ### Encoded words decode to their instructions -/

theorem decode32_encode32 (i : Instr) (w : BitVec 32) (hwf : i.wellFormed = true) (h : encode32 i = some w) :
    decode32 w = .ok i := by
  cases i
  all_goals cases h
  case amoAdd | amoSwap | amoCas | amoAnd | amoOr | amoMax | amoMin =>
    simp only [decode32, decodeAmo, opOf_fmtA, f1Of_fmtA, f2Of_fmtA, f3Of_fmtA, fmtA_amoFn_parts, needScope_code, need,
      BitVec.reduceToNat, beq_self_eq_true, if_true]
  case fenceSv | fenceVs | fenceVv | fenceAll =>
    simp [decode32, decodeFence, fmtA_fenceFn_parts, needScope_code, need]
  case shli | shri | sari =>
    simp only [decode32, decodeShi, opOf_fmtI, f1Of_fmtI, f2Of_fmtI, fmtI_shift_parts, need, BitVec.reduceToNat,
      beq_self_eq_true, if_true]
  case csrr | csrw | csrs | csrc =>
    simp only [decode32, decodeCsr, opOf_fmtC, f1Of_fmtC, f2Of_fmtC, csrField_fmtC, fnField_fmtC, BitVec.reduceToNat]
    exact if_pos hwf
  case tlbinvPg | tlbinvAll => simp [decode32, decodeSys, fmtA_tlbD_parts, needScope_code, need]
  all_goals simp [decode32, decodeAlu, decodeSys, decodeHart, need]

/-! ### Accepted words are the encodings of their instructions -/

section
variable {w : BitVec 32} {i : Instr}

theorem decodeAlu_encodes (ho : opOf w = 0) (h : decodeAlu w = .ok i) : encode32 i = some w ∧ i.wellFormed = true := by
  unfold decodeAlu at h
  split at h
  case h_18 => cases h
  all_goals
    rename_i hf
    cases h
    exact ⟨congrArg some (fmtA_fields ho rfl rfl rfl (BitVec.eq_of_toNat_eq hf)), rfl⟩

theorem decodeShi_encodes (ho : opOf w = 6) (h : decodeShi w = .ok i) : encode32 i = some w ∧ i.wellFormed = true := by
  unfold decodeShi at h
  split at h
  case h_4 => cases h
  all_goals
    rename_i hk
    obtain ⟨hz, rfl⟩ := need_eq_ok.1 h
    exact ⟨congrArg some (fmtI_fields ho rfl rfl (shiftImm_fields (BitVec.eq_of_toNat_eq hk) (beq_iff_eq.1 hz))), rfl⟩

theorem decodeAmo_encodes (ho : opOf w = 0x1C) (h : decodeAmo w = .ok i) : encode32 i = some w ∧ i.wellFormed = true := by
  unfold decodeAmo at h
  obtain ⟨sc, hs, h⟩ := needScope_eq_ok h
  split at h
  case h_8 => cases h
  all_goals
    rename_i hk
    obtain ⟨hz, rfl⟩ := need_eq_ok.1 h
    exact ⟨congrArg some (fmtA_fields ho rfl rfl rfl (amoFn_fields sc (BitVec.eq_of_toNat_eq hk) hs (beq_iff_eq.1 hz))), rfl⟩

theorem decodeFence_encodes (ho : opOf w = 0x1D) (h : decodeFence w = .ok i) :
    encode32 i = some w ∧ i.wellFormed = true := by
  unfold decodeFence at h
  obtain ⟨sc, hs, h⟩ := needScope_eq_ok h
  have encodes {o : BitVec 2} (hk : (sfield w 0 2).toNat = o.toNat)
      (hz : (f1Of w == 0 && f2Of w == 0 && f3Of w == 0 && sfield w 5 6 == 0) = true) : fmtA 0x1D 0 0 0 (fenceFn o sc) = w := by
    simp only [Bool.and_eq_true, beq_iff_eq] at hz
    obtain ⟨⟨⟨hd, ha⟩, hb⟩, hf⟩ := hz
    exact fmtA_fields ho hd ha hb (fenceFn_fields sc (BitVec.eq_of_toNat_eq hk) hs hf)
  split at h
  case h_4 h0 h1 h2 =>
    obtain ⟨hz, rfl⟩ := need_eq_ok.1 h
    have hlt := (sfield w 0 2).isLt
    have h3 : (sfield w 0 2).toNat = 3 := by
      rw [imp_false] at h0 h1 h2
      omega
    exact ⟨congrArg some (encodes h3 hz), rfl⟩
  all_goals
    rename_i hk
    obtain ⟨hz, rfl⟩ := need_eq_ok.1 h
    exact ⟨congrArg some (encodes hk hz), rfl⟩

theorem decodeCsr_encodes (ho : opOf w = 0x22) (h : decodeCsr w = .ok i) : encode32 i = some w ∧ i.wellFormed = true := by
  unfold decodeCsr at h
  dsimp only at h
  split at h
  case h_5 => cases h
  all_goals
    rename_i hk
    split at h
    · next hc =>
      cases h
      exact ⟨congrArg some (fmtC_fields ho (BitVec.eq_of_toNat_eq hk)), hc⟩
    · cases h

theorem decodeSys_encodes (ho : opOf w = 0x23) (h : decodeSys w = .ok i) : encode32 i = some w ∧ i.wellFormed = true := by
  have fn_eq {n : BitVec 11} (hf : (fnOf w).toNat = n.toNat) : fnOf w = n := BitVec.eq_of_toNat_eq hf
  unfold decodeSys at h
  split at h
  case h_6 hf =>
    obtain ⟨sc, hs, h⟩ := needScope_eq_ok h
    split at h
    case h_1 hk =>
      obtain ⟨hb, rfl⟩ := need_eq_ok.1 h
      exact ⟨congrArg some (fmtA_fields ho (tlbD_fields sc (BitVec.eq_of_toNat_eq hk) hs) rfl (beq_iff_eq.1 hb) (fn_eq hf)), rfl⟩
    case h_2 hk =>
      obtain ⟨hz, rfl⟩ := need_eq_ok.1 h
      simp only [Bool.and_eq_true, beq_iff_eq] at hz
      exact ⟨congrArg some (fmtA_fields ho (tlbD_fields sc (BitVec.eq_of_toNat_eq hk) hs) hz.1 hz.2 (fn_eq hf)), rfl⟩
    case h_3 => cases h
  case h_11 => cases h
  case h_7 hf =>
    obtain ⟨hb, rfl⟩ := need_eq_ok.1 h
    exact ⟨congrArg some (fmtA_fields ho rfl rfl (beq_iff_eq.1 hb) (fn_eq hf)), rfl⟩
  case h_8 hf | h_9 hf | h_10 hf =>
    obtain ⟨hd, rfl⟩ := need_eq_ok.1 h
    exact ⟨congrArg some (fmtA_fields ho (beq_iff_eq.1 hd) rfl rfl (fn_eq hf)), rfl⟩
  all_goals
    rename_i hf
    obtain ⟨hz, rfl⟩ := need_eq_ok.1 h
    simp only [Bool.and_eq_true, beq_iff_eq] at hz
    obtain ⟨⟨hd, ha⟩, hb⟩ := hz
    exact ⟨congrArg some (fmtA_fields ho hd ha hb (fn_eq hf)), rfl⟩

theorem decodeHart_encodes (ho : opOf w = 0x24) (h : decodeHart w = .ok i) : encode32 i = some w ∧ i.wellFormed = true := by
  have fn_eq {n : BitVec 11} (hf : (fnOf w).toNat = n.toNat) : fnOf w = n := BitVec.eq_of_toNat_eq hf
  unfold decodeHart at h
  split at h
  case h_1 hf | h_5 hf =>
    obtain ⟨hz, rfl⟩ := need_eq_ok.1 h
    simp only [Bool.and_eq_true, beq_iff_eq] at hz
    obtain ⟨⟨hd, ha⟩, hb⟩ := hz
    exact ⟨congrArg some (fmtA_fields ho hd ha hb (fn_eq hf)), rfl⟩
  case h_2 hf =>
    obtain ⟨hz, rfl⟩ := need_eq_ok.1 h
    simp only [Bool.and_eq_true, beq_iff_eq] at hz
    exact ⟨congrArg some (fmtA_fields ho hz.1 rfl hz.2 (fn_eq hf)), rfl⟩
  case h_3 hf | h_4 hf | h_7 hf =>
    obtain ⟨hb, rfl⟩ := need_eq_ok.1 h
    exact ⟨congrArg some (fmtA_fields ho rfl rfl (beq_iff_eq.1 hb) (fn_eq hf)), rfl⟩
  case h_6 hf =>
    cases h
    exact ⟨congrArg some (fmtA_fields ho rfl rfl rfl (fn_eq hf)), rfl⟩
  case h_8 => cases h

theorem decode32_encodes (h : decode32 w = .ok i) : encode32 i = some w ∧ i.wellFormed = true := by
  have op_eq {n : BitVec 6} (hf : (opOf w).toNat = n.toNat) : opOf w = n := BitVec.eq_of_toNat_eq hf
  unfold decode32 at h
  split at h
  case h_1 ho => exact decodeAlu_encodes (op_eq ho) h
  case h_7 ho => exact decodeShi_encodes (op_eq ho) h
  case h_29 ho => exact decodeAmo_encodes (op_eq ho) h
  case h_30 ho => exact decodeFence_encodes (op_eq ho) h
  case h_35 ho => exact decodeCsr_encodes (op_eq ho) h
  case h_36 ho => exact decodeSys_encodes (op_eq ho) h
  case h_37 ho => exact decodeHart_encodes (op_eq ho) h
  case h_8 ho | h_9 ho =>
    obtain ⟨ha, rfl⟩ := need_eq_ok.1 h
    exact ⟨congrArg some (fmtI_fields (op_eq ho) rfl (beq_iff_eq.1 ha) rfl), rfl⟩
  case h_27 ho =>
    cases h
    exact ⟨congrArg some (fmtJ_fields (op_eq ho) rfl rfl), rfl⟩
  case h_31 ho =>
    obtain ⟨hd, rfl⟩ := need_eq_ok.1 h
    exact ⟨congrArg some (fmtJ_fields (op_eq ho) (beq_iff_eq.1 hd) rfl), rfl⟩
  case h_32 ho =>
    obtain ⟨hd, rfl⟩ := need_eq_ok.1 h
    exact ⟨congrArg some (fmtI_fields (op_eq ho) (beq_iff_eq.1 hd) rfl rfl), rfl⟩
  case h_33 ho =>
    obtain ⟨hf, rfl⟩ := need_eq_ok.1 h
    exact ⟨congrArg some (fmtA_fields (op_eq ho) rfl rfl rfl (beq_iff_eq.1 hf)), rfl⟩
  case h_38 => cases h
  -- the words of formats I and B, whose fields are all operands
  all_goals
    rename_i ho
    cases h
    exact ⟨congrArg some (fmtI_fields (op_eq ho) rfl rfl rfl), rfl⟩

end

/-- Settles O7: each format’s word gives its fields back, and each accepted word is made of the fields that its decoder
has read. -/
theorem scalarRoundTrip : Obligations.ScalarRoundTrip :=
  ⟨decode32_encode32, fun _ _ => decode32_encodes⟩

end Sys2Proof

/-! SUPPORT. The fields of vector words (02_stream R32, R33): what the decoder reads from a word that the encoder made, and a
word made again from its fields. -/

namespace Sys2Proof

section
variable (v : BitVec 8) (c : Bool) (pm : Option (BitVec 3)) (d a b x f s : BitVec 5) (fn : BitVec 21)

theorem fmtV_eq : fmtV v c pm d a b x f s fn = (v ++ BitVec.ofBool c ++ BitVec.ofBool pm.isSome ++ pm.getD 0 ++ d ++ a ++ b ++ x
    ++ f ++ s ++ fn : BitVec (8 + 1 + 1 + 3 + 5 + 5 + 5 + 5 + 5 + 5 + 21)).cast rfl := rfl

theorem fmtV_parts : let w := fmtV v c pm d a b x f s fn
    vopOf w = v ∧ vfield w 55 1 = BitVec.ofBool c ∧ vfield w 54 1 = BitVec.ofBool pm.isSome ∧ pmOf w = pm.getD 0 ∧ dOf w = d
      ∧ aOf w = a ∧ bOf w = b ∧ xOf w = x ∧ fOf w = f ∧ sOf w = s ∧ vfnOf w = fn := by
  simp only [vopOf, pmOf, dOf, aOf, bOf, xOf, fOf, sOf, vfnOf, vfield, fmtV_eq, BitVec.extractLsb'_cast,
    BitVec.extractLsb'_append_eq_of_le, BitVec.extractLsb'_append_eq_of_add_le, BitVec.extractLsb'_eq_self, Nat.reduceLeDiff,
    Nat.reduceSub, and_self]

/-- A bit of a vector word is the field of one bit that stands there. -/
theorem ofBool_bit (w : Word) (i : Nat) : BitVec.ofBool (w.getLsbD i) = vfield w i 1 := ofBool_getLsbD_eq_extractLsb' w i

@[simp] theorem vopOf_fmtV : vopOf (fmtV v c pm d a b x f s fn) = v := (fmtV_parts v c pm d a b x f s fn).1
@[simp] theorem cOf_fmtV : cOf (fmtV v c pm d a b x f s fn) = c :=
  BitVec.ofBool_eq_iff_eq.1 ((ofBool_bit _ _).trans (fmtV_parts v c pm d a b x f s fn).2.1)
@[simp] theorem peOf_fmtV : peOf (fmtV v c pm d a b x f s fn) = pm.isSome :=
  BitVec.ofBool_eq_iff_eq.1 ((ofBool_bit _ _).trans (fmtV_parts v c pm d a b x f s fn).2.2.1)
@[simp] theorem pmOf_fmtV : pmOf (fmtV v c pm d a b x f s fn) = pm.getD 0 := (fmtV_parts v c pm d a b x f s fn).2.2.2.1
@[simp] theorem dOf_fmtV : dOf (fmtV v c pm d a b x f s fn) = d := (fmtV_parts v c pm d a b x f s fn).2.2.2.2.1
@[simp] theorem aOf_fmtV : aOf (fmtV v c pm d a b x f s fn) = a := (fmtV_parts v c pm d a b x f s fn).2.2.2.2.2.1
@[simp] theorem bOf_fmtV : bOf (fmtV v c pm d a b x f s fn) = b := (fmtV_parts v c pm d a b x f s fn).2.2.2.2.2.2.1
@[simp] theorem xOf_fmtV : xOf (fmtV v c pm d a b x f s fn) = x := (fmtV_parts v c pm d a b x f s fn).2.2.2.2.2.2.2.1
@[simp] theorem fOf_fmtV : fOf (fmtV v c pm d a b x f s fn) = f := (fmtV_parts v c pm d a b x f s fn).2.2.2.2.2.2.2.2.1
@[simp] theorem sOf_fmtV : sOf (fmtV v c pm d a b x f s fn) = s := (fmtV_parts v c pm d a b x f s fn).2.2.2.2.2.2.2.2.2.1
@[simp] theorem vfnOf_fmtV : vfnOf (fmtV v c pm d a b x f s fn) = fn := (fmtV_parts v c pm d a b x f s fn).2.2.2.2.2.2.2.2.2.2

@[simp] theorem hdrOk_fmtV : hdrOk (fmtV v c pm d a b x f s fn) = true := by cases pm <;> simp [hdrOk]
@[simp] theorem hdrOf_fmtV : hdrOf (fmtV v c pm d a b x f s fn) = ⟨c, pm⟩ := by cases pm <;> simp [hdrOf]
@[simp] theorem noPm_fmtV : noPm (fmtV v c none d a b x f s fn) = true := by simp [noPm]

theorem vfield_eq_fn (w : Word) {lo len : Nat} (h : lo + len ≤ 21) : vfield w lo len = (vfnOf w).extractLsb' lo len :=
  (BitVec.extractLsb'_extractLsb'_of_le h).symm
theorem bit_eq_fn (w : Word) {i : Nat} (h : i < 21) : w.getLsbD i = (vfnOf w).getLsbD i := by simp [vfnOf, vfield, h]

@[simp] theorem vfield_fmtV {lo len : Nat} (h : lo + len ≤ 21) :
    vfield (fmtV v c pm d a b x f s fn) lo len = fn.extractLsb' lo len := by
  rw [vfield_eq_fn _ h, vfnOf_fmtV]
theorem bit_fmtV {i : Nat} (h : i < 21) : (fmtV v c pm d a b x f s fn).getLsbD i = fn.getLsbD i := by
  rw [bit_eq_fn _ h, vfnOf_fmtV]
@[simp] theorem getElem_fmtV {i : Nat} (h : i < 21) (h' : i < 64) : (fmtV v c pm d a b x f s fn)[i] = fn[i] := by
  rw [← BitVec.getLsbD_eq_getElem, ← BitVec.getLsbD_eq_getElem, bit_fmtV _ _ _ _ _ _ _ _ _ _ h]

/-! ### FN of the sub-formats -/

theorem arithFn_eq (o : BitVec 4) (sb : Bool) :
    arithFn o sb = ((0 : BitVec 16) ++ o ++ BitVec.ofBool sb : BitVec (16 + 4 + 1)).cast rfl := rfl
theorem memFn_eq (hi : BitVec 5) (off : BitVec 16) : memFn hi off = (hi ++ off : BitVec (5 + 16)).cast rfl := rfl
theorem pluralFn_eq (o : BitVec 4) (run : Option (BitVec 5)) (row w : Bool) : pluralFn o run row w =
    ((0 : BitVec 14) ++ BitVec.ofBool w ++ BitVec.ofBool row ++ BitVec.ofBool run.isSome ++ o : BitVec (14 + 1 + 1 + 1 + 4)).cast rfl := rfl
theorem winFn_eq (i0 nr j0 nc : BitVec 5) :
    winFn i0 nr j0 nc = ((0 : BitVec 1) ++ nr ++ i0 ++ nc ++ j0 : BitVec (1 + 5 + 5 + 5 + 5)).cast rfl := rfl

@[simp] theorem arithFn_var (o : BitVec 4) (sb : Bool) : (arithFn o sb).extractLsb' 1 4 = o := by
  simp only [arithFn_eq, BitVec.extractLsb'_cast, BitVec.extractLsb'_append_eq_of_le, BitVec.extractLsb'_append_eq_of_add_le,
    BitVec.extractLsb'_eq_self, Nat.reduceLeDiff, Nat.reduceSub]
@[simp] theorem arithFn_hi (o : BitVec 4) (sb : Bool) : (arithFn o sb).extractLsb' 5 16 = 0 := by
  simp only [arithFn_eq, BitVec.extractLsb'_cast, BitVec.extractLsb'_append_eq_of_le, BitVec.extractLsb'_eq_self, Nat.reduceLeDiff, Nat.reduceSub]
@[simp] theorem arithFn_sb (o : BitVec 4) (sb : Bool) : (arithFn o sb)[0] = sb := by
  simp only [arithFn_eq, BitVec.getElem_cast, BitVec.getElem_append]
  simp
theorem memFn_hi (hi : BitVec 5) (off : BitVec 16) {lo len : Nat} :
    (memFn hi off).extractLsb' (lo + 16) len = hi.extractLsb' lo len := by
  simp only [memFn_eq, BitVec.extractLsb'_cast, BitVec.extractLsb'_append_eq_of_le, Nat.le_add_left, Nat.add_sub_cancel]
@[simp] theorem memFn_top (hi : BitVec 5) (off : BitVec 16) : (memFn hi off).extractLsb' 16 5 = hi := by
  rw [memFn_hi (lo := 0), BitVec.extractLsb'_eq_self]
@[simp] theorem memFn_off (hi : BitVec 5) (off : BitVec 16) : (memFn hi off).extractLsb' 0 16 = off := by
  simp only [memFn_eq, BitVec.extractLsb'_cast, BitVec.extractLsb'_append_eq_of_add_le, BitVec.extractLsb'_eq_self,
    Nat.reduceLeDiff]
theorem memFn_bit (hi : BitVec 5) (off : BitVec 16) (i : Nat) (h : i + 16 < 21) : (memFn hi off)[i + 16] = hi[i] := by
  simp only [memFn_eq, BitVec.getElem_cast, BitVec.getElem_append]
  simp
@[simp] theorem pluralFn_op (o : BitVec 4) (run : Option (BitVec 5)) (row w : Bool) :
    (pluralFn o run row w).extractLsb' 0 4 = o := by
  simp only [pluralFn_eq, BitVec.extractLsb'_cast, BitVec.extractLsb'_append_eq_of_add_le, BitVec.extractLsb'_eq_self,
    Nat.reduceLeDiff]
@[simp] theorem pluralFn_hi (o : BitVec 4) (run : Option (BitVec 5)) (row w : Bool) :
    (pluralFn o run row w).extractLsb' 7 14 = 0 := by
  simp only [pluralFn_eq, BitVec.extractLsb'_cast, BitVec.extractLsb'_append_eq_of_le, BitVec.extractLsb'_eq_self,
    Nat.reduceLeDiff, Nat.reduceSub]
@[simp] theorem pluralFn_run (o : BitVec 4) (run : Option (BitVec 5)) (row w : Bool) :
    (pluralFn o run row w)[4] = run.isSome := by
  simp only [pluralFn_eq, BitVec.getElem_cast, BitVec.getElem_append]
  simp
@[simp] theorem pluralFn_row (o : BitVec 4) (run : Option (BitVec 5)) (row w : Bool) : (pluralFn o run row w)[5] = row := by
  simp only [pluralFn_eq, BitVec.getElem_cast, BitVec.getElem_append]
  simp
@[simp] theorem pluralFn_w (o : BitVec 4) (run : Option (BitVec 5)) (row w : Bool) : (pluralFn o run row w)[6] = w := by
  simp only [pluralFn_eq, BitVec.getElem_cast, BitVec.getElem_append]
  simp
theorem winFn_parts (i0 nr j0 nc : BitVec 5) : let n := winFn i0 nr j0 nc
    n.extractLsb' 0 5 = j0 ∧ n.extractLsb' 5 5 = nc ∧ n.extractLsb' 10 5 = i0 ∧ n.extractLsb' 15 5 = nr := by
  simp only [winFn_eq, BitVec.extractLsb'_cast, BitVec.extractLsb'_append_eq_of_le, BitVec.extractLsb'_append_eq_of_add_le,
    BitVec.extractLsb'_eq_self, Nat.reduceLeDiff, Nat.reduceSub, and_self]
theorem winFn_top (i0 nr j0 nc : BitVec 5) : (winFn i0 nr j0 nc)[20] = false := by
  simp only [winFn_eq, BitVec.getElem_cast, BitVec.getElem_append]
  simp

/-! ### Register fields that name a mask, a tile or a frame -/

@[simp] theorem lowOk_wide3 : ∀ m : BitVec 3, lowOk 8 (wide3 m) = true := by decide
@[simp] theorem low3_wide3 : ∀ m : BitVec 3, low3 (wide3 m) = m := by decide
@[simp] theorem lowOk_frame : ∀ r : BitVec 2, lowOk 4 (r.setWidth 5) = true := by decide
@[simp] theorem low2_frame : ∀ r : BitVec 2, (r.setWidth 5).extractLsb' 0 2 = r := by decide
theorem frameFn_parts : ∀ r : BitVec 2, (r.setWidth 21).extractLsb' 0 2 = r ∧ (r.setWidth 21).extractLsb' 2 19 = 0 := by
  decide

end
end Sys2Proof

/-! ### A vector word from its fields -/

namespace Sys2Proof

section
variable {v : BitVec 8} {c : Bool} {pm : Option (BitVec 3)} {d a b x f s : BitVec 5} {fn : BitVec 21} {w : Word}

theorem fmtV_fields (hv : vopOf w = v) (hc : cOf w = c) (he : peOf w = pm.isSome) (hm : pmOf w = pm.getD 0) (hd : dOf w = d)
    (ha : aOf w = a) (hb : bOf w = b) (hx : xOf w = x) (hf : fOf w = f) (hs : sOf w = s) (hn : vfnOf w = fn) :
    w = fmtV v c pm d a b x f s fn := by
  rw [fmtV_eq, ← he, ← hm]
  subst hv hc hd ha hb hx hf hs hn
  simp only [vopOf, cOf, peOf, pmOf, dOf, aOf, bOf, xOf, fOf, sOf, vfnOf, vfield, ofBool_getLsbD_eq_extractLsb',
    BitVec.extractLsb'_append_extractLsb'_eq_extractLsb']
  exact BitVec.extractLsb'_eq_self.symm

/-- The word of an instruction that may be predicated. -/
theorem fmtV_of_hdrOk (hv : vopOf w = v) (hh : hdrOk w = true) (hd : dOf w = d) (ha : aOf w = a) (hb : bOf w = b) (hx : xOf w = x)
    (hf : fOf w = f) (hs : sOf w = s) (hn : vfnOf w = fn) :
    w = fmtV v (hdrOf w).c (hdrOf w).pm d a b x f s fn := by
  refine fmtV_fields hv rfl ?_ ?_ hd ha hb hx hf hs hn
  · cases he : peOf w <;> simp [hdrOf, he]
  · cases he : peOf w
    · simpa [hdrOf, he, hdrOk] using hh
    · simp [hdrOf, he]
/-- The word of an instruction without a predicate. -/
theorem fmtV_of_noPm (hv : vopOf w = v) (hp : noPm w = true) (hd : dOf w = d) (ha : aOf w = a) (hb : bOf w = b) (hx : xOf w = x)
    (hf : fOf w = f) (hs : sOf w = s) (hn : vfnOf w = fn) : w = fmtV v (cOf w) none d a b x f s fn := by
  simp only [noPm, Bool.and_eq_true, Bool.not_eq_true', beq_iff_eq] at hp
  exact fmtV_fields hv rfl hp.1 hp.2 hd ha hb hx hf hs hn
/-- A comb word. -/
theorem fmtV_of_combOk (hv : vopOf w = v) (hp : combOk w = true) (hd : dOf w = d) (ha : aOf w = a) (hb : bOf w = b)
    (hx : xOf w = x) (hf : fOf w = f) (hs : sOf w = s) (hn : vfnOf w = fn) : w = fmtV v false none d a b x f s fn := by
  simp only [combOk, Bool.and_eq_true, Bool.not_eq_true'] at hp
  rw [← hp.1]
  exact fmtV_of_noPm hv hp.2 hd ha hb hx hf hs hn

theorem wide3_low3 : ∀ {r : BitVec 5}, lowOk 8 r = true → wide3 (low3 r) = r := by decide
theorem frame_low2 : ∀ {r : BitVec 5}, lowOk 4 r = true → (r.extractLsb' 0 2).setWidth 5 = r := by decide

theorem arithFn_fields {o : BitVec 4} {sb : Bool} (ho : varOf w = o.toNat) (hb : w.getLsbD 0 = sb) (hz : fnHiOk w = true) :
    vfnOf w = arithFn o sb := by
  have ho : vfield w 1 4 = o := BitVec.eq_of_toNat_eq ho
  rw [arithFn_eq, ← ho, ← hb, ← beq_iff_eq.1 hz]
  simp only [vfield, ofBool_getLsbD_eq_extractLsb', BitVec.extractLsb'_append_extractLsb'_eq_extractLsb']
  rfl
theorem memFn_fields {hi : BitVec 5} (h : vfield w 16 5 = hi) : vfnOf w = memFn hi (voffOf w) := by
  rw [memFn_eq, ← h]
  simp only [vfield, voffOf, BitVec.extractLsb'_append_extractLsb'_eq_extractLsb']
  rfl
/-- The top of FN in the memory sub-format, as its decoders read it: bits 20 and 19 alone, bit 20 alone, the operation of an
AMO, or bit 16 alone. -/
theorem memHi_parts (w : Word) :
    vfield w 16 5 = BitVec.ofBool (w.getLsbD 20) ++ BitVec.ofBool (w.getLsbD 19) ++ vfield w 16 3
    ∧ vfield w 16 5 = BitVec.ofBool (w.getLsbD 20) ++ vfield w 16 4 ∧ vfield w 16 5 = vfield w 19 2 ++ vfield w 16 3
    ∧ vfield w 16 5 = vfield w 17 4 ++ BitVec.ofBool (w.getLsbD 16) := by
  simp only [vfield, ofBool_getLsbD_eq_extractLsb', BitVec.extractLsb'_append_extractLsb'_eq_extractLsb', and_self]
theorem pluralFn_fields {o : BitVec 4} {run : Option (BitVec 5)} {row ww : Bool} (ho : vfield w 0 4 = o)
    (hr : w.getLsbD 4 = run.isSome) (hw : w.getLsbD 5 = row) (hww : w.getLsbD 6 = ww) (hz : vfield w 7 14 = 0) :
    vfnOf w = pluralFn o run row ww := by
  rw [pluralFn_eq, ← ho, ← hr, ← hw, ← hww, ← hz]
  simp only [vfield, ofBool_getLsbD_eq_extractLsb', BitVec.extractLsb'_append_extractLsb'_eq_extractLsb']
  rfl
theorem winFn_fields (hz : w.getLsbD 20 = false) :
    vfnOf w = winFn (vfield w 10 5) (vfield w 15 5) (vfield w 0 5) (vfield w 5 5) := by
  have hz : vfield w 20 1 = 0 := by rw [← ofBool_bit, hz]; rfl
  rw [winFn_eq, ← hz]
  simp only [vfield, BitVec.extractLsb'_append_extractLsb'_eq_extractLsb']
  rfl
theorem ctriFn_fields (hz : vfield w 10 11 = 0) : vfnOf w = (0 : BitVec 11) ++ vfield w 5 5 ++ vfield w 0 5 := by
  rw [← hz]
  simp only [vfield, BitVec.extractLsb'_append_extractLsb'_eq_extractLsb']
  rfl
theorem frameFn_fields (hz : vfield w 2 19 = 0) : vfnOf w = (vfield w 0 2).setWidth 21 := by
  have e : vfnOf w = (0 : BitVec 19) ++ vfield w 0 2 := by
    rw [← hz]
    simp only [vfield, BitVec.extractLsb'_append_extractLsb'_eq_extractLsb']
    rfl
  rw [e]
  exact (show ∀ r : BitVec 2, ((0 : BitVec 19) ++ r : BitVec 21) = r.setWidth 21 by decide) _

/-! ### What each sub-format's decoder accepts -/

variable {i : Instr} {o : BitVec 4}

@[simp] theorem varOf_encBin (h : VHdr) (b : VSrc) : varOf (encBin v o h d a b x f) = o.toNat := by
  cases b <;> simp [varOf, encBin]
@[simp] theorem vopOf_encBin (h : VHdr) (b : VSrc) : vopOf (encBin v o h d a b x f) = v := by
  cases b <;> simp [encBin]

/-- The arithmetic sub-format made again from its fields. -/
theorem encBin_fields (hv : vopOf w = v) (ho : varOf w = o.toNat) (hh : hdrOk w = true) (hs : srcOk w = true)
    (hn : fnHiOk w = true) (hd : dOf w = d) (hx : xOf w = x) : w = encBin v o (hdrOf w) d (aOf w) (srcOf w) x (fOf w) := by
  cases hb : w.getLsbD 0 with
  | false =>
    simp only [srcOk, hb, Bool.false_eq_true, if_false, beq_iff_eq] at hs
    simp only [srcOf, hb, Bool.false_eq_true, if_false, encBin]
    exact fmtV_of_hdrOk hv hh hd rfl rfl hx rfl hs (arithFn_fields ho hb hn)
  | true =>
    simp only [srcOk, hb, if_true, beq_iff_eq] at hs
    simp only [srcOf, hb, if_true, encBin]
    exact fmtV_of_hdrOk hv hh hd rfl hs hx rfl rfl (arithFn_fields ho hb hn)
@[simp] theorem srcOk_encBin (h : VHdr) (b : VSrc) : srcOk (encBin v o h d a b x f) = true := by
  cases b <;> simp [srcOk, encBin]
@[simp] theorem srcOf_encBin (h : VHdr) (b : VSrc) : srcOf (encBin v o h d a b x f) = b := by
  cases b <;> simp [srcOf, encBin]
theorem encBin_parts (h : VHdr) (b : VSrc) : let w := encBin v o h d a b x f
    hdrOk w = true ∧ hdrOf w = h ∧ fnHiOk w = true ∧ dOf w = d ∧ aOf w = a ∧ xOf w = x ∧ fOf w = f := by
  cases b <;> simp [encBin, fnHiOk]

theorem decBin_eq_ok {k : VHdr → BitVec 5 → BitVec 5 → VSrc → BitVec 5 → Instr} (hv : vopOf w = v) (ho : varOf w = o.toNat) :
    decBin w k = .ok i ↔ ∃ h d a b f, i = k h d a b f ∧ w = encBin v o h d a b 0 f := by
  constructor
  · intro h
    obtain ⟨hz, rfl⟩ := need_eq_ok.1 h
    simp only [Bool.and_eq_true, beq_iff_eq] at hz
    obtain ⟨⟨⟨hh, hs⟩, hn⟩, hx⟩ := hz
    exact ⟨_, _, _, _, _, rfl, encBin_fields hv ho hh hs hn rfl hx⟩
  · rintro ⟨h, d, a, b, f, rfl, rfl⟩
    simp [decBin, encBin_parts, need]
theorem decBin0_eq_ok {k : VHdr → BitVec 5 → BitVec 5 → VSrc → BitVec 5 → Instr} (hv : vopOf w = v) :
    decBin0 w k = .ok i ↔ ∃ h d a b f, i = k h d a b f ∧ w = encBin v 0 h d a b 0 f := by
  unfold decBin0
  split
  · next ho => exact decBin_eq_ok hv ho
  · next ho =>
    refine ⟨(nomatch ·), ?_⟩
    rintro ⟨h, d, a, b, f, rfl, rfl⟩
    simp at ho
theorem decFma_eq_ok {k : VHdr → BitVec 5 → BitVec 5 → VSrc → BitVec 5 → BitVec 5 → Instr} (hv : vopOf w = v) :
    decFma w k = .ok i ↔ ∃ h d a b x f, i = k h d a b x f ∧ w = encBin v 0 h d a b x f := by
  constructor
  · intro h
    unfold decFma at h
    split at h
    · next ho =>
      obtain ⟨hz, rfl⟩ := need_eq_ok.1 h
      simp only [Bool.and_eq_true] at hz
      obtain ⟨⟨hh, hs⟩, hn⟩ := hz
      exact ⟨_, _, _, _, _, _, rfl, encBin_fields hv ho hh hs hn rfl rfl⟩
    · cases h
  · rintro ⟨h, d, a, b, x, f, rfl, rfl⟩
    simp [decFma, encBin_parts, need]
theorem decUn_eq_ok {k : VHdr → BitVec 5 → BitVec 5 → BitVec 5 → Instr} (hv : vopOf w = v) :
    decUn w k = .ok i ↔ ∃ h d a f, i = k h d a f ∧ w = encUn v h d a f := by
  constructor
  · intro h
    obtain ⟨hz, rfl⟩ := need_eq_ok.1 h
    simp only [fnZero, Bool.and_eq_true, beq_iff_eq] at hz
    obtain ⟨⟨⟨⟨hh, hb⟩, hx⟩, hs⟩, hn⟩ := hz
    exact ⟨_, _, _, _, rfl, fmtV_of_hdrOk hv hh rfl rfl hb hx rfl hs hn⟩
  · rintro ⟨h, d, a, f, rfl, rfl⟩
    simp [decUn, encUn, fnZero, need]
theorem decSplat_eq_ok {k : VHdr → BitVec 5 → BitVec 5 → BitVec 5 → Instr} (hv : vopOf w = v) :
    decSplat w k = .ok i ↔ ∃ h d s f, i = k h d s f ∧ w = fmtV v h.c h.pm d 0 0 0 f s 0 := by
  constructor
  · intro h
    obtain ⟨hz, rfl⟩ := need_eq_ok.1 h
    simp only [fnZero, Bool.and_eq_true, beq_iff_eq] at hz
    obtain ⟨⟨⟨⟨hh, ha⟩, hb⟩, hx⟩, hn⟩ := hz
    exact ⟨_, _, _, _, rfl, fmtV_of_hdrOk hv hh rfl ha hb hx rfl rfl hn⟩
  · rintro ⟨h, d, s, f, rfl, rfl⟩
    simp [decSplat, fnZero, need]
theorem decMask_eq_ok {k : VHdr → BitVec 3 → BitVec 3 → BitVec 3 → Instr} (hv : vopOf w = v) :
    decMask w k = .ok i ↔ ∃ h d a b, i = k h d a b ∧ w = fmtV v h.c h.pm (wide3 d) (wide3 a) (wide3 b) 0 0 0 0 := by
  constructor
  · intro h
    obtain ⟨hz, rfl⟩ := need_eq_ok.1 h
    simp only [fnZero, Bool.and_eq_true, beq_iff_eq] at hz
    obtain ⟨⟨⟨⟨⟨⟨⟨hh, hd⟩, ha⟩, hb⟩, hx⟩, hf⟩, hs⟩, hn⟩ := hz
    exact ⟨_, _, _, _, rfl, fmtV_of_hdrOk hv hh (wide3_low3 hd).symm (wide3_low3 ha).symm (wide3_low3 hb).symm hx hf hs hn⟩
  · rintro ⟨h, d, a, b, rfl, rfl⟩
    simp [decMask, fnZero, need]
theorem decMpop_eq_ok {k : VHdr → BitVec 5 → BitVec 3 → Instr} (hv : vopOf w = v) :
    decMpop w k = .ok i ↔ ∃ h d a, i = k h d a ∧ w = fmtV v h.c h.pm d (wide3 a) 0 0 0 0 0 := by
  constructor
  · intro h
    obtain ⟨hz, rfl⟩ := need_eq_ok.1 h
    simp only [fnZero, Bool.and_eq_true, beq_iff_eq] at hz
    obtain ⟨⟨⟨⟨⟨⟨hh, ha⟩, hb⟩, hx⟩, hf⟩, hs⟩, hn⟩ := hz
    exact ⟨_, _, _, rfl, fmtV_of_hdrOk hv hh rfl (wide3_low3 ha).symm hb hx hf hs hn⟩
  · rintro ⟨h, d, a, rfl, rfl⟩
    simp [decMpop, fnZero, need]
theorem decMset_eq_ok {k : VHdr → BitVec 3 → BitVec 5 → Instr} (hv : vopOf w = v) (ho : varOf w = o.toNat) :
    decMset w k = .ok i ↔ ∃ h d s, i = k h d s ∧ w = fmtV v h.c h.pm (wide3 d) 0 0 0 0 s (arithFn o false) := by
  constructor
  · intro h
    obtain ⟨hz, rfl⟩ := need_eq_ok.1 h
    simp only [Bool.and_eq_true, beq_iff_eq, Bool.not_eq_true'] at hz
    obtain ⟨⟨⟨⟨⟨⟨⟨hh, hd⟩, ha⟩, hb⟩, hx⟩, hf⟩, hn⟩, h0⟩ := hz
    exact ⟨_, _, _, rfl, fmtV_of_hdrOk hv hh (wide3_low3 hd).symm ha hb hx hf rfl (arithFn_fields ho h0 hn)⟩
  · rintro ⟨h, d, s, rfl, rfl⟩
    simp [decMset, fnHiOk, need]
theorem condOf_code (cc : VCond) : condOf cc.code.toNat = some cc := by cases cc <;> rfl
theorem code_of_condOf {n : Nat} {cc : VCond} (h : condOf n = some cc) : n = cc.code.toNat := by
  unfold condOf at h
  split at h <;> cases h <;> rfl
theorem decVcmp_eq_ok (hv : vopOf w = 0x2B) :
    decVcmp w = .ok i ↔ ∃ h cc d a b f, i = .vcmp h cc d a b f ∧ w = encBin 0x2B cc.code h (wide3 d) a b 0 f := by
  constructor
  · intro h
    unfold decVcmp at h
    split at h
    · next cc hc =>
      obtain ⟨hz, rfl⟩ := need_eq_ok.1 h
      simp only [Bool.and_eq_true, beq_iff_eq] at hz
      obtain ⟨⟨⟨⟨hh, hs⟩, hn⟩, hx⟩, hd⟩ := hz
      exact ⟨_, _, _, _, _, _, rfl, encBin_fields hv (code_of_condOf hc) hh hs hn (wide3_low3 hd).symm hx⟩
    · cases h
  · rintro ⟨h, cc, d, a, b, f, rfl, rfl⟩
    simp [decVcmp, encBin_parts, condOf_code, need]
theorem decPack_eq_ok {k : Bool → BitVec 5 → BitVec 5 → BitVec 3 → BitVec 5 → Instr} (hv : vopOf w = v) :
    decPack w k = .ok i ↔ ∃ c d a m f, i = k c d a m f ∧ w = fmtV v c none d a 0 (wide3 m) f 0 0 := by
  constructor
  · intro h
    obtain ⟨hz, rfl⟩ := need_eq_ok.1 h
    simp only [fnZero, Bool.and_eq_true, beq_iff_eq] at hz
    obtain ⟨⟨⟨⟨hp, hb⟩, hx⟩, hs⟩, hn⟩ := hz
    exact ⟨_, _, _, _, _, rfl, fmtV_of_noPm hv hp rfl rfl hb (wide3_low3 hx).symm rfl hs hn⟩
  · rintro ⟨c, d, a, m, f, rfl, rfl⟩
    simp [decPack, fnZero, need]
theorem decSlide_eq_ok {k : VHdr → BitVec 5 → BitVec 5 → BitVec 5 → BitVec 5 → Instr} (hv : vopOf w = v) :
    decSlide w k = .ok i ↔ ∃ h d a s f, i = k h d a s f ∧ w = fmtV v h.c h.pm d a 0 0 f s 0 := by
  constructor
  · intro h
    obtain ⟨hz, rfl⟩ := need_eq_ok.1 h
    simp only [fnZero, Bool.and_eq_true, beq_iff_eq] at hz
    obtain ⟨⟨⟨hh, hb⟩, hx⟩, hn⟩ := hz
    exact ⟨_, _, _, _, _, rfl, fmtV_of_hdrOk hv hh rfl rfl hb hx rfl rfl hn⟩
  · rintro ⟨h, d, a, s, f, rfl, rfl⟩
    simp [decSlide, fnZero, need]
/-- The plain memory sub-format of VSTS, VSTX and VSTXO. -/
theorem decVsts_eq_ok {k : VHdr → BitVec 5 → BitVec 5 → BitVec 5 → BitVec 5 → BitVec 16 → Instr} (hv : vopOf w = v) :
    decVsts w k = .ok i ↔ ∃ h a s b f off, i = k h a s b f off ∧ w = fmtV v h.c h.pm 0 a b 0 f s (memFn 0 off) := by
  constructor
  · intro h
    obtain ⟨hz, rfl⟩ := need_eq_ok.1 h
    simp only [memFnOk, Bool.and_eq_true, beq_iff_eq] at hz
    obtain ⟨⟨⟨hh, hd⟩, hx⟩, hn⟩ := hz
    exact ⟨_, _, _, _, _, _, rfl, fmtV_of_hdrOk hv hh hd rfl rfl hx rfl rfl (memFn_fields hn)⟩
  · rintro ⟨h, a, s, b, f, off, rfl, rfl⟩
    simp [decVsts, memFnOk, voffOf, need]
theorem decVstp_eq_ok {k : VHdr → BitVec 5 → BitVec 3 → BitVec 5 → BitVec 5 → BitVec 5 → BitVec 16 → Instr} (hv : vopOf w = v) :
    decVstp w k = .ok i ↔ ∃ h a x s b f off, i = k h a x s b f off ∧ w = fmtV v h.c h.pm 0 a b (wide3 x) f s (memFn 0 off) := by
  constructor
  · intro h
    obtain ⟨hz, rfl⟩ := need_eq_ok.1 h
    simp only [memFnOk, Bool.and_eq_true, beq_iff_eq] at hz
    obtain ⟨⟨⟨hh, hd⟩, hx⟩, hn⟩ := hz
    exact ⟨_, _, _, _, _, _, _, rfl, fmtV_of_hdrOk hv hh hd rfl rfl (wide3_low3 hx).symm rfl rfl (memFn_fields hn)⟩
  · rintro ⟨h, a, x, s, b, f, off, rfl, rfl⟩
    simp [decVstp, memFnOk, voffOf, need]
theorem decCget_eq_ok {k : BitVec 5 → BitVec 3 → BitVec 5 → BitVec 5 → BitVec 5 → BitVec 5 → BitVec 5 → BitVec 5 → Instr}
    (hv : vopOf w = v) : decCget w k = .ok i ↔
      ∃ d a s f i0 nr j0 nc, i = k d a s f i0 nr j0 nc ∧ w = fmtV v false none d (wide3 a) 0 0 f s (winFn i0 nr j0 nc) := by
  constructor
  · intro h
    obtain ⟨hz, rfl⟩ := need_eq_ok.1 h
    simp only [Bool.and_eq_true, beq_iff_eq, Bool.not_eq_true'] at hz
    obtain ⟨⟨⟨⟨hc, ha⟩, hb⟩, hx⟩, hn⟩ := hz
    exact ⟨_, _, _, _, _, _, _, _, rfl, fmtV_of_combOk hv hc rfl (wide3_low3 ha).symm hb hx rfl rfl (winFn_fields hn)⟩
  · rintro ⟨d, a, s, f, i0, nr, j0, nc, rfl, rfl⟩
    simp [decCget, combOk, winFn_parts, winFn_top, need]

end
end Sys2Proof

/-! ### Decoders of several operations -/

namespace Sys2Proof

/-- VOP of the loads that have a .K form, by its address form (08_memory R178). -/
def KForm.vop : KForm → BitVec 8
  | .unit => 0x50
  | .strided _ => 0x51
  | .indexed _ => 0x52
/-- B of a load, by its address form (08_memory R178). -/
def KForm.strideReg : KForm → BitVec 5
  | .unit => 0
  | .strided b | .indexed b => b

section
variable {v : BitVec 8} {c : Bool} {d a b x f s : BitVec 5} {w : Word} {i : Instr} {o : BitVec 4}

/-- A word that is the encoding of an instruction. -/
theorem encode64_of_eq {u : Word} (he : encode64 i = some u) (h : w = u) : encode64 i = some w := he.trans (congrArg some h.symm)

/-- A reduction made again from its fields. -/
theorem encRed_fields (hv : vopOf w = 0x2C) (ho : varOf w = o.toNat)
    (hz : (hdrOk w && fnHiOk w && bOf w == 0 && xOf w == 0 && (w.getLsbD 0 || sOf w == 0)) = true) :
    w = encRed o (hdrOf w) (dOf w) (aOf w) (if w.getLsbD 0 then some (sOf w) else none) (fOf w) := by
  simp only [Bool.and_eq_true, Bool.or_eq_true, beq_iff_eq] at hz
  obtain ⟨⟨⟨⟨hh, hn⟩, hb⟩, hx⟩, hs⟩ := hz
  cases h0 : w.getLsbD 0 with
  | false =>
    rw [h0, Bool.false_eq_true, false_or] at hs
    exact fmtV_of_hdrOk hv hh rfl rfl hb hx rfl hs (arithFn_fields ho h0 hn)
  | true => exact fmtV_of_hdrOk hv hh rfl rfl hb hx rfl rfl (arithFn_fields ho h0 hn)
theorem decVred_encodes (hv : vopOf w = 0x2C) (h : decVred w = .ok i) : encode64 i = some w := by
  unfold decVred at h
  dsimp only at h
  split at h
  case h_8 => cases h
  all_goals
    rename_i ho
    obtain ⟨hz, rfl⟩ := need_eq_ok.1 h
    exact encode64_of_eq rfl (encRed_fields hv ho hz)

theorem decVresh_encodes (hv : vopOf w = 0x45) (h : decVresh w = .ok i) : encode64 i = some w := by
  unfold decVresh at h
  split at h
  case h_4 => cases h
  all_goals
    rename_i ho
    obtain ⟨hz, rfl⟩ := need_eq_ok.1 h
    simp only [Bool.and_eq_true, beq_iff_eq, Bool.not_eq_true'] at hz
    obtain ⟨⟨⟨⟨hp, hb⟩, hx⟩, hn⟩, h0⟩ := hz
    exact encode64_of_eq rfl (fmtV_of_noPm hv hp rfl rfl hb hx rfl rfl (arithFn_fields ho h0 hn))

/-- FN[20:16] of a load, where FN[20] is 0: FN[19] alone tells the .K form. -/
theorem memHi_load {t k : Bool} (ht : w.getLsbD 20 = t) (hk : w.getLsbD 19 = k) (hz : vfield w 16 3 = 0) :
    vfield w 16 5 = BitVec.ofBool t ++ BitVec.ofBool k ++ (0 : BitVec 3) := by
  rw [(memHi_parts w).1, ht, hk, hz]

/-- The word of a .K load, with what its address form puts into it. -/
theorem encK_eq (c : Bool) (pm : BitVec 3) (k : KForm) (d s f : BitVec 5) (off : BitVec 16) :
    encK c pm k d s f off = fmtV k.vop c (some pm) d 0 k.strideReg 0 f s (memFn 8 off) := by cases k <;> rfl

theorem decLoad_encodes {z : Bool} {k : KForm} {j : Instr} (hv : vopOf w = k.vop)
    (hb : z = true → aOf w = 0 ∧ bOf w = k.strideReg ∧ xOf w = 0)
    (hj : encode64 j = some (fmtV k.vop (hdrOf w).c (hdrOf w).pm (dOf w) 0 k.strideReg 0 (fOf w) (sOf w) (memFn 0 (voffOf w))))
    (h : decLoad w z k j = .ok i) : encode64 i = some w := by
  unfold decLoad at h
  split at h
  · next hk =>
    obtain ⟨hz, rfl⟩ := need_eq_ok.1 h
    simp only [Bool.and_eq_true, beq_iff_eq, Bool.not_eq_true'] at hz
    obtain ⟨⟨⟨hz, h20⟩, h16⟩, he⟩ := hz
    obtain ⟨ha, hb, hx⟩ := hb hz
    exact encode64_of_eq (congrArg some (encK_eq _ _ _ _ _ _ _))
      (fmtV_fields hv rfl he rfl rfl ha hb hx rfl rfl (memFn_fields (memHi_load h20 hk h16)))
  · next hk =>
    obtain ⟨hz, rfl⟩ := need_eq_ok.1 h
    simp only [Bool.and_eq_true, beq_iff_eq, Bool.not_eq_true'] at hz
    obtain ⟨⟨⟨hz, h20⟩, h16⟩, hh⟩ := hz
    obtain ⟨ha, hb, hx⟩ := hb hz
    exact encode64_of_eq hj (fmtV_of_hdrOk hv hh rfl ha hb hx rfl rfl
      (memFn_fields (memHi_load h20 (Bool.eq_false_of_not_eq_true hk) h16)))

theorem decVld_encodes (hv : vopOf w = 0x50) (h : decVld w = .ok i) : encode64 i = some w := by
  unfold decVld at h
  dsimp only at h
  split at h
  · next h20 =>
    obtain ⟨hz, rfl⟩ := need_eq_ok.1 h
    simp only [Bool.and_eq_true, beq_iff_eq, Bool.not_eq_true'] at hz
    obtain ⟨⟨⟨⟨⟨ha, hb⟩, hx⟩, h19⟩, h16⟩, hp⟩ := hz
    exact encode64_of_eq rfl (fmtV_of_noPm hv hp rfl ha hb hx rfl rfl (memFn_fields (memHi_load h20 h19 h16)))
  · refine decLoad_encodes (k := .unit) hv (fun hz => ?_) rfl h
    simp only [Bool.and_eq_true, beq_iff_eq] at hz
    exact ⟨hz.1.1, hz.1.2, hz.2⟩

theorem decVst_encodes (hv : vopOf w = 0x54) (h : decVst w = .ok i) : encode64 i = some w := by
  have top {t : Bool} (ht : w.getLsbD 20 = t) (hz : vfield w 16 4 = 0) : vfield w 16 5 = BitVec.ofBool t ++ (0 : BitVec 4) := by
    rw [(memHi_parts w).2.1, ht, hz]
  unfold decVst at h
  dsimp only at h
  split at h
  · next h20 =>
    obtain ⟨hz, rfl⟩ := need_eq_ok.1 h
    simp only [Bool.and_eq_true, beq_iff_eq] at hz
    obtain ⟨⟨⟨hb, hx⟩, h16⟩, hp⟩ := hz
    exact encode64_of_eq rfl (fmtV_of_noPm hv hp rfl rfl hb hx rfl rfl (memFn_fields (top h20 h16)))
  · next h20 =>
    obtain ⟨hz, rfl⟩ := need_eq_ok.1 h
    simp only [Bool.and_eq_true, beq_iff_eq] at hz
    obtain ⟨⟨⟨⟨hb, hx⟩, h16⟩, hh⟩, hd⟩ := hz
    exact encode64_of_eq rfl (fmtV_of_hdrOk hv hh hd rfl hb hx rfl rfl
      (memFn_fields (top (Bool.eq_false_of_not_eq_true h20) h16)))

theorem decVamo_encodes (hv : vopOf w = 0x58) (h : decVamo w = .ok i) : encode64 i = some w := by
  have top {o : BitVec 5} (ho : (vfield w 16 3).toNat = o.toNat) (hz : vfield w 19 2 = 0) : vfield w 16 5 = o := by
    rw [(memHi_parts w).2.2.1, hz]
    exact BitVec.eq_of_toNat_eq ((BitVec.toNat_append _ _).trans (by simpa using ho))
  unfold decVamo at h
  split at h
  case h_8 => cases h
  case h_3 ho =>
    obtain ⟨hz, rfl⟩ := need_eq_ok.1 h
    simp only [Bool.and_eq_true, beq_iff_eq] at hz
    exact encode64_of_eq rfl (fmtV_of_hdrOk hv hz.1 rfl rfl rfl rfl rfl rfl (memFn_fields (top ho hz.2)))
  all_goals
    rename_i ho
    obtain ⟨hz, rfl⟩ := need_eq_ok.1 h
    simp only [Bool.and_eq_true, beq_iff_eq] at hz
    obtain ⟨⟨hh, hz⟩, hx⟩ := hz
    exact encode64_of_eq rfl (fmtV_of_hdrOk hv hh rfl rfl rfl hx rfl rfl (memFn_fields (top ho hz)))

theorem memHi_whole {t : Bool} (ht : w.getLsbD 16 = t) (hz : vfield w 17 4 = 0) :
    vfield w 16 5 = (0 : BitVec 4) ++ BitVec.ofBool t := by
  rw [(memHi_parts w).2.2.2, ht, hz]
theorem decVldw_encodes (hv : vopOf w = 0x5C) (h : decVldw w = .ok i) : encode64 i = some w := by
  unfold decVldw at h
  dsimp only at h
  split at h
  · next h16 =>
    obtain ⟨hz, rfl⟩ := need_eq_ok.1 h
    simp only [Bool.and_eq_true, beq_iff_eq] at hz
    obtain ⟨⟨⟨⟨⟨⟨hp, ha⟩, hb⟩, hx⟩, hf⟩, hn⟩, hd⟩ := hz
    exact encode64_of_eq rfl (fmtV_of_noPm hv hp (wide3_low3 hd).symm ha hb hx hf rfl (memFn_fields (memHi_whole h16 hn)))
  · next h16 =>
    obtain ⟨hz, rfl⟩ := need_eq_ok.1 h
    simp only [Bool.and_eq_true, beq_iff_eq] at hz
    obtain ⟨⟨⟨⟨⟨hp, ha⟩, hb⟩, hx⟩, hf⟩, hn⟩ := hz
    exact encode64_of_eq rfl (fmtV_of_noPm hv hp rfl ha hb hx hf rfl
      (memFn_fields (memHi_whole (Bool.eq_false_of_not_eq_true h16) hn)))
theorem decVstw_encodes (hv : vopOf w = 0x5D) (h : decVstw w = .ok i) : encode64 i = some w := by
  unfold decVstw at h
  dsimp only at h
  split at h
  · next h16 =>
    obtain ⟨hz, rfl⟩ := need_eq_ok.1 h
    simp only [Bool.and_eq_true, beq_iff_eq] at hz
    obtain ⟨⟨⟨⟨⟨⟨hp, hd⟩, hb⟩, hx⟩, hf⟩, hn⟩, ha⟩ := hz
    exact encode64_of_eq rfl (fmtV_of_noPm hv hp hd (wide3_low3 ha).symm hb hx hf rfl (memFn_fields (memHi_whole h16 hn)))
  · next h16 =>
    obtain ⟨hz, rfl⟩ := need_eq_ok.1 h
    simp only [Bool.and_eq_true, beq_iff_eq] at hz
    obtain ⟨⟨⟨⟨⟨hp, hd⟩, hb⟩, hx⟩, hf⟩, hn⟩ := hz
    exact encode64_of_eq rfl (fmtV_of_noPm hv hp hd rfl hb hx hf rfl
      (memFn_fields (memHi_whole (Bool.eq_false_of_not_eq_true h16) hn)))

/-- A plural word made again from its fields. -/
theorem encPlural_fields {row ww : Bool} (hv : vopOf w = v) (ho : (vfield w 0 4).toNat = o.toNat) (hp : pluralOk w = true)
    (hd : dOf w = d) (hb : bOf w = b) (hr : w.getLsbD 5 = row) (hw : w.getLsbD 6 = ww) :
    w = encPlural v o (cOf w) d (aOf w) b (xOf w) (fOf w) (runOf w) row ww := by
  simp only [pluralOk, Bool.and_eq_true, Bool.or_eq_true, beq_iff_eq] at hp
  obtain ⟨⟨hp, hz⟩, hs⟩ := hp
  have ho := BitVec.eq_of_toNat_eq ho
  cases h4 : w.getLsbD 4 with
  | false =>
    rw [h4, Bool.false_eq_true, false_or] at hs
    simp only [runOf, h4, Bool.false_eq_true, if_false]
    exact fmtV_of_noPm hv hp hd rfl hb rfl rfl hs (pluralFn_fields ho h4 hr hw hz)
  | true =>
    simp only [runOf, h4, if_true]
    exact fmtV_of_noPm hv hp hd rfl hb rfl rfl rfl (pluralFn_fields ho h4 hr hw hz)
theorem decPst_encodes (hv : vopOf w = 0x60) (h : decPst w = .ok i) : encode64 i = some w := by
  obtain ⟨hz, rfl⟩ := need_eq_ok.1 h
  simp only [Bool.and_eq_true, beq_iff_eq, Bool.not_eq_true'] at hz
  obtain ⟨⟨⟨hp, hd⟩, ho⟩, hr⟩ := hz
  exact encode64_of_eq rfl (encPlural_fields hv (congrArg BitVec.toNat ho) hp hd rfl hr rfl)
theorem decPop_encodes (hv : vopOf w = 0x61) (h : decPop w = .ok i) : encode64 i = some w := by
  unfold decPop at h
  split at h
  case h_9 => cases h
  all_goals
    rename_i ho
    obtain ⟨hz, rfl⟩ := need_eq_ok.1 h
    simp only [Bool.and_eq_true, beq_iff_eq] at hz
    exact encode64_of_eq rfl (encPlural_fields hv ho hz.1 hz.2 rfl rfl rfl)
theorem decPld_encodes (hv : vopOf w = 0x62) (h : decPld w = .ok i) : encode64 i = some w := by
  unfold decPld at h
  split at h
  case h_8 => cases h
  all_goals
    rename_i ho
    obtain ⟨hz, rfl⟩ := need_eq_ok.1 h
    simp only [Bool.and_eq_true, beq_iff_eq, Bool.not_eq_true'] at hz
    obtain ⟨⟨hp, hb⟩, hr⟩ := hz
    exact encode64_of_eq rfl (encPlural_fields hv ho hp rfl hb hr rfl)

theorem decEnq_encodes (hv : vopOf w = 0x80) (h : decEnq w = .ok i) : encode64 i = some w := by
  unfold decEnq at h
  split at h
  case h_3 => cases h
  all_goals
    rename_i ho
    obtain ⟨hz, rfl⟩ := need_eq_ok.1 h
    simp only [Bool.and_eq_true, beq_iff_eq] at hz
    obtain ⟨⟨⟨⟨⟨hh, hd⟩, hb⟩, hf⟩, hs⟩, hn⟩ := hz
    refine encode64_of_eq rfl (fmtV_of_hdrOk hv hh (wide3_low3 hd).symm rfl hb rfl hf hs ?_)
    rw [frameFn_fields hn]
    exact BitVec.eq_of_toNat_eq ((BitVec.toNat_setWidth_of_le (by decide)).trans ho)

end
end Sys2Proof

/-! ### Accepted words are the encodings of their instructions -/

namespace Sys2Proof

section
variable {w : Word} {i : Instr}

theorem vop_eq {n : Nat} (h : (vopOf w).toNat = n) : vopOf w = BitVec.ofNat 8 n := by
  rw [← h, BitVec.ofNat_toNat, BitVec.setWidth_eq]
/-- A field inside bits that are all 0. -/
theorem vfield_zero {n lo len : Nat} (hz : vfield w 0 n = 0) (h : lo + len ≤ n) : vfield w lo len = 0 := by
  rw [vfield, ← BitVec.extractLsb'_extractLsb'_of_le h]
  exact (congrArg (BitVec.extractLsb' lo len) hz).trans BitVec.extractLsb'_zero
/-- A word of which everything below the C bit is 0. -/
theorem fmtV_zero {v : BitVec 8} {c : Bool} (hv : vopOf w = v) (hc : cOf w = c) (hz : vfield w 0 55 = 0) :
    w = fmtV v c none 0 0 0 0 0 0 0 := by
  have he : peOf w = false := BitVec.ofBool_eq_iff_eq.1 ((ofBool_bit w 54).trans (vfield_zero hz (by decide)))
  have zero {lo len : Nat} (h : lo + len ≤ 55) : vfield w lo len = 0 := vfield_zero hz h
  exact fmtV_fields hv hc he (zero (by decide)) (zero (by decide)) (zero (by decide)) (zero (by decide)) (zero (by decide))
    (zero (by decide)) (zero (by decide)) (zero (by decide))

theorem vstop_encodes (hv : vopOf w = 0) (h : need (vfield w 0 56 == 0) .vstop = .ok i) : encode64 i = some w := by
  obtain ⟨hz, rfl⟩ := need_eq_ok.1 h
  have e : w = vopOf w ++ vfield w 0 56 := by
    simp only [vopOf, vfield, BitVec.extractLsb'_append_extractLsb'_eq_extractLsb']
    exact BitVec.extractLsb'_eq_self.symm
  rw [hv, beq_iff_eq.1 hz] at e
  exact encode64_of_eq rfl e

theorem decode64_encodes (h : decode64 w = .ok i) : encode64 i = some w := by
  unfold decode64 at h
  split at h
  case h_83 => cases h
  all_goals
    rename_i hv
    replace hv := vop_eq hv
  -- VSTOP
  case h_1 =>
    exact vstop_encodes hv h
  -- VNOP
  case h_2 =>
    obtain ⟨hz, rfl⟩ := need_eq_ok.1 h
    exact encode64_of_eq rfl (fmtV_zero hv rfl (beq_iff_eq.1 hz))
  -- two operands
  case h_3 | h_4 | h_5 | h_9 | h_11 | h_12 | h_16 | h_17 | h_18 | h_19 =>
    obtain ⟨h, d, a, b, f, rfl, rfl⟩ := (decBin0_eq_ok hv).1 h
    rfl
  -- VFMA, VFMS and VFNMA
  case h_6 | h_7 | h_8 =>
    obtain ⟨h, d, a, b, x, f, rfl, rfl⟩ := (decFma_eq_ok hv).1 h
    rfl
  -- one operand
  case h_10 | h_13 | h_14 | h_21 | h_22 | h_23 | h_24 | h_25 | h_27 =>
    obtain ⟨h, d, a, f, rfl, rfl⟩ := (decUn_eq_ok hv).1 h
    rfl
  -- VCLAMP
  case h_15 =>
    split at h
    · cases h
    · next ho =>
      replace ho := not_not.1 ho
      split at h
      · next h0 =>
        obtain ⟨hz, rfl⟩ := need_eq_ok.1 h
        simp only [Bool.and_eq_true, beq_iff_eq] at hz
        obtain ⟨⟨⟨hh, hb⟩, hx⟩, hn⟩ := hz
        exact encode64_of_eq rfl (fmtV_of_hdrOk hv hh rfl rfl hb hx rfl rfl (arithFn_fields ho h0 hn))
      · next h0 =>
        obtain ⟨hz, rfl⟩ := need_eq_ok.1 h
        simp only [Bool.and_eq_true, beq_iff_eq] at hz
        obtain ⟨⟨hh, hs⟩, hn⟩ := hz
        exact encode64_of_eq rfl
          (fmtV_of_hdrOk hv hh rfl rfl rfl rfl rfl hs (arithFn_fields ho (Bool.eq_false_of_not_eq_true h0) hn))
  -- VSHR and VSHR.A
  case h_20 =>
    split at h
    case h_1 ho =>
      obtain ⟨h, d, a, b, f, rfl, rfl⟩ := (decBin_eq_ok (o := 0) hv ho).1 h
      rfl
    case h_2 ho =>
      obtain ⟨h, d, a, b, f, rfl, rfl⟩ := (decBin_eq_ok (o := 1) hv ho).1 h
      rfl
    case h_3 => cases h
  -- VSEL
  case h_26 =>
    split at h
    · next ho =>
      obtain ⟨hz, rfl⟩ := need_eq_ok.1 h
      simp only [Bool.and_eq_true] at hz
      obtain ⟨⟨⟨hh, hs⟩, hn⟩, hx⟩ := hz
      exact encode64_of_eq rfl (encBin_fields hv ho hh hs hn rfl (wide3_low3 hx).symm)
    · cases h
  -- VSPLAT and VINDEX
  case h_28 | h_29 =>
    obtain ⟨h, d, s, f, rfl, rfl⟩ := (decSplat_eq_ok hv).1 h
    rfl
  -- VCMP
  case h_30 =>
    obtain ⟨h, cc, d, a, b, f, rfl, rfl⟩ := (decVcmp_eq_ok hv).1 h
    rfl
  -- VRED
  case h_31 =>
    exact decVred_encodes hv h
  -- masks of two sources
  case h_32 | h_33 | h_34 | h_35 =>
    obtain ⟨h, d, a, b, rfl, rfl⟩ := (decMask_eq_ok hv).1 h
    rfl
  -- MNOT
  case h_36 =>
    obtain ⟨hz, rfl⟩ := need_eq_ok.1 h
    simp only [fnZero, Bool.and_eq_true, beq_iff_eq] at hz
    obtain ⟨⟨⟨⟨⟨⟨⟨hh, hd⟩, ha⟩, hb⟩, hx⟩, hf⟩, hs⟩, hn⟩ := hz
    exact encode64_of_eq rfl (fmtV_of_hdrOk hv hh (wide3_low3 hd).symm (wide3_low3 ha).symm hb hx hf hs hn)
  -- MPOP and MFIRST
  case h_37 | h_38 =>
    obtain ⟨h, d, a, rfl, rfl⟩ := (decMpop_eq_ok hv).1 h
    rfl
  -- MSET
  case h_39 =>
    split at h
    case h_1 ho =>
      obtain ⟨h, d, s, rfl, rfl⟩ := (decMset_eq_ok (o := 0) hv ho).1 h
      rfl
    case h_2 ho =>
      obtain ⟨h, d, s, rfl, rfl⟩ := (decMset_eq_ok (o := 1) hv ho).1 h
      rfl
    case h_3 => cases h
  -- VQNT and VDQNT
  case h_40 | h_41 =>
    obtain ⟨hz, rfl⟩ := need_eq_ok.1 h
    simp only [fnZero, Bool.and_eq_true, beq_iff_eq] at hz
    obtain ⟨⟨⟨hh, hb⟩, hs⟩, hn⟩ := hz
    exact encode64_of_eq rfl (fmtV_of_hdrOk hv hh rfl rfl hb rfl rfl hs hn)
  -- VUP and VDN
  case h_42 | h_43 =>
    obtain ⟨h, d, a, s, f, rfl, rfl⟩ := (decSlide_eq_ok hv).1 h
    rfl
  -- VGATHR
  case h_44 =>
    obtain ⟨hz, rfl⟩ := need_eq_ok.1 h
    simp only [fnZero, Bool.and_eq_true, beq_iff_eq] at hz
    obtain ⟨⟨⟨hh, hx⟩, hs⟩, hn⟩ := hz
    exact encode64_of_eq rfl (fmtV_of_hdrOk hv hh rfl rfl rfl hx rfl hs hn)
  -- VPACK and VUNPK
  case h_45 | h_46 =>
    obtain ⟨c, d, a, m, f, rfl, rfl⟩ := (decPack_eq_ok hv).1 h
    rfl
  -- VRESH
  case h_47 =>
    exact decVresh_encodes hv h
  -- VGTR
  case h_48 =>
    obtain ⟨hz, rfl⟩ := need_eq_ok.1 h
    simp only [fnZero, Bool.and_eq_true, beq_iff_eq] at hz
    obtain ⟨⟨⟨⟨hp, hb⟩, hx⟩, hs⟩, hn⟩ := hz
    exact encode64_of_eq rfl (fmtV_of_noPm hv hp rfl rfl hb hx rfl hs hn)
  -- VLD
  case h_49 =>
    exact decVld_encodes hv h
  -- VLDS
  case h_50 =>
    refine decLoad_encodes (k := .strided _) hv (fun hz => ?_) rfl h
    simp only [Bool.and_eq_true, beq_iff_eq] at hz
    exact ⟨hz.1, rfl, hz.2⟩
  -- VLDX
  case h_51 =>
    refine decLoad_encodes (k := .indexed _) hv (fun hz => ?_) rfl h
    simp only [Bool.and_eq_true, beq_iff_eq] at hz
    exact ⟨hz.1, rfl, hz.2⟩
  -- VLDFF
  case h_52 =>
    obtain ⟨hz, rfl⟩ := need_eq_ok.1 h
    simp only [memFnOk, Bool.and_eq_true, beq_iff_eq] at hz
    obtain ⟨⟨⟨⟨hh, hd⟩, ha⟩, hb⟩, hn⟩ := hz
    exact encode64_of_eq rfl (fmtV_of_hdrOk hv hh (wide3_low3 hd).symm ha hb rfl rfl rfl (memFn_fields hn))
  -- VST
  case h_53 =>
    exact decVst_encodes hv h
  -- VSTS, VSTX and VSTXO
  case h_54 | h_55 | h_56 =>
    obtain ⟨h, a, s, b, f, off, rfl, rfl⟩ := (decVsts_eq_ok hv).1 h
    rfl
  -- VAMO
  case h_57 =>
    exact decVamo_encodes hv h
  -- VLDP
  case h_58 =>
    obtain ⟨hz, rfl⟩ := need_eq_ok.1 h
    simp only [memFnOk, Bool.and_eq_true, beq_iff_eq] at hz
    obtain ⟨⟨⟨hh, ha⟩, hx⟩, hn⟩ := hz
    exact encode64_of_eq rfl (fmtV_of_hdrOk hv hh rfl ha rfl (wide3_low3 hx).symm rfl rfl (memFn_fields hn))
  -- VSTP and VSTR
  case h_59 | h_60 =>
    obtain ⟨h, a, x, s, b, f, off, rfl, rfl⟩ := (decVstp_eq_ok hv).1 h
    rfl
  -- VLDW
  case h_61 =>
    exact decVldw_encodes hv h
  -- VSTW
  case h_62 =>
    exact decVstw_encodes hv h
  -- PST
  case h_63 =>
    exact decPst_encodes hv h
  -- POP
  case h_64 =>
    exact decPop_encodes hv h
  -- PLD
  case h_65 =>
    exact decPld_encodes hv h
  -- VWAIT
  case h_66 =>
    obtain ⟨hz, rfl⟩ := need_eq_ok.1 h
    simp only [fnZero, Bool.and_eq_true, beq_iff_eq] at hz
    obtain ⟨⟨⟨⟨hh, hb⟩, hx⟩, hf⟩, hn⟩ := hz
    exact encode64_of_eq rfl (fmtV_of_hdrOk hv hh rfl rfl hb (wide3_low3 hx).symm hf rfl hn)
  -- CTRI
  case h_67 =>
    obtain ⟨hz, rfl⟩ := need_eq_ok.1 h
    simp only [Bool.and_eq_true, beq_iff_eq] at hz
    obtain ⟨⟨⟨hc, hd⟩, hs⟩, hn⟩ := hz
    exact encode64_of_eq rfl (fmtV_of_combOk hv hc (wide3_low3 hd).symm rfl rfl rfl rfl hs (ctriFn_fields hn))
  -- CZERO
  case h_68 =>
    obtain ⟨hz, rfl⟩ := need_eq_ok.1 h
    simp only [Bool.and_eq_true, beq_iff_eq] at hz
    obtain ⟨⟨hd, hz⟩, hc⟩ := hz
    exact encode64_of_eq rfl (fmtV_of_combOk hv hc (wide3_low3 hd).symm (vfield_zero hz (by decide)) (vfield_zero hz (by decide))
      (vfield_zero hz (by decide)) (vfield_zero hz (by decide)) (vfield_zero hz (by decide)) (vfield_zero hz (by decide)))
  -- CGET and CGETC
  case h_69 | h_70 =>
    obtain ⟨d, a, s, f, i0, nr, j0, nc, rfl, rfl⟩ := (decCget_eq_ok hv).1 h
    rfl
  -- CPUT
  case h_71 =>
    obtain ⟨hz, rfl⟩ := need_eq_ok.1 h
    simp only [Bool.and_eq_true, beq_iff_eq, Bool.not_eq_true'] at hz
    obtain ⟨⟨⟨⟨hc, hd⟩, hb⟩, hx⟩, hn⟩ := hz
    exact encode64_of_eq rfl (fmtV_of_combOk hv hc (wide3_low3 hd).symm rfl hb hx rfl rfl (winFn_fields hn))
  -- CSHP
  case h_72 =>
    obtain ⟨hz, rfl⟩ := need_eq_ok.1 h
    simp only [fnZero, Bool.and_eq_true, beq_iff_eq] at hz
    obtain ⟨⟨⟨⟨⟨⟨hc, hd⟩, ha⟩, hb⟩, hx⟩, hf⟩, hn⟩ := hz
    exact encode64_of_eq rfl (fmtV_of_combOk hv hc hd ha hb hx hf rfl hn)
  -- TSAVE
  case h_73 =>
    obtain ⟨hz, rfl⟩ := need_eq_ok.1 h
    simp only [memFnOk, Bool.and_eq_true, beq_iff_eq] at hz
    obtain ⟨⟨⟨⟨⟨⟨hc, hd⟩, ha⟩, hb⟩, hx⟩, hf⟩, hn⟩ := hz
    exact encode64_of_eq rfl (fmtV_of_combOk hv hc hd (wide3_low3 ha).symm hb hx hf rfl (memFn_fields hn))
  -- TLOAD
  case h_74 =>
    obtain ⟨hz, rfl⟩ := need_eq_ok.1 h
    simp only [memFnOk, Bool.and_eq_true, beq_iff_eq] at hz
    obtain ⟨⟨⟨⟨⟨⟨hc, hd⟩, ha⟩, hb⟩, hx⟩, hf⟩, hn⟩ := hz
    exact encode64_of_eq rfl (fmtV_of_combOk hv hc (wide3_low3 hd).symm ha hb hx hf rfl (memFn_fields hn))
  -- ROUTE
  case h_75 =>
    obtain ⟨hz, rfl⟩ := need_eq_ok.1 h
    simp only [routeOk, fnZero, Bool.and_eq_true, beq_iff_eq] at hz
    obtain ⟨⟨hh, hd⟩, hf, hn⟩ := hz
    exact encode64_of_eq rfl (fmtV_of_hdrOk hv hh (frame_low2 hd).symm rfl rfl rfl hf rfl hn)
  -- RRECV
  case h_76 =>
    obtain ⟨hz, rfl⟩ := need_eq_ok.1 h
    simp only [routeOk, fnZero, Bool.and_eq_true, beq_iff_eq] at hz
    obtain ⟨⟨hp, hb⟩, hf, hn⟩ := hz
    exact encode64_of_eq rfl (fmtV_of_noPm hv hp rfl rfl hb rfl hf rfl hn)
  -- RRET
  case h_77 =>
    obtain ⟨hz, rfl⟩ := need_eq_ok.1 h
    simp only [routeOk, fnZero, Bool.and_eq_true, beq_iff_eq] at hz
    obtain ⟨⟨⟨⟨hh, hd⟩, hb⟩, hs⟩, hf, hn⟩ := hz
    exact encode64_of_eq rfl (fmtV_of_hdrOk hv hh hd rfl hb rfl hf hs hn)
  -- FWAIT
  case h_78 =>
    obtain ⟨hz, rfl⟩ := need_eq_ok.1 h
    simp only [frameOk, Bool.and_eq_true, beq_iff_eq] at hz
    obtain ⟨⟨⟨⟨⟨hp, ha⟩, hb⟩, hx⟩, hs⟩, hf, hn⟩ := hz
    exact encode64_of_eq rfl (fmtV_of_noPm hv hp rfl ha hb hx hf hs (frameFn_fields hn))
  -- FREAD
  case h_79 =>
    obtain ⟨hz, rfl⟩ := need_eq_ok.1 h
    simp only [frameOk, Bool.and_eq_true, beq_iff_eq] at hz
    obtain ⟨⟨⟨⟨hp, ha⟩, hb⟩, hs⟩, hf, hn⟩ := hz
    exact encode64_of_eq rfl (fmtV_of_noPm hv hp rfl ha hb rfl hf hs (frameFn_fields hn))
  -- RTSET
  case h_80 =>
    obtain ⟨hz, rfl⟩ := need_eq_ok.1 h
    simp only [routeOk, fnZero, Bool.and_eq_true, beq_iff_eq] at hz
    obtain ⟨⟨⟨⟨hp, hd⟩, hb⟩, hx⟩, hf, hn⟩ := hz
    exact encode64_of_eq rfl (fmtV_of_noPm hv hp hd rfl hb hx hf rfl hn)
  -- ENQ
  case h_81 =>
    exact decEnq_encodes hv h
  -- CWPW
  case h_82 =>
    obtain ⟨hz, rfl⟩ := need_eq_ok.1 h
    simp only [frameOk, Bool.and_eq_true, beq_iff_eq] at hz
    obtain ⟨⟨⟨⟨⟨hp, hd⟩, ha⟩, hb⟩, hx⟩, hf, hn⟩ := hz
    exact encode64_of_eq rfl (fmtV_of_noPm hv hp hd ha hb hx hf rfl (frameFn_fields hn))

end
end Sys2Proof

/-! ### Encoded words decode to their instructions -/

namespace Sys2Proof

/-- An operand that a word names only where a bit of FN says so: its field is 0 where the bit is clear, and read where it is set. -/
theorem optional_field_zero (r : Option (BitVec 5)) : r.isSome = true ∨ r.getD 0#5 = 0#5 := by cases r <;> simp
theorem optional_field (r : Option (BitVec 5)) : (if r.isSome = true then some (r.getD 0#5) else none) = r := by cases r <;> rfl

theorem encRed_parts (o : BitVec 4) (h : VHdr) (d a : BitVec 5) (init : Option (BitVec 5)) (f : BitVec 5) :
    let w := encRed o h d a init f
    varOf w = o.toNat ∧ hdrOf w = h ∧ dOf w = d ∧ aOf w = a ∧ fOf w = f
      ∧ (if w.getLsbD 0 = true then some (sOf w) else none) = init
      ∧ (hdrOk w && fnHiOk w && bOf w == 0 && xOf w == 0 && (w.getLsbD 0 || sOf w == 0)) = true := by
  simp [encRed, varOf, fnHiOk, optional_field_zero, optional_field]
theorem encPlural_parts (v : BitVec 8) (o : BitVec 4) (c : Bool) (d a b x f : BitVec 5) (run : Option (BitVec 5)) (row ww : Bool) :
    let w := encPlural v o c d a b x f run row ww
    vfield w 0 4 = o ∧ cOf w = c ∧ dOf w = d ∧ aOf w = a ∧ bOf w = b ∧ xOf w = x ∧ fOf w = f ∧ runOf w = run
      ∧ w.getLsbD 5 = row ∧ w.getLsbD 6 = ww ∧ pluralOk w = true := by
  simp [encPlural, runOf, pluralOk, optional_field_zero, optional_field]

@[simp] theorem vopOf_encRed (o : BitVec 4) (h : VHdr) (d a : BitVec 5) (init : Option (BitVec 5)) (f : BitVec 5) :
    vopOf (encRed o h d a init f) = 0x2C := by simp [encRed]
@[simp] theorem vopOf_encPlural (v : BitVec 8) (o : BitVec 4) (c : Bool) (d a b x f : BitVec 5) (run : Option (BitVec 5))
    (row ww : Bool) : vopOf (encPlural v o c d a b x f run row ww) = v := by simp [encPlural]
@[simp] theorem varOf_fmtV (v : BitVec 8) (c : Bool) (pm : Option (BitVec 3)) (d a b x f s : BitVec 5) (o : BitVec 4) (sb : Bool) :
    varOf (fmtV v c pm d a b x f s (arithFn o sb)) = o.toNat := by simp [varOf]

theorem ctriFn_parts (sa sb : BitVec 5) : let n : BitVec 21 := 0#11 ++ sb ++ sa
    n.extractLsb' 0 5 = sa ∧ n.extractLsb' 5 5 = sb ∧ n.extractLsb' 10 11 = 0#11 := by
  intro n
  rw [show n = (0#11 ++ sb ++ sa : BitVec (11 + 5 + 5)).cast rfl from rfl]
  refine ⟨?_, ?_, ?_⟩ <;> simp only [BitVec.extractLsb'_cast, BitVec.extractLsb'_append_eq_of_le,
    BitVec.extractLsb'_append_eq_of_add_le, BitVec.extractLsb'_eq_self, Nat.reduceLeDiff, Nat.reduceSub]
/-- What stands below D, and below C, in a word. -/
theorem vfield_below (w : Word) :
    vfield w 0 46 = aOf w ++ bOf w ++ xOf w ++ fOf w ++ sOf w ++ vfnOf w
    ∧ vfield w 0 55 = BitVec.ofBool (peOf w) ++ pmOf w ++ dOf w ++ aOf w ++ bOf w ++ xOf w ++ fOf w ++ sOf w ++ vfnOf w := by
  simp only [peOf, pmOf, dOf, aOf, bOf, xOf, fOf, sOf, vfnOf, vfield, ofBool_getLsbD_eq_extractLsb',
    BitVec.extractLsb'_append_extractLsb'_eq_extractLsb', and_self]

theorem decode64_encode64 (i : Instr) (w : Word) (h : encode64 i = some w) : decode64 w = .ok i := by
  cases i
  case vclamp b _ =>
    cases b
    all_goals
      cases h
      unfold decode64
      rw [vopOf_fmtV, varOf_fmtV]
    case vec => exact (if_neg (by simp)).trans ((if_neg (by simp)).trans (need_eq_ok.2 ⟨by simp [fnHiOk], by simp⟩))
    case scal => exact (if_neg (by simp)).trans ((if_pos (by simp)).trans (need_eq_ok.2 ⟨by simp [fnHiOk], by simp⟩))
  case vldK k _ _ _ _ =>
    cases k
    all_goals
      cases h
      unfold decode64 encK
      rw [vopOf_fmtV]
    case unit =>
      change decVld _ = _
      simp [decVld, decLoad, voffOf, memFn_hi, memFn_bit, need]
    case strided | indexed =>
      change decLoad _ _ _ _ = _
      simp [decLoad, voffOf, memFn_hi, memFn_bit, need]
  all_goals cases h
  case vadd | vsub | vmul | vdiv | vmin | vmax | vand | vor | vxor | vshl =>
    unfold decode64
    rw [vopOf_encBin]
    exact (decBin0_eq_ok (vopOf_encBin _ _)).2 ⟨_, _, _, _, _, rfl, rfl⟩
  case vfma | vfms | vfnma =>
    unfold decode64
    rw [vopOf_encBin]
    exact (decFma_eq_ok (vopOf_encBin _ _)).2 ⟨_, _, _, _, _, _, rfl, rfl⟩
  case vshr | vshrA =>
    unfold decode64
    rw [vopOf_encBin, varOf_encBin]
    exact (decBin_eq_ok (vopOf_encBin _ _) (varOf_encBin _ _)).2 ⟨_, _, _, _, _, rfl, rfl⟩
  case vcmp =>
    unfold decode64
    rw [vopOf_encBin]
    exact (decVcmp_eq_ok (vopOf_encBin _ _)).2 ⟨_, _, _, _, _, _, rfl, rfl⟩
  case vsel =>
    unfold decode64
    rw [vopOf_encBin, varOf_encBin]
    exact need_eq_ok.2 ⟨by simp [encBin_parts], by simp [encBin_parts]⟩
  case vsqrt | vabs | vneg | vcvt | vrcp | vrsqrt | vexp2 | vlog2 | vmov =>
    unfold decode64 encUn
    rw [vopOf_fmtV]
    exact (decUn_eq_ok (vopOf_fmtV ..)).2 ⟨_, _, _, _, rfl, rfl⟩
  case vstop => rfl
  all_goals unfold decode64
  case vredSumo | vredSump | vredMax | vredMin | vredAnd | vredOr | vredXor =>
    rw [vopOf_encRed]
    change decVred _ = _
    simp only [decVred, encRed_parts]
    rfl
  case pst =>
    rw [vopOf_encPlural]
    refine need_eq_ok.2 ⟨?_, ?_⟩ <;> simp only [encPlural_parts]
    rfl
  case popAdd | popSub | popMin | popMax | popAnd | popOr | popXor | popMov =>
    rw [vopOf_encPlural]
    change decPop _ = _
    simp only [decPop, encPlural_parts]
    rfl
  case pldSum | pldMax | pldMin | pldAnd | pldOr | pldXor | pldCnt =>
    rw [vopOf_encPlural]
    change decPld _ = _
    simp only [decPld, encPlural_parts]
    rfl
  all_goals rw [vopOf_fmtV]
  case vsplat | vindex => exact (decSplat_eq_ok (vopOf_fmtV ..)).2 ⟨_, _, _, _, rfl, rfl⟩
  case mand | mor | mxor | mandn => exact (decMask_eq_ok (vopOf_fmtV ..)).2 ⟨_, _, _, _, rfl, rfl⟩
  case mpop | mfirst => exact (decMpop_eq_ok (vopOf_fmtV ..)).2 ⟨_, _, _, rfl, rfl⟩
  case vup | vdn => exact (decSlide_eq_ok (vopOf_fmtV ..)).2 ⟨_, _, _, _, _, rfl, rfl⟩
  case vpack | vunpk => exact (decPack_eq_ok (vopOf_fmtV ..)).2 ⟨_, _, _, _, _, rfl, rfl⟩
  case vsts | vstx | vstxo => exact (decVsts_eq_ok (vopOf_fmtV ..)).2 ⟨_, _, _, _, _, _, rfl, rfl⟩
  case vstp | vstr => exact (decVstp_eq_ok (vopOf_fmtV ..)).2 ⟨_, _, _, _, _, _, _, rfl, rfl⟩
  case cget | cgetc => exact (decCget_eq_ok (vopOf_fmtV ..)).2 ⟨_, _, _, _, _, _, _, _, rfl, rfl⟩
  case msetLt | msetGe =>
    rw [varOf_fmtV]
    exact (decMset_eq_ok (vopOf_fmtV ..) (varOf_fmtV ..)).2 ⟨_, _, _, rfl, rfl⟩
  case vresh | vreshT | vreshInv =>
    change decVresh _ = _
    simp [decVresh, varOf, fnHiOk, need]
  case vld | vldC =>
    change decVld _ = _
    simp [decVld, decLoad, voffOf, memFn_hi, memFn_bit, need]
  case vlds | vldx =>
    change decLoad _ _ _ _ = _
    simp [decLoad, voffOf, memFn_hi, memFn_bit, need]
  case vst | vstC =>
    change decVst _ = _
    simp [decVst, voffOf, memFn_hi, memFn_bit, need]
  case vamoAdd | vamoSwap | vamoCas | vamoAnd | vamoOr | vamoMax | vamoMin =>
    change decVamo _ = _
    simp [decVamo, voffOf, memFn_hi, need]
  case vldw | vldwM =>
    change decVldw _ = _
    simp [decVldw, voffOf, memFn_hi, memFn_bit, need]
  case vstw | vstwM =>
    change decVstw _ = _
    simp [decVstw, voffOf, memFn_hi, memFn_bit, need]
  case enqStk | enqCpy =>
    change decEnq _ = _
    simp [decEnq, need]
  case vnop => exact need_eq_ok.2 ⟨by simp [(vfield_below _).2], by simp⟩
  case czero => exact need_eq_ok.2 ⟨by simp [(vfield_below _).1, combOk], by simp⟩
  case ctri => exact need_eq_ok.2 ⟨by simp [ctriFn_parts, combOk], by simp [ctriFn_parts]⟩
  all_goals
    refine need_eq_ok.2 ⟨?_, ?_⟩
    · simp [fnZero, memFnOk, combOk, routeOk, frameOk, winFn_top, frameFn_parts]
    · simp [voffOf, winFn_parts, frameFn_parts]

/-- Settles O8: each sub-format's word gives its fields back, and each accepted word is made of the fields that its decoder
has read. -/
theorem vectorRoundTrip : Obligations.VectorRoundTrip :=
  ⟨decode64_encode64, fun _ _ => decode64_encodes⟩

end Sys2Proof

/-! SUPPORT. Fetching a scalar word (02_stream R31): what a kept translation and a kept word leave as they were. -/

namespace Sys2Proof.Machine

/-! ### A change of the core whose turn it is -/

@[simp] theorem State.core_modCore (s : State) (f : Core → Core) : (s.modCore f).core = f s.core :=
  State.coreAt_modCoreAt_same s s.cc f
/-- A change of a core that keeps its harts changes no hart. -/
theorem State.hart_modCoreAt (s : State) (c : Nat) (f : Core → Core) (h : (f (s.coreAt c)).harts = (s.coreAt c).harts) :
    (s.modCoreAt c f).hart = s.hart := by
  unfold State.hart State.hartAt Core.hartAt
  by_cases hc : s.cc = c
  · subst hc
    simp [h]
  · simp [State.coreAt_modCoreAt_ne s c s.cc f hc]
theorem State.byte_modCore (s : State) (f : Core → Core) (a : Nat) : (s.modCore f).byte a = s.byte a := rfl

/-! ### Translations kept (08_memory R171) -/

/-- The translation that an MMU keeps of a page. -/
def tlbEntry (k : Hart) (va : Nat) (l : Leaf) : TlbEnt :=
  { root := k.ptroot, page := va / 65536, pte := l.pte, level := l.level, pteAt := l.at_, ten := k.place.ten }

/-- A translation kept is one more entry of one core, or nothing where one of the page is there. -/
theorem State.touch_cases (s : State) (c : Nat) (k : Hart) (va : Word) :
    s.touch c k va = s ∨ ∃ l, s.walk k.place.ten.toNat k.ptroot va.toNat = .ok l
      ∧ ((s.coreAt c).tlb.any fun x => x.ten == k.place.ten && x.root == k.ptroot && x.page == va.toNat / 65536) = false
      ∧ s.touch c k va = s.modCoreAt c fun x => { x with tlb := tlbEntry k va.toNat l :: x.tlb } := by
  unfold State.touch
  split
  · exact .inl rfl
  · split
    · exact .inl rfl
    · next l hl =>
      dsimp only
      split
      · exact .inl rfl
      · next hn => exact .inr ⟨l, hl, Bool.eq_false_of_not_eq_true hn, rfl⟩

@[simp] theorem State.hart_touch (s : State) (c : Nat) (k : Hart) (va : Word) : (s.touch c k va).hart = s.hart := by
  rcases s.touch_cases c k va with e | ⟨l, -, -, e⟩ <;> rw [e]
  exact s.hart_modCoreAt c _ rfl
@[simp] theorem State.byte_touch (s : State) (c : Nat) (k : Hart) (va : Word) (a : Nat) : (s.touch c k va).byte a = s.byte a := by
  rcases s.touch_cases c k va with e | ⟨l, -, -, e⟩ <;> rw [e]
  rfl

end Sys2Proof.Machine

/-! The family 02_stream: O3. A fetch reads the four bytes at the translated address. -/

namespace Sys2Proof.Machine

theorem div_of_spaceOf_translated {va : Word} (h : spaceOf va = some .translated) : va.toNat / 2 ^ 48 = 0 := by
  unfold spaceOf at h
  dsimp only at h
  split at h
  · next h0 =>
    split at h
    · omega
    · cases h
  · split at h <;> cases h
  · split at h <;> cases h
  · split at h <;> cases h
  · cases h

/-- A walk stage that succeeds has found its leaf. -/
theorem State.leafFor_of_walkStage {s : State} {c : Nat} {k : Hart} {a : AccessKind} {va : Nat} {l : Leaf} {t : Tr}
    (h : s.walkStage c k a va = .ok (l, t)) : s.leafFor c k.place.ten.toNat k.ptroot va = .ok l := by
  unfold State.walkStage at h
  dsimp only at h
  split at h
  case h_4 l' hl =>
    split at h
    · cases h
    · cases h
      exact hl
  all_goals cases h

/-- Where no translation of the page is kept, the leaf is the one that the walk finds. -/
theorem State.leafFor_of_not_kept {s : State} {c : Nat} {k : Hart} {va : Nat}
    (h : ((s.coreAt c).tlb.any fun x => x.ten == k.place.ten && x.root == k.ptroot && x.page == va / 65536) = false) :
    s.leafFor c k.place.ten.toNat k.ptroot va = s.walk k.place.ten.toNat k.ptroot va := by
  have hn : ((s.coreAt c).tlb.find? fun e => e.ten.toNat == k.place.ten.toNat && e.root == k.ptroot && e.page == va / 65536
      && s.windowOpen k.place.ten.toNat e.pteAt) = none := by
    rw [List.find?_eq_none]
    intro e he hk
    have := List.any_eq_false.mp h e he
    simp only [Bool.and_eq_true, beq_iff_eq, not_and] at this hk
    obtain ⟨⟨⟨ht, hr⟩, hp⟩, -⟩ := hk
    exact this ⟨BitVec.eq_of_toNat_eq ht, hr⟩ hp
  unfold State.leafFor
  rw [hn]

/-- After an access of the hart whose turn it is, its MMU keeps a translation of the page: one that it had, or the one that
the walk gives. -/
theorem State.touch_keeps {s : State} {a : AccessKind} {va : Word} {l : Leaf} {t : Tr} (hs : spaceOf va = some .translated)
    (hw : s.walkStage s.cc s.hart a va.toNat = .ok (l, t)) :
    ∃ e ∈ (s.touch s.cc s.hart va).core.tlb, e.ten = s.hart.place.ten ∧ e.root = s.hart.ptroot ∧ e.page = va.toNat / 65536
      ∧ (e ∈ s.core.tlb ∨ (e.pte = l.pte ∧ e.level = l.level ∧ e.pteAt = l.at_)) := by
  have hl := State.leafFor_of_walkStage hw
  unfold State.touch
  rw [if_neg (not_not.mpr (div_of_spaceOf_translated hs))]
  by_cases hk : ((s.coreAt s.cc).tlb.any fun x =>
      x.ten == s.hart.place.ten && x.root == s.hart.ptroot && x.page == va.toNat / 65536) = true
  · obtain ⟨e, he, hm⟩ := List.any_eq_true.mp hk
    simp only [Bool.and_eq_true, beq_iff_eq] at hm
    obtain ⟨⟨ht, hr⟩, hp⟩ := hm
    refine ⟨e, ?_, ht, hr, hp, .inl he⟩
    split
    · exact he
    · simp only [hk, if_true]
      exact he
  · have hk := Bool.eq_false_of_not_eq_true hk
    rw [State.leafFor_of_not_kept hk] at hl
    simp only [hl, hk, Bool.false_eq_true, if_false]
    exact ⟨tlbEntry s.hart va.toNat l, by simp [State.core, tlbEntry], rfl, rfl, rfl, .inr ⟨rfl, rfl, rfl⟩⟩

end Sys2Proof.Machine

namespace Sys2Proof

open Machine

/-- Settles O3, by the branches of the fetch: a word that is kept is served as it stands, and any other is read and kept. -/
theorem fetchReadsMemory : Obligations.FetchReadsMemory := by
  unfold Obligations.FetchReadsMemory
  intro s va l t hs hw hp
  constructor
  · intro p hc
    simp [State.fetch32, hs, hw, hp, hc]
  · intro hc hm he
    refine ⟨(s.touch s.cc s.hart va).modCore fun y => y.cacheWord s.tick t.pa (BitVec.ofNat 32 (s.readMem t.pa 4)),
      ?_, ?_, ?_, ?_, ?_⟩
    · simp [State.fetch32, hs, hw, hp, hc, hm, he]
    · intro a
      rw [State.byte_modCore, State.byte_touch]
    · unfold State.modCore
      rw [State.hart_modCoreAt _ _ _ rfl, State.hart_touch]
    · rw [State.core_modCore]
      exact mget_mset_same ..
    · rw [State.core_modCore]
      exact State.touch_keeps hs hw

end Sys2Proof

/-! The family 02_stream: O2. A step runs the turn that the agenda names, or one that the machine may take by itself. -/

namespace Sys2Proof.Machine

/-! ### Turns -/

theorem not_fromOutside_or_isEvent (i : Instr) : (!fromOutside i || isEvent i) = true := by
  cases i <;> rfl
/-- What comes from outside is an event of the table. -/
theorem isEvent_of_fromOutside {i : Instr} (h : fromOutside i = true) : isEvent i = true := by
  simpa [h] using not_fromOutside_or_isEvent i

/-- A turn that the machine takes by itself is one of those that it may take, or there is none. -/
theorem ownTurn_cases (s : State) : (∃ t ∈ s.turns, ownTurn s = takeTurn t s) ∨ (s.turns = [] ∧ ownTurn s = .next s) := by
  unfold ownTurn
  split
  · next t ht => exact .inl ⟨t, List.mem_of_getElem? ht, rfl⟩
  · next hn =>
    rw [List.getElem?_eq_none_iff] at hn
    refine .inr ⟨?_, rfl⟩
    by_contra hne
    exact absurd hn (not_le.mpr (Nat.mod_lt _ (List.length_pos_iff.mpr hne)))

/-- A turn leaves what it found, or what its work leaves where no store of it waits for a drain. -/
theorem takeTurn_eq (t : Turn) (s : State) :
    takeTurn t s = if waitsForDrain (turnWork t (t.start s)) then .next (t.start s) else turnWork t (t.start s) := rfl

/-- Whose turn comes next where the agenda names it: that turn, or one of the machine's own where it is held up. -/
theorem step_of_agenda {s : State} {t : Turn} {r : List Turn} (h : s.agenda = t :: r) :
    step s = if { s with tick := s.tick + 1, agenda := r }.holdsUp t then ownTurn { s with tick := s.tick + 1 }
      else takeTurn t { s with tick := s.tick + 1, agenda := r } := by
  simp [step, h]
theorem step_of_no_agenda {s : State} (h : s.agenda = []) : step s = ownTurn { s with tick := s.tick + 1 } := by
  simp [step, h]

theorem turnWork_scalar {t : Turn} (h : t.ev = none) (s : State) : turnWork t s = scalarTurn s := by
  simp [turnWork, h]
theorem turnWork_event {t : Turn} {i : Instr} (h : t.ev = some i) (hi : isEvent i = true) (s : State) :
    turnWork t s = s.granting false (s.eventUses i) (exec i s) := by
  simp [turnWork, h, hi]
theorem turnWork_other {t : Turn} {i : Instr} (h : t.ev = some i) (hi : isEvent i = false) (s : State) :
    turnWork t s = .next s := by
  simp [turnWork, h, hi]

theorem scalarTurn_held {s : State} (h : s.hart.mayIssue = false) : scalarTurn s = .next s := by
  simp [scalarTurn, h]
theorem scalarTurn_fetch_fails {s t : State} {f : Failure} (h : s.hart.mayIssue = true)
    (hf : s.fetch32 s.hart.pc = .error (f, t)) : scalarTurn s = trap f.1 f.2 t := by
  simp [scalarTurn, h, hf]
/-- A word fetched runs as what it decodes to, where the gate lets it. -/
theorem scalarTurn_fetched {s t : State} {w : BitVec 32} (h : s.hart.mayIssue = true)
    (hf : s.fetch32 s.hart.pc = .ok (w, t)) :
    scalarTurn s = match decode32 w with
      | .error _ => t.granting true [.issue] (exec (.illegalInstruction w) t)
      | .ok i => (t.gate i).getD (t.granting (goesOn i) (t.issueUses i) (exec i t)) := by
  simp only [scalarTurn, h, hf]
  split
  · contradiction
  · cases decode32 w with
    | error e => rfl
    | ok i => cases hg : t.gate i <;> simp [hg]

/-- A turn of a scalar stream is never held up. -/
theorem step_of_scalar_turn {s : State} {c h : Nat} {r : List Turn}
    (ha : s.agenda = { core := c, hart := h, input := none, ev := none } :: r) :
    let u := { s with tick := s.tick + 1, agenda := r, cc := c, ch := h }
    step s = if waitsForDrain (scalarTurn u) then .next u else scalarTurn u := by
  rw [step_of_agenda ha]
  rfl
/-- A turn of an event is held up where it comes from outside and a store of it has to wait. -/
theorem step_of_event_turn {s : State} {c h : Nat} {x : Option Input} {i : Instr} {r : List Turn}
    (ha : s.agenda = { core := c, hart := h, input := x, ev := some i } :: r) (hi : isEvent i = true) :
    let u := State.input { s with tick := s.tick + 1, agenda := r, cc := c, ch := h } x
    let o := u.granting false (u.eventUses i) (exec i u)
    step s = if fromOutside i && waitsForDrain o then ownTurn { s with tick := s.tick + 1 }
      else if waitsForDrain o then .next u else o := by
  rw [step_of_agenda ha, takeTurn_eq]
  unfold State.holdsUp
  rw [turnWork_event rfl hi]
  rfl
theorem step_of_other_turn {s : State} {c h : Nat} {x : Option Input} {i : Instr} {r : List Turn}
    (ha : s.agenda = { core := c, hart := h, input := x, ev := some i } :: r) (hi : isEvent i = false) :
    step s = .next (State.input { s with tick := s.tick + 1, agenda := r, cc := c, ch := h } x) := by
  have ho : fromOutside i = false := by
    by_contra hf
    rw [isEvent_of_fromOutside (Bool.eq_true_of_not_eq_false hf)] at hi
    cases hi
  rw [step_of_agenda ha, takeTurn_eq]
  unfold State.holdsUp
  rw [turnWork_other rfl hi]
  simp only [Option.any_some, ho, Bool.false_and, Bool.false_eq_true, if_false, ite_self]
  rfl

/-! ### What has gone on -/

theorem waitsForDrain_iff (o : Out) :
    waitsForDrain o = true ↔ ∃ w, o = .next w ∧ ∃ p ∈ w.tens, p.2.prop.waits = true := by
  cases o <;> simp [waitsForDrain, State.storeWaits]
theorem Hart.moved_eq_false_iff (k l : Hart) : k.moved l = false ↔ k.pc = l.pc ∧ k.wait = l.wait
    ∧ k.sbuf.length = l.sbuf.length ∧ k.trap.taken = l.trap.taken := by
  simp [Hart.moved, and_assoc]

end Sys2Proof.Machine

namespace Sys2Proof

open Machine

/-- Settles O2, by the head of the agenda: a scalar stream's turn, an event's, or none. -/
theorem stepRunsTheTurn : Obligations.StepRunsTheTurn := by
  unfold Obligations.StepRunsTheTurn
  intro s u c h r
  dsimp only
  refine ⟨?_, ?_, waitsForDrain_iff, ?_, fun _ _ _ => ⟨rfl, rfl, rfl, rfl, rfl, rfl⟩, fun _ _ => rfl, fun _ _ _ => rfl,
    fun u v rs => ⟨rfl, v.hart_grant rs, Hart.moved_eq_false_iff u.hart v.hart⟩, ?_⟩
  · rintro ha rfl
    rw [step_of_scalar_turn ha]
    refine ⟨fun hm => ?_, fun hm f t hf => ?_, fun hm w t hf => ?_⟩
    · simp [scalarTurn_held hm]
    · rw [scalarTurn_fetch_fails hm hf]
    · rw [scalarTurn_fetched hm hf]
      refine ⟨fun e hd => ?_, fun i hd => ⟨fun o hg => ?_, fun hg => ?_⟩⟩
      · simp only [hd]
      · simp only [hd, hg, Option.getD_some]
      · simp only [hd, hg, Option.getD_none]
  · rintro x i ha u rfl
    refine ⟨fun hi => step_of_other_turn ha hi, fun hi hw => ?_, fun hi ho hw => ?_⟩
    · rw [step_of_event_turn ha hi]
      rcases hw with hw | hw <;> simp [hw]
    · rw [step_of_event_turn ha hi]
      simp only [ho, hw, Bool.and_self, if_true]
      exact ownTurn_cases _
  · intro u v goes rs
    simp [State.granting]
  · intro ha
    rw [step_of_no_agenda ha]
    exact ownTurn_cases _

end Sys2Proof

/-! The family 02_stream: O23. A debug step of a VBLK that finds BPC past its block halts the hart, which the statement leaves out. -/

namespace Sys2Proof

open Machine

/-- A hart under a debug step with BPC 1 whose next word is a VBLK of the block where it stands: one word, its VSTOP. -/
def steppedPastBlock : State :=
  (State.reset.withFetchWord 32 0).modHart fun k => { k with dbgStep := true, vec := { k.vec with vs := 1, bpc := 1 } }

theorem steppedPastBlock_base : (steppedPastBlock.hart.pc &&& ~~~7) + BitVec.ofInt 64 (8 * (0 : BitVec 21).toInt) = 0x1000 := by
  decide +kernel

/-- The scan finds the VSTOP alone. -/
theorem steppedPastBlock_scan : ∃ t, steppedPastBlock.scan 0x1000 256 0x1000 [] = .ok ([0], t) := by
  have h : ((steppedPastBlock.scan 0x1000 256 0x1000 []).toOption.map Prod.fst) = some [0] := by decide +kernel
  generalize steppedPastBlock.scan 0x1000 256 0x1000 [] = o at h ⊢
  match o, h with
  | .ok (ws, t), h => exact ⟨t, by rw [show ws = [0] from Option.some.inj h]⟩

theorem wordSources_vstop : wordSources 0 = [] := by decide +kernel

/-- The VBLK completes, and the debug step halts the hart. -/
theorem steppedPastBlock_halts : (match exec (.vblk 0) steppedPastBlock with
    | .next u => u.hart.halted
    | _ => false) = true := by decide +kernel

theorem steppedPastBlock_runs : steppedPastBlock.hart.halted = false := by decide +kernel

/-- Refutes O23: of an empty block the statement says, of every hart, that the instruction ends as `Hart.retire` does, but a
hart under a debug step halts as it completes (R333). -/
theorem not_blocksAreCapturedAndPlaced : ¬ Obligations.BlocksAreCapturedAndPlaced := by
  unfold Obligations.BlocksAreCapturedAndPlaced
  rintro ⟨h, -⟩
  obtain ⟨⟨-, h⟩, -⟩ := h steppedPastBlock 0 0 0
  obtain ⟨-, -, -, -, h⟩ := h (.inl (by decide +kernel))
  rw [steppedPastBlock_base] at h
  obtain ⟨t, hs⟩ := steppedPastBlock_scan
  have hn : ∀ w ∈ [(0 : Word)], ∀ r ∈ wordSources w, steppedPastBlock.hart.pending r = false := by
    simp only [List.mem_singleton, forall_eq, wordSources_vstop, List.not_mem_nil, false_implies, implies_true]
  obtain ⟨-, u, hu, -, hk⟩ := (h (by decide) (by decide +kernel) [0] t hs hn).2
    (List.drop_eq_nil_of_le (by decide +kernel))
  have hh := steppedPastBlock_halts
  rw [hu] at hh
  have hk := congrArg Hart.halted hk
  rw [show u.hart.halted = true from hh] at hk
  exact absurd (hk.trans steppedPastBlock_runs) (by decide)

end Sys2Proof

/-! The family 02_stream: O51. A convoy in which a word reads what a later word of the ring writes. -/

namespace Sys2Proof

open Machine

/-- An instruction of the vector stream as it stands in a queue. -/
def queuedInstr (i : Instr) (addr : Word) : Entry :=
  { word := (encode64 i).getD 0, addr := addr, sval := 0, fval := 0, cfg := Cfg.init 32, seq := 0, pre := false }
/-- A convoy of a VADD that reads v1 and v2 and, after it, a VGATHR that writes v1. -/
def readBeforeGather : List CWord :=
  [queuedInstr (.vadd { c := true, pm := none } 4 1 (.vec 2) 0) 0x1000,
    queuedInstr (.vgathr { c := false, pm := none } 1 5 6 0) 0x1008].map (Entry.cword State.reset)

/-- The dispatch checks let no word of a convoy read what a VGATHR of it writes, whichever comes first (R156). -/
theorem find03_readBeforeGather : (find03 State.reset.hart [] readBeforeGather).isSome = true := by decide +kernel

theorem readBeforeGather_words : ∀ w ∈ readBeforeGather, w.2.bad02 = false := by decide +kernel

/-- Refutes O51: the statement calls a pair of words legal in which the earlier word reads a register that the later one, on
the ring, writes, but the dispatch checks refuse it with cause 0x03 (R156). -/
theorem not_queuesRunTheirHeads : ¬ Obligations.QueuesRunTheirHeads := by
  unfold Obligations.QueuesRunTheirHeads
  intro h
  obtain ⟨-, -, -, -, -, -, -, -, hlegal, -⟩ :=
    h State.reset (queuedInstr .vstop 0) [] false 0 ⟨by decide, by decide⟩
  -- every condition of the statement's legality holds: of the ring it asks only what the later word reads
  have hf := (hlegal readBeforeGather readBeforeGather_words).1 (by decide +kernel)
  have hs := find03_readBeforeGather
  rw [hf] at hs
  cases hs

end Sys2Proof

/-! The family 03_formats: O40. The scale exponent of a real whose sign is turned. -/

namespace Sys2Proof

open Machine

/-- A negative real lies below every M, so that the exponent found for -480 into E4M3 is one less than that of its magnitude. -/
theorem quantExp_e4m3_480 : quantExp (.num true 480 0 false) (quantMax 5) = 0
    ∧ quantExp (.num false 480 0 false) (quantMax 5) = 1 := by
  decide +kernel

/-- R81's exponent of the magnitude 480 into E4M3: 480·2^-1 is at most 448, and 480 is not. -/
theorem smallestExp_480_eq_one {i : ℤ} (hi : (480 : ℚ) * 2 ^ (-i) ≤ 448) (hj : ∀ j < i, (448 : ℚ) < 480 * 2 ^ (-j)) :
    i = 1 := by
  have hpos : ¬ i ≤ 0 := fun h => by
    have : (2 : ℚ) ^ (0 : ℤ) ≤ 2 ^ (-i) := zpow_le_zpow_right₀ (by norm_num) (by omega)
    rw [zpow_zero] at this
    linarith
  have hle : ¬ 1 < i := fun h => absurd (hj 1 h) (by norm_num)
  omega

/-- Refutes O40: the statement gives R81's exponent of a real's magnitude to that real with either sign, but the exponent is
found for the real as it stands: for -480 into E4M3 it is 0, where 480·2^0 is above M = 448 and R81 gives 1. No block reaches
this case, whose greatest magnitude has the sign +. -/
theorem not_quantizationResults : ¬ Obligations.QuantizationResults := by
  unfold Obligations.QuantizationResults
  rintro ⟨hexp, -⟩
  obtain ⟨-, -, -, hexp⟩ := hexp (5, 448) (by simp [quantTops])
  obtain ⟨i, hi, hj, hq⟩ := hexp true 480 0 (by decide)
  norm_num at hi hj
  obtain rfl := smallestExp_480_eq_one (by simpa using hi) (by simpa using hj)
  rw [quantExp_e4m3_480.1] at hq
  norm_num at hq

end Sys2Proof

/-! SUPPORT. Slots of a 64-bit chunk (03_formats R67): what an element of a chunk reads as after one of them is written. -/

namespace Sys2Proof.Machine

/-! ### A slot of a word -/

/-- The slot of width `w` at bit `sh` of a number, with another value in it. -/
def putSlot (x w sh p : Nat) : Nat := x - (x >>> sh % 2 ^ w) <<< sh + (p % 2 ^ w) <<< sh

/-- A number is what lies above a slot, in it and below it. -/
theorem slot_split (x w sh : Nat) : x = x / 2 ^ (sh + w) * 2 ^ (sh + w) + (x / 2 ^ sh % 2 ^ w) * 2 ^ sh + x % 2 ^ sh := by
  have h := Nat.div_add_mod (x / 2 ^ sh) (2 ^ w)
  rw [Nat.div_div_eq_div_mul, ← pow_add] at h
  conv_lhs => rw [← Nat.div_add_mod x (2 ^ sh), ← h]
  ring

theorem putSlot_eq (x w sh p : Nat) :
    putSlot x w sh p = (x / 2 ^ (sh + w) * 2 ^ w + p % 2 ^ w) * 2 ^ sh + x % 2 ^ sh := by
  have h := slot_split x w sh
  unfold putSlot
  rw [Nat.shiftRight_eq_div_pow, Nat.shiftLeft_eq, Nat.shiftLeft_eq]
  have : x - x / 2 ^ sh % 2 ^ w * 2 ^ sh = x / 2 ^ (sh + w) * 2 ^ (sh + w) + x % 2 ^ sh := by omega
  rw [this, pow_add]
  ring

theorem putSlot_div (x w sh p : Nat) : putSlot x w sh p / 2 ^ sh = x / 2 ^ (sh + w) * 2 ^ w + p % 2 ^ w := by
  rw [putSlot_eq, Nat.mul_comm, Nat.mul_add_div (by positivity), Nat.div_eq_of_lt (Nat.mod_lt _ (by positivity)), Nat.add_zero]
/-- What lies below the slot stays. -/
theorem putSlot_below (x w sh p : Nat) : putSlot x w sh p % 2 ^ sh = x % 2 ^ sh := by
  rw [putSlot_eq, Nat.mul_comm, Nat.mul_add_mod, Nat.mod_mod]
/-- What lies above the slot stays. -/
theorem putSlot_above (x w sh p : Nat) : putSlot x w sh p / 2 ^ (sh + w) = x / 2 ^ (sh + w) := by
  rw [pow_add, ← Nat.div_div_eq_div_mul, putSlot_div, Nat.mul_comm, Nat.mul_add_div (by positivity),
    Nat.div_eq_of_lt (Nat.mod_lt _ (by positivity)), Nat.add_zero, pow_add]
/-- The slot reads as the value put. -/
theorem putSlot_same (x w sh p : Nat) : putSlot x w sh p / 2 ^ sh % 2 ^ w = p % 2 ^ w := by
  rw [putSlot_div, Nat.mul_comm, Nat.mul_add_mod, Nat.mod_mod]
/-- Bits below the slot read as before. -/
theorem putSlot_lower (x w sh p i : Nat) (h : i + w ≤ sh) : putSlot x w sh p / 2 ^ i % 2 ^ w = x / 2 ^ i % 2 ^ w := by
  have cut (y : Nat) : y / 2 ^ i % 2 ^ w = y % 2 ^ sh % 2 ^ (i + w) / 2 ^ i := by
    rw [← Nat.mod_mul_right_div_self, ← pow_add, Nat.mod_mod_of_dvd _ (Nat.pow_dvd_pow 2 h)]
  rw [cut, cut, putSlot_below]
/-- Bits above the slot read as before. -/
theorem putSlot_upper (x w sh p i : Nat) (h : sh + w ≤ i) : putSlot x w sh p / 2 ^ i = x / 2 ^ i := by
  have cut (y : Nat) : y / 2 ^ i = y / 2 ^ (sh + w) / 2 ^ (i - (sh + w)) := by
    rw [Nat.div_div_eq_div_mul, ← pow_add, Nat.add_sub_cancel' h]
  rw [cut, cut, putSlot_above]
/-- A slot inside a word keeps it a word. -/
theorem putSlot_lt (x w sh p : Nat) {b : Nat} (hx : x < 2 ^ b) (h : sh + w ≤ b) : putSlot x w sh p < 2 ^ b := by
  have cut (y : Nat) : y < 2 ^ b ↔ y / 2 ^ (sh + w) < 2 ^ (b - (sh + w)) := by
    rw [Nat.div_lt_iff_lt_mul (by positivity), ← pow_add, Nat.sub_add_cancel h]
  rwa [cut, putSlot_above, ← cut]

/-! ### Containers (03_formats R65, R67) -/

theorem contWidth_mem (f : Nat) : contWidth f ∈ [32, 16, 8, 6, 4] := by
  unfold contWidth
  split <;> simp
theorem perChunk_pos {w : Nat} (hw : w ∈ [32, 16, 8, 6, 4]) : 0 < perChunk w := by
  revert w; decide
/-- The elements of a chunk fit it. -/
theorem mul_perChunk_le {w : Nat} (hw : w ∈ [32, 16, 8, 6, 4]) : w * perChunk w ≤ if w = 6 then 60 else 64 := by
  revert w; decide
/-- An element's slot ends within the bits of its chunk that are in use. -/
theorem slot_le {w : Nat} (hw : w ∈ [32, 16, 8, 6, 4]) (e : Nat) : w * (e % perChunk w) + w ≤ if w = 6 then 60 else 64 :=
  calc w * (e % perChunk w) + w = w * (e % perChunk w + 1) := by ring
    _ ≤ w * perChunk w := Nat.mul_le_mul_left _ (Nat.mod_lt _ (perChunk_pos hw))
    _ ≤ _ := mul_perChunk_le hw

/-- What of a chunk's bits is kept when an element of width `w` is written: not the spare bits of a 6-bit container. -/
def usedBits (w x : Nat) : Nat := if w = 6 then x % 2 ^ 60 else x
/-- The spare bits of a chunk are read by no element. -/
theorem usedBits_slot {w : Nat} (hw : w ∈ [32, 16, 8, 6, 4]) (x e : Nat) :
    usedBits w x / 2 ^ (w * (e % perChunk w)) % 2 ^ w = x / 2 ^ (w * (e % perChunk w)) % 2 ^ w := by
  unfold usedBits
  have h := slot_le hw e
  split at h
  · next h6 =>
    rw [if_pos h6, ← Nat.mod_mul_right_div_self, ← Nat.mod_mul_right_div_self, ← pow_add,
      Nat.mod_mod_of_dvd _ (Nat.pow_dvd_pow 2 h)]
  · next h6 => rw [if_neg h6]

/-! ### Elements of a hart -/

theorem Hart.setElem_eq (k : Hart) (c : Cfg) (v w e p : Nat) :
    k.setElem c v w e p = k.putChunk c v (e / perChunk w)
      (BitVec.ofNat 64 (putSlot (usedBits w (k.chunk c v (e / perChunk w)).toNat) w (w * (e % perChunk w)) p)) := rfl
theorem Hart.elem_eq (k : Hart) (c : Cfg) (v w e : Nat) :
    k.elem c v w e = (k.chunk c v (e / perChunk w)).toNat / 2 ^ (w * (e % perChunk w)) % 2 ^ w := by
  rw [Hart.elem, Nat.shiftRight_eq_div_pow]
/-- The chunks of a register depend on the lanes alone. -/
theorem cpr_congr {h k : Hart} (hp : h.place = k.place) (c : Cfg) : cpr h c = cpr k c := by
  simp only [cpr, Hart.lanes, hp]
theorem chunkIndex_congr {h k : Hart} (hp : h.place = k.place) (c : Cfg) (v i : Nat) : chunkIndex h c v i = chunkIndex k c v i := by
  simp only [chunkIndex, cpr_congr hp]
theorem Hart.elem_congr {h k : Hart} (hp : h.place = k.place) (hs : h.store.chunks = k.store.chunks) (c : Cfg) (v w e : Nat) :
    h.elem c v w e = k.elem c v w e := by
  simp only [Hart.elem, Hart.chunk, chunkIndex_congr hp, hs]

section
variable (k : Hart) (c : Cfg) (v w e p : Nat)

theorem Hart.chunk_putChunk_same (i : Nat) (x : Word) : (k.putChunk c v i x).chunk c v i = x :=
  mget_mput_same 0 k.store.chunks (chunkIndex k c v i) x
theorem Hart.chunk_putChunk_ne {i j : Nat} (x : Word) (h : j ≠ i) : (k.putChunk c v i x).chunk c v j = k.chunk c v j :=
  mget_mput_ne 0 k.store.chunks (chunkIndex k c v i) (chunkIndex k c v j) x (by unfold chunkIndex; omega)

variable {w}

/-- The bits of the chunk in which an element has been written. -/
theorem Hart.toNat_chunk_setElem (hw : w ∈ [32, 16, 8, 6, 4]) : ((k.setElem c v w e p).chunk c v (e / perChunk w)).toNat
    = putSlot (usedBits w (k.chunk c v (e / perChunk w)).toNat) w (w * (e % perChunk w)) p := by
  have hle : w * (e % perChunk w) + w ≤ 64 := (slot_le hw e).trans (by split <;> omega)
  have hx : usedBits w (k.chunk c v (e / perChunk w)).toNat < 2 ^ 64 := by
    unfold usedBits
    split <;> omega
  rw [Hart.setElem_eq, Hart.chunk_putChunk_same, BitVec.toNat_ofNat, Nat.mod_eq_of_lt (putSlot_lt _ _ _ _ hx hle)]
/-- An element written reads as the pattern. -/
theorem Hart.elem_setElem_same (hw : w ∈ [32, 16, 8, 6, 4]) : (k.setElem c v w e p).elem c v w e = p % 2 ^ w := by
  rw [Hart.elem_eq, Hart.toNat_chunk_setElem k c v e p hw, putSlot_same]
/-- Every other element of the group reads as before. -/
theorem Hart.elem_setElem_ne (hw : w ∈ [32, 16, 8, 6, 4]) {j : Nat} (h : j ≠ e) :
    (k.setElem c v w e p).elem c v w j = k.elem c v w j := by
  rw [Hart.elem_eq, Hart.elem_eq]
  by_cases hc : j / perChunk w = e / perChunk w
  · have hs : j % perChunk w ≠ e % perChunk w := fun hm => h <| by
      rw [← Nat.div_add_mod j (perChunk w), ← Nat.div_add_mod e (perChunk w), hc, hm]
    rw [hc, Hart.toNat_chunk_setElem k c v e p hw, ← usedBits_slot hw (k.chunk c v _).toNat j]
    rcases Nat.lt_or_gt_of_ne hs with hlt | hgt
    · exact putSlot_lower _ _ _ _ _ (by nlinarith)
    · rw [putSlot_upper _ _ _ _ _ (by nlinarith)]
  · rw [Hart.setElem_eq, Hart.chunk_putChunk_ne k c v _ hc]

end

end Sys2Proof.Machine

/-! SUPPORT. Values rounded into a register group element by element (03_formats R67, R78, R79, 06_varith R130). -/

namespace Sys2Proof.Machine

/-! ### The generator (03_formats R78) -/

theorem toNat_seedNext (x : Word) : (seedNext x).toNat = seedStep x.toNat := by
  simp only [seedNext, seedStep, BitVec.toNat_xor, BitVec.toNat_shiftLeft, BitVec.toNat_ushiftRight, Nat.shiftLeft_eq,
    Nat.shiftRight_eq_div_pow]

/-- Under SR the pattern is rounded with the 24 high bits of the generator's next state. -/
theorem roundEv_fst (f rm : Nat) (sat : Bool) (seed : Word) (v : Val) : (roundEv f rm sat seed v).1
    = round f rm sat (if rm = 5 then seedStep seed.toNat / 2 ^ 40 else 0) v := by
  by_cases h : rm = 5
  · have hr : ((seedNext seed) >>> 40).toNat % 2 ^ 24 = seedStep seed.toNat / 2 ^ 40 := by
      rw [BitVec.toNat_ushiftRight, toNat_seedNext, Nat.shiftRight_eq_div_pow, Nat.mod_eq_of_lt]
      have := (seedNext seed).isLt
      rw [toNat_seedNext] at this
      omega
    rw [roundEv, if_pos h, if_pos h, h]
    simp only [hr]
  · rw [roundEv, if_neg h, if_neg h]
theorem toNat_roundEv_snd (f rm : Nat) (sat : Bool) (seed : Word) (v : Val) :
    (roundEv f rm sat seed v).2.toNat = if rm = 5 then seedStep seed.toNat else seed.toNat := by
  unfold roundEv
  split
  · exact toNat_seedNext seed
  · rfl

/-! ### One element -/

/-- A hart after a value has been rounded into an element. -/
def Hart.putRound (k : Hart) (c : Cfg) (d : Nat) (q : Descr) (e : Nat) (v : Val) : Hart :=
  let r := roundEv q.fd q.rm q.sat k.vec.seed v
  (k.modVec fun x => { x with seed := r.2 }).setElem c d (contWidth q.fd) e r.1
theorem State.putRound_eq (s : State) (c : Cfg) (d : Nat) (q : Descr) (e : Nat) (v : Val) :
    s.putRound c d q e v = s.modHart fun k => k.putRound c d q e v := rfl

section
variable (k : Hart) (c : Cfg) (d : Nat) (q : Descr)

/-- Only register chunks, VDIRTY, VS and SEED change. -/
theorem Hart.putRound_frame (e : Nat) (v : Val) : k.putRound c d q e v = { k with
    store := { k.store with chunks := (k.putRound c d q e v).store.chunks }
    vec := { k.vec with
      dirtyV := k.vec.dirtyV ||| ((1 : BitVec 32) <<< (d + e / perChunk (contWidth q.fd) / cpr k c))
      vs := vsDirty k.vec.vs
      seed := (roundEv q.fd q.rm q.sat k.vec.seed v).2 } } := rfl
theorem Hart.elem_putRound_same (e : Nat) (v : Val) : (k.putRound c d q e v).elem c d (contWidth q.fd) e
    = round q.fd q.rm q.sat (if q.rm = 5 then seedStep k.vec.seed.toNat / 2 ^ 40 else 0) v % 2 ^ contWidth q.fd := by
  rw [Hart.putRound, Hart.elem_setElem_same _ c d e _ (contWidth_mem q.fd), roundEv_fst]
theorem Hart.elem_putRound_ne {e j : Nat} (v : Val) (h : j ≠ e) :
    (k.putRound c d q e v).elem c d (contWidth q.fd) j = k.elem c d (contWidth q.fd) j :=
  (Hart.elem_setElem_ne _ c d e _ (contWidth_mem q.fd) h).trans (Hart.elem_congr rfl rfl c d _ j)
theorem Hart.mget_chunks_putRound (e : Nat) (v : Val) {i : Nat} (h : i ≠ chunkIndex k c d (e / perChunk (contWidth q.fd))) :
    mget 0 (k.putRound c d q e v).store.chunks i = mget 0 k.store.chunks i :=
  mget_mput_ne 0 k.store.chunks _ i _ h

/-! ### Elements in order -/

variable (act : Nat → Bool) (v : Nat → Val)

/-- A hart after values have been rounded into the active ones of the first elements. -/
def Hart.putRounds : Nat → Hart
  | 0 => k
  | n + 1 => if act n then (putRounds n).putRound c d q n (v n) else putRounds n

theorem Hart.putRounds_succ (n : Nat) : k.putRounds c d q act v (n + 1)
    = if act n then (k.putRounds c d q act v n).putRound c d q n (v n) else k.putRounds c d q act v n := rfl

/-- The part of a hart that a rounding word leaves. -/
theorem Hart.putRounds_frame (n : Nat) : k.putRounds c d q act v n = { k with
    store := { k.store with chunks := (k.putRounds c d q act v n).store.chunks }
    vec := { k.vec with
      dirtyV := (k.putRounds c d q act v n).vec.dirtyV
      vs := (k.putRounds c d q act v n).vec.vs
      seed := (k.putRounds c d q act v n).vec.seed } } := by
  induction n with
  | zero => rfl
  | succ n ih =>
    rw [Hart.putRounds_succ]
    split
    · rw [Hart.putRound_frame, ih]
    · exact ih
theorem Hart.putRounds_place (n : Nat) : (k.putRounds c d q act v n).place = k.place := by
  rw [Hart.putRounds_frame]

/-- SEED holds the state after a step for each active element. -/
theorem Hart.putRounds_seed (n : Nat) : (k.putRounds c d q act v n).vec.seed.toNat
    = if q.rm = 5 then seedStep^[(List.range n).countP act] k.vec.seed.toNat else k.vec.seed.toNat := by
  induction n with
  | zero => simp [Hart.putRounds]
  | succ n ih =>
    rw [List.range_succ, List.countP_append, List.countP_singleton]
    rw [Hart.putRounds_succ]
    by_cases h : act n = true
    · rw [if_pos h, Hart.putRound_frame, if_pos h, Function.iterate_succ_apply']
      simp only [toNat_roundEv_snd, ih]
      split <;> rfl
    · rw [if_neg h, ih, if_neg h, Nat.add_zero]

/-- The registers of the active elements are dirty. -/
theorem Hart.putRounds_dirtyV (n : Nat) {r : Nat} (hr : r < 32) : (k.putRounds c d q act v n).vec.dirtyV.getLsbD r
    = (k.vec.dirtyV.getLsbD r
      || (List.range n).any fun e => act e && d + e / perChunk (contWidth q.fd) / cpr k c == r) := by
  induction n with
  | zero => simp [Hart.putRounds]
  | succ n ih =>
    rw [List.range_succ, List.any_append, ← Bool.or_assoc, ← ih]
    rw [Hart.putRounds_succ]
    by_cases h : act n = true
    · have hbit (x : Nat) : ((1 : BitVec 32) <<< x).getLsbD r = (x == r) := by
        rw [show (1 : BitVec 32) = 1#32 from rfl, BitVec.getLsbD_shiftLeft, BitVec.getLsbD_one, Bool.eq_iff_iff]
        simp only [Bool.and_eq_true, decide_eq_true_eq, Bool.not_eq_true', decide_eq_false_iff_not, beq_iff_eq]
        omega
      rw [if_pos h, Hart.putRound_frame]
      simp only [BitVec.getLsbD_or, hbit, cpr_congr (k.putRounds_place c d q act v n), List.any_cons, List.any_nil, h,
        Bool.true_and, Bool.or_false]
    · rw [if_neg h]
      simp [Bool.eq_false_of_not_eq_true h]

theorem vsDirty_vsDirty (x : BitVec 2) : vsDirty (vsDirty x) = vsDirty x := by revert x; decide
/-- VS is dirty if an element was written. -/
theorem Hart.putRounds_vs (n : Nat) : (k.putRounds c d q act v n).vec.vs
    = if (List.range n).any act then vsDirty k.vec.vs else k.vec.vs := by
  induction n with
  | zero => rfl
  | succ n ih =>
    rw [List.range_succ, List.any_append]
    rw [Hart.putRounds_succ]
    by_cases h : act n = true
    · rw [if_pos h, Hart.putRound_frame]
      simp only [ih, List.any_cons, h, Bool.true_or, Bool.or_true, if_true]
      split
      · exact vsDirty_vsDirty _
      · rfl
    · rw [if_neg h, ih]
      simp [Bool.eq_false_of_not_eq_true h]

/-- Chunks outside the active elements' are as before. -/
theorem Hart.putRounds_chunks (n : Nat) {i : Nat}
    (hi : ∀ e < n, act e = true → i ≠ chunkIndex k c d (e / perChunk (contWidth q.fd))) :
    mget 0 (k.putRounds c d q act v n).store.chunks i = mget 0 k.store.chunks i := by
  induction n with
  | zero => rfl
  | succ n ih =>
    have ih := ih fun e he => hi e (Nat.lt_succ_of_lt he)
    rw [Hart.putRounds_succ]
    split
    · next h =>
      rw [Hart.mget_chunks_putRound _ c d q n (v n), ih]
      rw [chunkIndex_congr (k.putRounds_place c d q act v n)]
      exact hi n (Nat.lt_succ_self n) h
    · exact ih

/-- Elements not reached, and those that are not active, are as before. -/
theorem Hart.elem_putRounds_other (n : Nat) {e : Nat} (he : e < n ∧ act e = false ∨ n ≤ e) :
    (k.putRounds c d q act v n).elem c d (contWidth q.fd) e = k.elem c d (contWidth q.fd) e := by
  induction n with
  | zero => rfl
  | succ n ih =>
    replace ih := ih <| by
      rcases he with ⟨he, hf⟩ | he
      · exact (Nat.lt_or_ge e n).imp_left fun h => ⟨h, hf⟩
      · exact .inr (by omega)
    rw [Hart.putRounds_succ]
    split
    · next h =>
      have hne : e ≠ n := fun hen => by
        subst hen
        rcases he with ⟨-, he⟩ | he
        · rw [h] at he
          cases he
        · omega
      rw [Hart.elem_putRound_ne _ c d q _ hne, ih]
    · exact ih

/-- An active element reads as its value, rounded with the state that the generator then had. -/
theorem Hart.elem_putRounds_active (n : Nat) {e : Nat} (he : e < n) (ha : act e = true) :
    (k.putRounds c d q act v n).elem c d (contWidth q.fd) e = round q.fd q.rm q.sat
      (if q.rm = 5 then seedStep^[(List.range e).countP act + 1] k.vec.seed.toNat / 2 ^ 40 else 0) (v e) % 2 ^ contWidth q.fd := by
  induction n with
  | zero => omega
  | succ n ih =>
    rw [Hart.putRounds_succ]
    by_cases hen : e = n
    · subst hen
      rw [if_pos ha, Hart.elem_putRound_same, Hart.putRounds_seed, Function.iterate_succ_apply']
      split <;> rfl
    · split
      · rw [Hart.elem_putRound_ne _ c d q _ hen]
        exact ih (by omega)
      · exact ih (by omega)

end

/-! ### The state around the hart -/

theorem SameElse.refl (s : State) : SameElse s s := ⟨fun _ _ _ => rfl, fun _ => rfl, fun _ => rfl, rfl⟩
theorem SameElse.trans {s t u : State} (hst : SameElse s t) (htu : SameElse t u) : SameElse s u where
  harts c h n := by
    have hc := congrArg State.cc hst.rest
    have hh := congrArg State.ch hst.rest
    dsimp only at hc hh
    exact (htu.harts c h (by rwa [hc, hh])).trans (hst.harts c h n)
  cores c := (htu.cores c).trans (hst.cores c)
  bytes a := (htu.bytes a).trans (hst.bytes a)
  rest := htu.rest.trans hst.rest

/-- A word that rounds values into a group changes its hart only, as the elements say. -/
theorem foldl_putRound (s : State) (c : Cfg) (d : Nat) (q : Descr) (act : Nat → Bool) (v : Nat → Val) (n : Nat) :
    let t := (List.range n).foldl (fun u e => if act e then u.putRound c d q e (v e) else u) s
    SameElse s t ∧ t.hart = s.hart.putRounds c d q act v n := by
  dsimp only
  induction n with
  | zero => exact ⟨SameElse.refl s, rfl⟩
  | succ n ih =>
    obtain ⟨hs, hh⟩ := ih
    rw [List.range_succ, List.foldl_append, List.foldl_cons, List.foldl_nil]
    rw [Hart.putRounds_succ]
    by_cases h : act n = true
    · rw [if_pos h, if_pos h, State.putRound_eq, State.hart_modHart, hh]
      exact ⟨hs.trans (State.sameElse_modHart _ _), rfl⟩
    · rw [if_neg h, if_neg h]
      exact ⟨hs, hh⟩

end Sys2Proof.Machine

/-! SUPPORT. Rounding a magnitude to whole spacings (03_formats R74, R78): the part below a spacing and the neighbour chosen. -/

namespace Sys2Proof.Machine

/-! ### The part below a spacing -/

/-- What rounding knows of the part below a spacing is right of a fraction. -/
structure Frac.Is (x : Frac) (fr : ℚ) : Prop where
  exact : x.exact = true ↔ fr = 0
  above : x.half = .gt ↔ 1 / 2 < fr
  tie   : x.half = .eq ↔ fr = 1 / 2
  bits  : (x.f24 : ℤ) = ⌊fr * 2 ^ 24⌋

/-- The neighbour that the model takes is the one of R74. -/
theorem awayFromZero_eq_goesAway {x : Frac} {fr : ℚ} (hx : x.Is fr) {rm : Nat} (hrm : rm ≤ 5) (neg odd : Bool) (r : Nat) :
    awayFromZero rm neg odd x r = goesAway rm r neg odd fr := by
  unfold awayFromZero
  split
  · next h =>
    obtain rfl := hx.exact.1 h
    interval_cases rm <;> norm_num [goesAway]
  · next h =>
    have hne : fr ≠ 0 := fun h0 => h (hx.exact.2 h0)
    interval_cases rm
    · simp only [goesAway, hx.above, hx.tie]
    · rfl
    · simp [goesAway, hne]
    · simp [goesAway, hne]
    · have hlt : x.half ≠ .lt ↔ 1 / 2 ≤ fr := by
        rw [le_iff_lt_or_eq, eq_comm (b := fr), ← hx.above, ← hx.tie]
        cases x.half <;> simp
      simp only [goesAway, ← hlt, bne, beq_eq_decide, decide_not]
    · simp only [goesAway, ← hx.bits, Nat.cast_lt]

/-- A magnitude that a number and a mark stand for at spacing 1, known to bits enough for a spacing of 2^sh. -/
def Within (n sh : Nat) (st : Bool) (y : ℚ) : Prop := if st then (n < y ∧ y < n + 1) ∧ 24 ≤ sh else y = n

/-- The part of a magnitude below a spacing, by what lies above the number. -/
theorem div_sub_shiftRight (n sh : Nat) (y : ℚ) : y / 2 ^ sh - (n >>> sh : ℕ) = ((n % 2 ^ sh : ℕ) + (y - n)) / 2 ^ sh := by
  have hn : (n : ℚ) = 2 ^ sh * (n >>> sh : ℕ) + (n % 2 ^ sh : ℕ) := by
    rw [Nat.shiftRight_eq_div_pow]
    exact_mod_cast (Nat.div_add_mod n (2 ^ sh)).symm
  field_simp
  linarith

section
variable {n sh : Nat} {st : Bool} {y : ℚ}

/-- What stands above the number is less than 1, and nothing without the mark. -/
theorem Within.excess (h : Within n sh st y) : 0 ≤ y - n ∧ y - n < 1 ∧ (y - n = 0 ↔ st = false) := by
  unfold Within at h
  split at h
  · next hst =>
    obtain ⟨⟨h1, h2⟩, -⟩ := h
    exact ⟨by linarith, by linarith, iff_of_false (by linarith) (by simp [hst])⟩
  · next hst => simp_all

/-- The whole spacings of the magnitude are those of the number. -/
theorem Within.floor (h : Within n sh st y) : ⌊y / 2 ^ sh⌋₊ = n >>> sh := by
  obtain ⟨h0, h1, -⟩ := h.excess
  have hp := div_sub_shiftRight n sh y
  have hlt : (n % 2 ^ sh : ℕ) + (1 : ℚ) ≤ 2 ^ sh := by exact_mod_cast Nat.mod_lt n (by positivity : 0 < 2 ^ sh)
  have hfr0 : 0 ≤ ((n % 2 ^ sh : ℕ) + (y - n)) / 2 ^ sh := by positivity
  have hfr1 : ((n % 2 ^ sh : ℕ) + (y - n)) / 2 ^ sh < 1 := by rw [div_lt_one (by positivity)]; linarith
  rw [Nat.floor_eq_iff (by have := Nat.cast_nonneg (α := ℚ) (n >>> sh); linarith)]
  constructor <;> linarith

/-- How the part below a spacing compares with one half. -/
theorem Within.half (h : Within n sh st y) : let fr : ℚ := ((n % 2 ^ sh : ℕ) + (y - n)) / 2 ^ sh
    ((fracOf n sh st).half = .gt ↔ 1 / 2 < fr) ∧ ((fracOf n sh st).half = .eq ↔ fr = 1 / 2) := by
  obtain ⟨h0, h1, hst⟩ := h.excess
  cases sh with
  | zero =>
    have hy : y - n = 0 := by
      cases st <;> simp_all [Within]
    norm_num [fracOf, Nat.mod_one, hy]
    exact ⟨by decide, by decide⟩
  | succ m =>
    have hgt (z : ℚ) : 1 / 2 < z / 2 ^ (m + 1) ↔ 2 ^ m < z := by
      rw [lt_div_iff₀ (by positivity), pow_succ]; constructor <;> intro h <;> linarith
    have heq (z : ℚ) : z / 2 ^ (m + 1) = 1 / 2 ↔ z = 2 ^ m := by
      rw [div_eq_iff (by positivity), pow_succ]; constructor <;> intro h <;> linarith
    simp only [hgt, heq]
    set rem := n % 2 ^ (m + 1) with hrem
    rcases Nat.lt_trichotomy rem (2 ^ m) with hlt | heq | hgt
    · have : (rem : ℚ) + 1 ≤ 2 ^ m := by exact_mod_cast hlt
      have hl : (fracOf n (m + 1) st).half = .lt := by simp [fracOf, ← hrem, hlt]
      rw [hl]
      exact ⟨iff_of_false (by decide) (by linarith), iff_of_false (by decide) (by linarith)⟩
    · have : (rem : ℚ) = 2 ^ m := by exact_mod_cast heq
      have hl : (fracOf n (m + 1) st).half = if st = false then .eq else .gt := by simp [fracOf, ← hrem, heq]
      rw [hl, this, add_eq_left, hst, lt_add_iff_pos_right, lt_iff_le_and_ne, ne_comm, Ne, hst]
      cases st <;> simp [h0]
    · have : (2 : ℚ) ^ m + 1 ≤ rem := by exact_mod_cast hgt
      have hl : (fracOf n (m + 1) st).half = .gt := by simp [fracOf, ← hrem, hgt.not_gt, hgt.ne']
      rw [hl]
      exact ⟨iff_of_true rfl (by linarith), iff_of_false (by decide) (by linarith)⟩

/-- The first 24 bits of the part below a spacing. -/
theorem Within.bits (h : Within n sh st y) :
    ((fracOf n sh st).f24 : ℤ) = ⌊((n % 2 ^ sh : ℕ) + (y - n)) / 2 ^ sh * 2 ^ 24⌋ := by
  obtain ⟨h0, h1, hst⟩ := h.excess
  have hdef : (fracOf n sh st).f24 = n % 2 ^ sh * 2 ^ 24 / 2 ^ sh := by
    simp only [fracOf, Nat.shiftLeft_eq, Nat.shiftRight_eq_div_pow]
  rw [hdef]
  generalize n % 2 ^ sh = rem
  set z := rem * 2 ^ 24 / 2 ^ sh
  have hlow : (z : ℚ) * 2 ^ sh ≤ rem * 2 ^ 24 := by exact_mod_cast Nat.div_mul_le_self _ _
  have hnext : rem * 2 ^ 24 < (z + 1) * 2 ^ sh := Nat.lt_mul_of_div_lt (Nat.lt_succ_self z) (by positivity)
  have hup : (rem + (y - n)) * 2 ^ 24 < ((z : ℚ) + 1) * 2 ^ sh := by
    cases st with
    | false =>
      rw [hst.2 rfl, add_zero]
      exact_mod_cast hnext
    | true =>
      obtain ⟨m, rfl⟩ := Nat.exists_eq_add_of_le (show 24 ≤ sh from h.2)
      have hm : (rem : ℚ) + 1 ≤ (z + 1) * 2 ^ m := by
        rw [pow_add, ← Nat.mul_assoc, Nat.mul_right_comm] at hnext
        exact_mod_cast Nat.lt_of_mul_lt_mul_right hnext
      rw [pow_add, mul_comm (2 ^ 24 : ℚ), ← mul_assoc]
      gcongr
      linarith
  symm
  rw [Int.floor_eq_iff, Int.cast_natCast, div_mul_eq_mul_div, le_div_iff₀ (by positivity), div_lt_iff₀ (by positivity)]
  refine ⟨hlow.trans ?_, hup⟩
  gcongr
  linarith

/-- The part below the spacing, as the model keeps it. -/
theorem Within.fracOf_is (h : Within n sh st y) : (fracOf n sh st).Is (y / 2 ^ sh - (n >>> sh : ℕ)) := by
  rw [div_sub_shiftRight]
  refine ⟨?_, h.half.1, h.half.2, h.bits⟩
  obtain ⟨h0, -, hst⟩ := h.excess
  rw [div_eq_zero_iff, or_iff_left (by positivity), add_eq_zero_iff_of_nonneg (Nat.cast_nonneg _) h0, hst]
  simp [fracOf]

end

/-! ### Whole spacings -/

/-- A magnitude that stands for a real, at a spacing of 2^q. -/
theorem Stands.within {n : Nat} {e : ℤ} {st : Bool} {a : ℚ} (h : Stands n e st a) {sh : Nat} (hsh : st = true → 24 ≤ sh) :
    Within n sh st (a / 2 ^ e) := by
  have hpos : (0 : ℚ) < 2 ^ e := by positivity
  unfold Stands at h
  unfold Within
  split at h
  · next hst =>
    obtain ⟨-, -, h1, h2⟩ := h
    rw [if_pos hst, lt_div_iff₀ hpos, div_lt_iff₀ hpos]
    exact ⟨⟨h1, h2⟩, hsh hst⟩
  · next hst => rw [if_neg hst, h, mul_div_cancel_right₀ _ hpos.ne']

/-- Rounding at a spacing gives the whole spacings of R74. -/
theorem roundAt_eq_wholeSpacings {n : Nat} {e q : ℤ} {st : Bool} {a : ℚ} (h : Stands n e st a) (hst : st = true → 24 ≤ q - e)
    {rm : Nat} (hrm : rm ≤ 5) (r : Nat) (neg : Bool) : roundAt q rm r neg n e st = wholeSpacings rm r neg (a / 2 ^ q) := by
  unfold roundAt wholeSpacings
  split
  · next hq =>
    have hf : st = false := Bool.eq_false_of_not_eq_true fun ht => by have := hst ht; omega
    subst hf
    have ha : a / 2 ^ q = (shl n (e - q) : ℕ) := by
      obtain ⟨k, rfl⟩ : ∃ k : ℕ, e = q + k := ⟨(e - q).toNat, by omega⟩
      have h : a = n * 2 ^ (q + k : ℤ) := h
      rw [h, shl, Nat.shiftLeft_eq, zpow_add₀ (by norm_num)]
      simp
      field_simp
    have h0 : (fracOf 0 1 false).Is 0 := by
      have := Within.fracOf_is (n := 0) (sh := 1) (st := false) (y := 0) (by simp [Within])
      simpa using this
    simp only [ha, Nat.floor_natCast, sub_self, awayFromZero_eq_goesAway h0 hrm]
  · next hq =>
    have hw := h.within (sh := (q - e).toNat) fun ht => by have := hst ht; omega
    have ha : a / 2 ^ q = a / 2 ^ e / 2 ^ (q - e).toNat := by
      rw [div_div, ← zpow_natCast, ← zpow_add₀ (by norm_num)]
      congr 2
      omega
    simp only [ha, hw.floor, awayFromZero_eq_goesAway hw.fracOf_is hrm]

theorem Stands.pos {n : Nat} {e : ℤ} {st : Bool} {a : ℚ} (h : Stands n e st a) (hn : n ≠ 0) : 0 < a := by
  have hpos : (0 : ℚ) < n * 2 ^ e := by
    have : (0 : ℚ) < n := by exact_mod_cast Nat.pos_of_ne_zero hn
    positivity
  unfold Stands at h
  split at h
  · exact hpos.trans h.2.2.1
  · rwa [h]
/-- The floor of the logarithm of a real that a number and a power of two stand for. -/
theorem Stands.log {n : Nat} {e : ℤ} {st : Bool} {a : ℚ} (h : Stands n e st a) (hn : n ≠ 0) : Int.log 2 a = ilog n e := by
  have hb : bitLen n = n.log2 + 1 := if_neg hn
  have hlo : ((2 ^ n.log2 : ℕ) : ℚ) ≤ n := by exact_mod_cast Nat.log2_self_le hn
  have hhi : (n : ℚ) + 1 ≤ (2 ^ (n.log2 + 1) : ℕ) := by exact_mod_cast Nat.lt_log2_self
  obtain ⟨h0, h1, -⟩ := (h.within (sh := 24) fun _ => le_rfl).excess
  have hpos : (0 : ℚ) < 2 ^ e := by positivity
  have ha : a = a / 2 ^ e * 2 ^ e := by field_simp
  have hle : (2 : ℚ) ^ (e + n.log2) ≤ a := by
    rw [ha, zpow_add₀ (by norm_num), mul_comm, zpow_natCast]
    push_cast at hlo
    gcongr
    linarith
  have hlt : a < (2 : ℚ) ^ (e + n.log2 + 1) := by
    rw [ha, add_assoc, zpow_add₀ (by norm_num), mul_comm]
    push_cast at hhi
    have : (2 : ℚ) ^ ((n.log2 : ℤ) + 1) = 2 ^ (n.log2 + 1) := by norm_cast
    rw [this]
    gcongr
    linarith
  have h1 := (Int.zpow_le_iff_le_log (b := 2) (by norm_num) (h.pos hn)).1 (by exact_mod_cast hle)
  have h2 := (Int.lt_zpow_iff_log_lt (b := 2) (by norm_num) (h.pos hn)).1 (by exact_mod_cast hlt)
  simp only [ilog, hb]
  push_cast
  omega

end Sys2Proof.Machine

/-! SUPPORT. Floating patterns (03_formats R66): the fields of a pattern, its value, and the order of the magnitudes. -/

namespace Sys2Proof.Machine

/-! ### The fields of a pattern -/

/-- The floating format of a code, as R65's table gives it. -/
def floatOf (f : Nat) : FloatFmt :=
  { eb := (floatShape f).1, mb := (floatShape f).2.1, bias := (floatShape f).2.2.1, infs := decide (f ≤ 4), nans := decide (f ≤ 5)
    low := (floatShape f).2.2.2 }
theorem floatFmt_of_le {f : Nat} (hf : f ≤ 8) : floatFmt f = some (floatOf f) := by
  interval_cases f <;> rfl
theorem value_of_le {f : Nat} (hf : f ≤ 8) (p : Nat) : value f p = floatValue (floatOf f) p := by
  unfold value
  rw [floatFmt_of_le hf]
theorem round_of_le {f : Nat} (hf : f ≤ 8) (rm : Nat) (sat : Bool) (r : Nat) (v : Val) :
    round f rm sat r v = roundFloat (floatOf f) rm sat r v := by
  unfold round
  rw [floatFmt_of_le hf]

section
variable (F : FloatFmt)

/-- The mantissa field of a pattern. -/
def FloatFmt.man (p : Nat) : Nat := p / 2 ^ F.low % 2 ^ F.mb
/-- The exponent field. -/
def FloatFmt.exp (p : Nat) : Nat := p / 2 ^ (F.low + F.mb) % 2 ^ F.eb
/-- The sign bit. -/
def FloatFmt.sgn (p : Nat) : Nat := p / 2 ^ (F.low + F.mb + F.eb) % 2
/-- An infinity or NaN. -/
def FloatFmt.Special (p : Nat) : Prop := F.exp p = 2 ^ F.eb - 1 ∧ (F.infs = true ∨ F.nans = true ∧ F.man p = 2 ^ F.mb - 1)

theorem floatValue_eq (p : Nat) : floatValue F p =
    if F.exp p = 0 then .num (F.sgn p = 1) (F.man p) (1 - (F.bias : ℤ) - F.mb) false
    else if F.exp p = 2 ^ F.eb - 1 ∧ F.infs then (if F.man p = 0 then .inf (F.sgn p = 1) else .nan)
    else if F.exp p = 2 ^ F.eb - 1 ∧ F.nans ∧ F.man p = 2 ^ F.mb - 1 then .nan
    else .num (F.sgn p = 1) (2 ^ F.mb + F.man p) ((F.exp p : ℤ) - F.bias - F.mb) false := by
  simp only [floatValue, FloatFmt.exp, FloatFmt.man, FloatFmt.sgn, Nat.shiftRight_eq_div_pow, Nat.div_div_eq_div_mul, ← pow_add,
    add_assoc]

variable {F} {p : Nat}

/-- An infinity or NaN stands under the greatest exponent (R66). -/
theorem floatValue_special (heb : 2 ≤ F.eb) (h : F.Special p) :
    floatValue F p = if F.infs = true ∧ F.man p = 0 then .inf (F.sgn p = 1) else .nan := by
  obtain ⟨htop, h⟩ := h
  have h0 : F.exp p ≠ 0 := by
    have : 2 ^ 2 ≤ 2 ^ F.eb := Nat.pow_le_pow_right (by norm_num) heb
    omega
  rw [floatValue_eq, if_neg h0]
  by_cases hi : F.infs = true
  · rw [if_pos ⟨htop, hi⟩]
    simp only [hi, true_and]
  · obtain ⟨hn, hm⟩ := h.resolve_left hi
    rw [if_neg fun x => hi x.2, if_pos ⟨htop, hn, hm⟩, if_neg fun x => hi x.1]
/-- Every other pattern is a real: a subnormal or zero, or a normal (R66). -/
theorem floatValue_finite (h : ¬ F.Special p) : floatValue F p = if F.exp p = 0
    then .num (F.sgn p = 1) (F.man p) (1 - (F.bias : ℤ) - F.mb) false
    else .num (F.sgn p = 1) (2 ^ F.mb + F.man p) ((F.exp p : ℤ) - F.bias - F.mb) false := by
  rw [floatValue_eq, if_neg (c := _ ∧ F.infs = true) fun x => h ⟨x.1, .inl x.2⟩,
    if_neg (c := _ ∧ F.nans = true ∧ _) fun x => h ⟨x.1, .inr x.2⟩]

end

/-- Which patterns of the formats are infinities or NaN (R66). -/
theorem special_floatOf_iff {f : Nat} (hf : f ≤ 8) (p : Nat) : (floatOf f).Special p
    ↔ (floatOf f).exp p = 2 ^ (floatOf f).eb - 1 ∧ (f ≤ 4 ∨ f = 5 ∧ (floatOf f).man p = 7) := by
  unfold FloatFmt.Special
  refine and_congr_right fun _ => ?_
  interval_cases f <;> simp [floatOf, floatShape]
theorem two_le_eb {f : Nat} (hf : f ≤ 8) : 2 ≤ (floatOf f).eb := by
  interval_cases f <;> decide

/-- The value of a floating pattern is that of R66. -/
theorem value_float {f : Nat} (hf : f ≤ 8) (p : Nat) : let F := floatOf f
    let top := F.exp p = 2 ^ F.eb - 1
    (top ∧ (f ≤ 4 ∧ F.man p ≠ 0 ∨ f = 5 ∧ F.man p = 7) → value f p = .nan)
    ∧ (top ∧ f ≤ 4 ∧ F.man p = 0 → value f p = .inf (F.sgn p == 1))
    ∧ (¬ (top ∧ (f ≤ 4 ∨ f = 5 ∧ F.man p = 7)) →
        value f p ≠ .nan ∧ (∀ i, value f p ≠ .inf i) ∧ (value f p).neg = (F.sgn p == 1)
        ∧ (value f p).rat = (if F.sgn p = 1 then -1 else 1) *
          (if F.exp p = 0 then (F.man p : ℚ) / 2 ^ F.mb * 2 ^ (1 - (F.bias : ℤ))
            else (1 + (F.man p : ℚ) / 2 ^ F.mb) * 2 ^ ((F.exp p : ℤ) - F.bias))) := by
  intro F top
  have hval : value f p = floatValue F p := value_of_le hf p
  rw [hval]
  have hinfs : F.infs = true ↔ f ≤ 4 := decide_eq_true_iff
  refine ⟨fun ⟨ht, h⟩ => ?_, fun ⟨ht, h4, hm⟩ => ?_, fun h => ?_⟩
  · rw [floatValue_special (two_le_eb hf) ((special_floatOf_iff hf p).2 ⟨ht, h.imp And.left id⟩), if_neg]
    rintro ⟨hi, hm⟩
    have := hinfs.1 hi
    rcases h with ⟨-, h⟩ | ⟨h, -⟩
    · exact h hm
    · omega
  · rw [floatValue_special (two_le_eb hf) ((special_floatOf_iff hf p).2 ⟨ht, .inl h4⟩), if_pos ⟨hinfs.2 h4, hm⟩]
    rfl
  · rw [floatValue_finite (F := F) (mt (special_floatOf_iff hf p).1 h)]
    split
    · refine ⟨nofun, nofun, rfl, ?_⟩
      simp only [Val.rat, decide_eq_true_eq, sub_eq_add_neg, zpow_add₀ (two_ne_zero' ℚ), zpow_neg, zpow_natCast]
      ring
    · refine ⟨nofun, nofun, rfl, ?_⟩
      simp only [Val.rat, decide_eq_true_eq, sub_eq_add_neg, zpow_add₀ (two_ne_zero' ℚ), zpow_neg, zpow_natCast]
      push_cast
      field_simp

end Sys2Proof.Machine

/-! SUPPORT. Rounding into a floating format (03_formats R74, R75). -/

namespace Sys2Proof.Machine

/-! ### The magnitudes of a format in order -/

section
variable (F : FloatFmt)

/-- The exponent of the smallest subnormal. -/
def FloatFmt.qmin : ℤ := 1 - (F.bias : ℤ) - F.mb
/-- The magnitude of a pattern without sign, exponent field unbounded: its mantissa at the spacing of its exponent. -/
def FloatFmt.grid (x : Nat) : ℚ := (x - (x / 2 ^ F.mb - 1) * 2 ^ F.mb : ℕ) * 2 ^ (F.qmin + (x / 2 ^ F.mb - 1 : ℕ))

/-- The magnitude of a mantissa at the spacing of an exponent, also where it has reached the next exponent. -/
theorem FloatFmt.grid_eq {c m : Nat} (hc : c = 0 ∨ 2 ^ F.mb ≤ m) (hm : m ≤ 2 ^ (F.mb + 1)) :
    F.grid (c * 2 ^ F.mb + m) = m * 2 ^ (F.qmin + c) := by
  have hpos : 0 < 2 ^ F.mb := by positivity
  have hdiv : (c * 2 ^ F.mb + m) / 2 ^ F.mb = c + m / 2 ^ F.mb := by
    rw [Nat.add_comm, Nat.add_mul_div_right _ _ hpos, Nat.add_comm]
  rw [pow_succ] at hm
  unfold FloatFmt.grid
  rw [hdiv]
  rcases hm.lt_or_eq with hlt | heq
  · have hc' : c + m / 2 ^ F.mb - 1 = c := by
      have : m / 2 ^ F.mb < 2 := Nat.div_lt_of_lt_mul hlt
      rcases hc with rfl | hc
      · omega
      · have := (Nat.one_le_div_iff hpos).2 hc
        omega
    rw [hc', Nat.add_sub_cancel_left]
  · have hc' : c + m / 2 ^ F.mb - 1 = c + 1 := by rw [heq, Nat.mul_div_cancel_left _ hpos]; omega
    have hm' : c * 2 ^ F.mb + m - (c + 1) * 2 ^ F.mb = 2 ^ F.mb := by rw [heq, Nat.succ_mul]; omega
    rw [hc', hm', heq]
    push_cast
    rw [← add_assoc, zpow_add_one₀ (by norm_num)]
    ring

theorem FloatFmt.grid_strictMono : StrictMono F.grid := by
  refine strictMono_nat_of_lt_succ fun x => ?_
  obtain ⟨c, m, rfl, hc, hm⟩ : ∃ c m, x = c * 2 ^ F.mb + m ∧ (c = 0 ∨ 2 ^ F.mb ≤ m) ∧ m < 2 ^ (F.mb + 1) := by
    have hx := Nat.div_add_mod' x (2 ^ F.mb)
    have hlt := Nat.mod_lt x (show 0 < 2 ^ F.mb by positivity)
    rw [pow_succ]
    rcases Nat.eq_zero_or_pos (x / 2 ^ F.mb) with h0 | hp
    · refine ⟨0, x % 2 ^ F.mb, ?_, .inl rfl, by omega⟩
      rw [h0] at hx
      exact hx.symm
    · refine ⟨x / 2 ^ F.mb - 1, 2 ^ F.mb + x % 2 ^ F.mb, ?_, .inr (by omega), by omega⟩
      conv_lhs => rw [← hx, ← Nat.sub_add_cancel hp]
      ring
  rw [add_assoc, F.grid_eq hc hm.le, F.grid_eq (hc.imp_right fun h => by omega) hm]
  gcongr
  exact Nat.lt_succ_self m

/-! ### A finite pattern with its sign -/

variable {F}

theorem maxPat_lt (F : FloatFmt) : maxPat F < 2 ^ (F.eb + F.mb) := by
  unfold maxPat
  have : 0 < 2 ^ (F.eb + F.mb) := by positivity
  split
  · have : (2 ^ F.eb - 1) * 2 ^ F.mb ≤ 2 ^ (F.eb + F.mb) := by
      rw [pow_add]
      exact Nat.mul_le_mul_right _ (Nat.sub_le _ _)
    omega
  · split <;> omega

section
variable {x : Nat} (s : Bool)

theorem man_signed : F.man (signed F s x <<< F.low) = x % 2 ^ F.mb := by
  unfold FloatFmt.man signed
  rw [Nat.shiftLeft_eq, Nat.mul_div_cancel _ (by positivity)]
  cases s
  · rfl
  · rw [if_pos rfl, pow_add, Nat.add_mul_mod_self_right]
theorem exp_signed (hx : x < 2 ^ (F.eb + F.mb)) : F.exp (signed F s x <<< F.low) = x / 2 ^ F.mb := by
  unfold FloatFmt.exp signed
  have hlt : x / 2 ^ F.mb < 2 ^ F.eb := Nat.div_lt_of_lt_mul (by rwa [← pow_add, Nat.add_comm])
  rw [Nat.shiftLeft_eq, pow_add 2 F.low, ← Nat.div_div_eq_div_mul, Nat.mul_div_cancel _ (by positivity)]
  cases s
  · exact Nat.mod_eq_of_lt hlt
  · rw [if_pos rfl, pow_add, Nat.add_mul_div_right _ _ (by positivity), Nat.add_mod_right, Nat.mod_eq_of_lt hlt]
theorem sgn_signed (hx : x < 2 ^ (F.eb + F.mb)) : F.sgn (signed F s x <<< F.low) = if s then 1 else 0 := by
  unfold FloatFmt.sgn signed
  rw [Nat.shiftLeft_eq, add_assoc, Nat.add_comm F.mb, pow_add 2 F.low, ← Nat.div_div_eq_div_mul,
    Nat.mul_div_cancel _ (by positivity)]
  cases s
  · simp [Nat.div_eq_of_lt hx]
  · simp [Nat.add_div_right _ (show 0 < 2 ^ (F.eb + F.mb) by positivity), Nat.div_eq_of_lt hx]

/-- No pattern up to that of the largest magnitude is an infinity or NaN. -/
theorem not_special_signed (heb : 2 ≤ F.eb) (hx : x ≤ maxPat F) : ¬ F.Special (signed F s x <<< F.low) := by
  rintro ⟨htop, h⟩
  rw [exp_signed s (hx.trans_lt (maxPat_lt F))] at htop
  rw [man_signed] at h
  have hdm := Nat.div_add_mod' x (2 ^ F.mb)
  have htop4 : 2 ^ 2 ≤ 2 ^ F.eb := Nat.pow_le_pow_right (by norm_num) heb
  have hmb : 0 < 2 ^ F.mb := by positivity
  have hone : 2 ^ F.mb ≤ (2 ^ F.eb - 1) * 2 ^ F.mb := Nat.le_mul_of_pos_left _ (by omega)
  rw [htop] at hdm
  unfold maxPat at hx
  split at hx
  · omega
  · next hi =>
    obtain ⟨hn, hm⟩ := h.resolve_left hi
    have hsucc : 2 ^ (F.eb + F.mb) = (2 ^ F.eb - 1) * 2 ^ F.mb + 2 ^ F.mb := by
      rw [← Nat.succ_mul, pow_add]
      congr 1
      omega
    rw [if_pos hn] at hx
    omega

/-- A pattern up to that of the largest magnitude is a real with its sign and magnitude. -/
theorem floatValue_signed (heb : 2 ≤ F.eb) (hx : x ≤ maxPat F) :
    ∃ n e, floatValue F (signed F s x <<< F.low) = .num s n e false ∧ (n : ℚ) * 2 ^ e = F.grid x := by
  have hlt := hx.trans_lt (maxPat_lt F)
  have hs : decide (F.sgn (signed F s x <<< F.low) = 1) = s := by rw [sgn_signed s hlt]; cases s <;> rfl
  have hm := Nat.mod_lt x (show 0 < 2 ^ F.mb by positivity)
  rw [floatValue_finite (not_special_signed s heb hx), hs, man_signed, exp_signed s hlt]
  conv in F.grid x => rw [← Nat.div_add_mod' x (2 ^ F.mb)]
  split
  · next h0 =>
    refine ⟨_, _, rfl, ?_⟩
    rw [h0, F.grid_eq (.inl rfl) (by rw [pow_succ]; omega), Nat.cast_zero, add_zero]
    rfl
  · next h0 =>
    refine ⟨_, _, rfl, ?_⟩
    obtain ⟨c, hc⟩ := Nat.exists_eq_succ_of_ne_zero h0
    rw [hc, Nat.succ_mul, add_assoc, F.grid_eq (.inr (by omega)) (by rw [pow_succ]; omega)]
    congr 2
    unfold FloatFmt.qmin
    push_cast
    ring

end

/-! ### Rounding a real -/

/-- The spacing at which a real of magnitude `a` is rounded (R74). -/
def FloatFmt.spacing (F : FloatFmt) (a : ℚ) : ℤ := max F.qmin (Int.log 2 a - F.mb)

/-- A real is less than twice the mantissa range above its spacing, and fills that range above the least spacing. -/
theorem FloatFmt.div_spacing (F : FloatFmt) {a : ℚ} (ha : 0 < a) : a / 2 ^ F.spacing a < (2 ^ (F.mb + 1) : ℕ)
    ∧ (F.spacing a = F.qmin ∨ ((2 ^ F.mb : ℕ) : ℚ) ≤ a / 2 ^ F.spacing a) := by
  have hlt := Int.lt_zpow_succ_log_self (b := 2) (by norm_num) a
  have hle := Int.zpow_log_le_self (b := 2) (by norm_num) ha
  rw [div_lt_iff₀ (by positivity), le_div_iff₀ (by positivity)]
  push_cast at *
  simp only [← zpow_natCast, ← zpow_add₀ (two_ne_zero' ℚ)]
  constructor
  · refine hlt.trans_le (zpow_le_zpow_right₀ (by norm_num) ?_)
    unfold FloatFmt.spacing
    omega
  · refine or_iff_not_imp_left.2 fun hq => le_trans (zpow_le_zpow_right₀ (by norm_num) ?_) hle
    unfold FloatFmt.spacing at *
    omega

/-- A mark goes with a number of more than 64 bits. -/
theorem Stands.lt_bitLen {n : Nat} {e : ℤ} {a : ℚ} (h : Stands n e true a) : 64 < bitLen n := by
  have hn : 2 ^ 64 ≤ n := h.1
  unfold bitLen
  rw [if_neg (by omega), Nat.lt_succ_iff]
  exact (Nat.le_log2 (by omega)).2 hn

theorem wholeSpacings_bounds (rm r : Nat) (neg : Bool) (m : ℚ) :
    ⌊m⌋₊ ≤ wholeSpacings rm r neg m ∧ wholeSpacings rm r neg m ≤ ⌊m⌋₊ + 1 := by
  unfold wholeSpacings
  split <;> omega

/-- A real rounds to the whole spacings of R74, or overflows where they are above the largest magnitude. -/
theorem roundFloat_num {F : FloatFmt} (hmb : F.mb ≤ 39) {n : Nat} {e : ℤ} {st : Bool} {a : ℚ} (h : Stands n e st a)
    (hn : n ≠ 0) {rm : Nat} (hrm : rm ≤ 5) (r : Nat) (sat s : Bool) :
    ∃ x, F.grid x = wholeSpacings rm r s (a / 2 ^ F.spacing a) * 2 ^ F.spacing a
      ∧ roundFloat F rm sat r (.num s n e st) = (if x > maxPat F then overflowPat F rm sat s else signed F s x) <<< F.low := by
  have hq : F.spacing a = max F.qmin (ilog n e - F.mb) := by rw [FloatFmt.spacing, h.log hn]
  have hst : st = true → 24 ≤ F.spacing a - e := fun ht => by
    subst ht
    have := h.lt_bitLen
    rw [hq, ilog]
    omega
  obtain ⟨hup, hlow⟩ := F.div_spacing (h.pos hn)
  have hround := roundAt_eq_wholeSpacings h hst hrm r s
  obtain ⟨hge, hle⟩ := wholeSpacings_bounds rm r s (a / 2 ^ F.spacing a)
  refine ⟨(F.spacing a - F.qmin).toNat * 2 ^ F.mb + wholeSpacings rm r s (a / 2 ^ F.spacing a), ?_, ?_⟩
  · rw [F.grid_eq]
    · congr 2
      rw [hq]
      omega
    · refine hlow.imp (fun h => by omega) fun h => (Nat.le_floor h).trans hge
    · exact hle.trans ((Nat.floor_lt' (by positivity)).2 hup)
  · unfold roundFloat
    simp only [hn, false_and, if_false]
    rw [← hround, hq]
    rfl

end

end Sys2Proof.Machine

/-! SUPPORT. Rounding in each format (03_formats R74 to R76). -/

namespace Sys2Proof.Machine

/-! ### Floating formats -/

section
variable {f : Nat} (hf : f ≤ 8)
include hf

theorem mb_floatOf_le : (floatOf f).mb ≤ 39 := by
  interval_cases f <;> decide
theorem signBit_eq : signBit f = 2 ^ ((floatOf f).eb + (floatOf f).mb) * 2 ^ (floatOf f).low := by
  interval_cases f <;> rfl
theorem signed_shiftLeft (neg : Bool) (x : Nat) : signed (floatOf f) neg x <<< (floatOf f).low
    = x <<< (floatOf f).low + if neg then signBit f else 0 := by
  rw [signed, signBit_eq hf, Nat.shiftLeft_eq, Nat.shiftLeft_eq, Nat.add_mul]
  cases neg
  · simp
  · rfl
theorem maxPat_shiftLeft : maxPat (floatOf f) <<< (floatOf f).low = (floatEnds f).1 := by
  interval_cases f <;> rfl
theorem nanPat_shiftLeft : nanPat (floatOf f) <<< (floatOf f).low = (floatEnds f).2.2 := by
  interval_cases f <;> rfl
/-- What stands for an infinity without saturation (R75). -/
theorem infPat_shiftLeft (neg : Bool) : infPat (floatOf f) neg <<< (floatOf f).low = infOf f neg := by
  interval_cases f <;> cases neg <;> rfl
theorem signed_maxPat_shiftLeft (neg : Bool) : signed (floatOf f) neg (maxPat (floatOf f)) <<< (floatOf f).low
    = (floatEnds f).1 + if neg then signBit f else 0 := by
  rw [signed_shiftLeft hf, maxPat_shiftLeft hf]

/-- An overflow gives what R75 says. -/
theorem overflowPat_shiftLeft {rm : Nat} (hrm : rm ≤ 5) (sat neg : Bool) :
    overflowPat (floatOf f) rm sat neg <<< (floatOf f).low = overflowOf f rm sat neg := by
  unfold overflowPat overflowOf
  rw [← signed_maxPat_shiftLeft hf, ← infPat_shiftLeft hf]
  cases sat
  · interval_cases rm <;> cases neg <;> rfl
  · rfl

theorem value_floatEnds : (value f (floatEnds f).1).rat = (floatOf f).grid (maxPat (floatOf f)) := by
  obtain ⟨n, e, hv, hg⟩ := floatValue_signed (F := floatOf f) false (two_le_eb hf) le_rfl
  rw [signed_maxPat_shiftLeft hf, if_neg Bool.false_ne_true, Nat.add_zero] at hv
  rw [value_of_le hf, hv, ← hg]
  simp [Val.rat]

/-- A pattern within the range of the format has its sign and its magnitude. -/
theorem value_signed {x : Nat} (hx : x ≤ maxPat (floatOf f)) (s : Bool) : let p := signed (floatOf f) s x <<< (floatOf f).low
    value f p ≠ .nan ∧ (∀ i, value f p ≠ .inf i) ∧ (value f p).rat = (if s then -1 else 1) * (floatOf f).grid x
      ∧ (value f p).neg = s ∧ p < 2 * signBit f ∧ p % 2 ^ (floatShape f).2.2.2 = 0 := by
  intro p
  obtain ⟨n, e, hv, hg⟩ := floatValue_signed (F := floatOf f) s (two_le_eb hf) hx
  have hval : value f p = .num s n e false := (value_of_le hf p).trans hv
  have hlt : x <<< (floatOf f).low < signBit f := by
    rw [signBit_eq hf, Nat.shiftLeft_eq]
    exact Nat.mul_lt_mul_of_pos_right (hx.trans_lt (maxPat_lt _)) (by positivity)
  rw [hval]
  refine ⟨nofun, nofun, ?_, rfl, ?_, ?_⟩
  · rw [← hg, ← mul_assoc]
    rfl
  · have hp : p = _ := signed_shiftLeft hf s x
    rw [hp]
    split <;> omega
  · have hp : p = _ * 2 ^ (floatShape f).2.2.2 := Nat.shiftLeft_eq _ _
    rw [hp, Nat.mul_mod_left]

/-- Rounding a real into a floating format (R74, R75). -/
theorem round_float_real {rm : Nat} (hrm : rm ≤ 5) (r : Nat) (sat s : Bool) {n : Nat} {e : ℤ} {st : Bool} {a : ℚ} (hn : n ≠ 0)
    (h : Stands n e st a) : let p := round f rm sat r (.num s n e st)
    let q := (floatOf f).spacing a
    let k := wholeSpacings rm r s (a / 2 ^ q)
    if (k : ℚ) * 2 ^ q ≤ (value f (floatEnds f).1).rat then
      value f p ≠ .nan ∧ (∀ i, value f p ≠ .inf i) ∧ (value f p).rat = (if s then -1 else 1) * k * 2 ^ q
        ∧ (value f p).neg = s ∧ p < 2 * signBit f ∧ p % 2 ^ (floatShape f).2.2.2 = 0
    else p = overflowOf f rm sat s := by
  intro p q k
  obtain ⟨x, hx, hp⟩ := roundFloat_num (mb_floatOf_le hf) h hn hrm r sat s
  have hp : p = _ := (round_of_le hf rm sat r _).trans hp
  have hfits : (k : ℚ) * 2 ^ q ≤ (value f (floatEnds f).1).rat ↔ x ≤ maxPat (floatOf f) := by
    rw [value_floatEnds hf, ← hx, (floatOf f).grid_strictMono.le_iff_le]
  by_cases hle : x ≤ maxPat (floatOf f)
  · rw [if_neg (by omega)] at hp
    rw [if_pos (hfits.2 hle), hp, mul_assoc, ← hx]
    exact value_signed hf hle s
  · rw [if_pos (by omega), overflowPat_shiftLeft hf hrm] at hp
    rw [if_neg (mt hfits.1 hle), hp]

theorem round_float_zero (rm r : Nat) (sat s : Bool) (e : ℤ) :
    round f rm sat r (.num s 0 e false) = if s then signBit f else 0 := by
  have hpat : roundFloat (floatOf f) rm sat r (.num s 0 e false) = signed (floatOf f) s 0 <<< (floatOf f).low := by
    simp [roundFloat]
  rw [round_of_le hf, hpat, signed_shiftLeft hf, Nat.zero_shiftLeft, Nat.zero_add]
theorem round_float_inf (rm r : Nat) (sat s : Bool) :
    round f rm sat r (.inf s) = if sat then (floatEnds f).1 + (if s then signBit f else 0) else infOf f s := by
  rw [round_of_le hf, ← signed_maxPat_shiftLeft hf, ← infPat_shiftLeft hf]
  cases sat <;> rfl
theorem round_float_nan (rm r : Nat) (sat : Bool) : round f rm sat r .nan = (floatEnds f).2.2 := by
  rw [round_of_le hf, ← nanPat_shiftLeft hf]
  rfl

end

/-! ### Integer formats, TERN and E8M0 -/

section
variable {n : Nat} {e : ℤ} {st : Bool} {a : ℚ} {rm : Nat}

/-- Rounding to an integer (R76). -/
theorem roundAt_zero (h : Stands n e st a) (hrm : rm ≤ 5) (r : Nat) (neg : Bool) :
    roundAt 0 rm r neg n e st = wholeSpacings rm r neg a := by
  rw [roundAt_eq_wholeSpacings h _ hrm, zpow_zero, div_one]
  rintro rfl
  have : e ≤ -32 := h.2.1
  omega

/-- The integer formats of R65's table are the model's. -/
theorem intFmt_of_mem : ∀ z ∈ intShapes, floatFmt z.1 = none ∧ intFmt z.1 = some z.2 := by decide
theorem round_of_int {f w : Nat} {sg : Bool} (hf : (f, w, sg) ∈ intShapes) (rm : Nat) (sat : Bool) (r : Nat) (v : Val) :
    round f rm sat r v = roundInt w sg rm sat r v := by
  obtain ⟨hfloat, hint⟩ := intFmt_of_mem _ hf
  unfold round
  rw [hfloat, hint]

/-- An integer pattern is its value modulo the width. -/
theorem toNat_emod_two_pow (i : ℤ) (w : Nat) : ((i % 2 ^ w).toNat : ℤ) = i % 2 ^ w :=
  Int.toNat_of_nonneg (Int.emod_nonneg i (by positivity))

theorem roundInt_num (h : Stands n e st a) (hrm : rm ≤ 5) (w : Nat) (sg : Bool) (r : Nat) (sat s : Bool) :
    let lo : ℤ := if sg then -2 ^ (w - 1) else 0
    let hi : ℤ := if sg then 2 ^ (w - 1) - 1 else 2 ^ w - 1
    let i : ℤ := (if s then -1 else 1) * wholeSpacings rm r s a
    (roundInt w sg rm sat r (.num s n e st) : ℤ) = (if sat then max lo (min hi i) else i) % 2 ^ w := by
  intro lo hi i
  have hi : (if s then -(roundAt 0 rm r s n e st : ℤ) else roundAt 0 rm r s n e st) = i := by
    rw [roundAt_zero h hrm]
    cases s <;> simp [i]
  simp only [roundInt, toNat_emod_two_pow, hi]
  rfl
theorem roundInt_inf (w : Nat) (sg : Bool) (rm r : Nat) (sat s : Bool) : (roundInt w sg rm sat r (.inf s) : ℤ)
    = (if s then if sg then -2 ^ (w - 1) else 0 else if sg then 2 ^ (w - 1) - 1 else 2 ^ w - 1) % 2 ^ w :=
  toNat_emod_two_pow _ w

/-- Rounding a positive real into E8M0 (R76). -/
theorem roundScale_num (h : Stands n e st a) (hrm : rm ≤ 5) (r : Nat) (sat s : Bool) : roundScale rm sat r (.num s n e st) =
    if s = true ∨ n = 0 then 0xFF
    else
      let k := Int.log 2 a
      let p := k + 127 + (if goesAway rm r false ((k + 127) % 2 = 1) (a / 2 ^ k - 1) then 1 else 0)
      if p < 0 then 0 else if p > 254 then (if sat then 0xFE else 0xFF) else p.toNat := by
  unfold roundScale
  dsimp only
  split
  · rfl
  · next hpos =>
    have hn : n ≠ 0 := fun h0 => hpos (.inr h0)
    have hb : bitLen n - 1 = n.log2 := by rw [bitLen, if_neg hn, Nat.add_sub_cancel]
    have hw := h.within (sh := bitLen n - 1) fun ht => by
      subst ht
      have := h.lt_bitLen
      omega
    have hone : n >>> (bitLen n - 1) = 1 := by
      rw [hb, Nat.shiftRight_eq_div_pow, Nat.div_eq_iff (by positivity)]
      have := Nat.log2_self_le hn
      have := Nat.lt_log2_self (n := n)
      rw [pow_succ] at this
      omega
    have hfr := hw.fracOf_is
    have hlog : Int.log 2 a = e + (bitLen n - 1 : ℕ) := by
      rw [h.log hn, ilog, hb, bitLen, if_neg hn]
      push_cast
      ring
    have ha : a / 2 ^ e / 2 ^ (bitLen n - 1) = a / 2 ^ Int.log 2 a := by
      rw [hlog, zpow_add₀ (by norm_num), zpow_natCast, div_div]
    rw [hone, ha, Nat.cast_one] at hfr
    have hodd : decide (ilog n e % 2 = 0) = decide ((ilog n e + 127) % 2 = 1) := by
      rw [decide_eq_decide]
      omega
    rw [awayFromZero_eq_goesAway hfr hrm, h.log hn, hodd]

end

/-- Rounding gives what R74 to R76 say in every format and mode. -/
theorem roundsRight (f : Nat) {rm : Nat} (hrm : rm ≤ 5) (r : Nat) (sat : Bool) : RoundsRight f rm r sat where
  real s n e st a hn hf h := round_float_real hf hrm r sat s hn h
  zero s e hf := round_float_zero hf rm r sat s e
  inf s hf := round_float_inf hf rm r sat s
  nan hf := round_float_nan hf rm r sat
  int w sg hf := by
    simp only [round_of_int hf]
    exact ⟨fun s n e st a h => roundInt_num h hrm w sg r sat s, fun s => roundInt_inf w sg rm r sat s, rfl⟩
  tern hf := by
    subst hf
    refine ⟨fun s n e st a h => ?_, fun s => rfl, rfl⟩
    rw [← roundAt_zero h hrm r s]
    rfl
  bin hf := by
    subst hf
    exact fun v => rfl
  scale hf := by
    subst hf
    exact ⟨fun s n e st a h => roundScale_num h hrm r sat s, rfl, rfl, rfl⟩

end Sys2Proof.Machine

/-! The family 03_formats: O34. Rounding, and elements written in order. -/

namespace Sys2Proof

open Machine

/-- Settles O34, from the value of a pattern, rounding in each format, and an induction over the elements. -/
theorem roundedElementsLand : Obligations.RoundedElementsLand := by
  unfold Obligations.RoundedElementsLand
  refine ⟨fun f hf p => value_float hf p, fun f _ rm hrm r _ sat => roundsRight f hrm r sat, ?_⟩
  intro s c d q n act v _ _ w t seed count
  obtain ⟨hsame, hhart⟩ := foldl_putRound s c d q act v n
  change SameElse s t at hsame
  change t.hart = _ at hhart
  rw [hhart]
  exact ⟨hsame, fun e he ha => s.hart.elem_putRounds_active c d q act v n he ha, s.hart.putRounds_seed c d q act v n,
    fun e he => s.hart.elem_putRounds_other c d q act v n he, fun i hi => s.hart.putRounds_chunks c d q act v n hi,
    s.hart.putRounds_frame c d q act v n, fun r hr => s.hart.putRounds_dirtyV c d q act v n hr, s.hart.putRounds_vs c d q act v n⟩

end Sys2Proof

/-! SUPPORT. The results of integer instructions as integers (04_scalar R90 to R94). -/

namespace Sys2Proof.Machine

section
variable (x y : Word) (imm : BitVec 16)

/-! ### Sums, products and quotients -/

theorem ofInt_toInt_add : BitVec.ofInt 64 (x.toInt + y.toInt) = x + y := by
  rw [BitVec.ofInt_add, BitVec.ofInt_toInt, BitVec.ofInt_toInt]

theorem ofInt_toInt_sub : BitVec.ofInt 64 (x.toInt - y.toInt) = x - y := by
  rw [BitVec.sub_eq_add_neg, Int.sub_eq_add_neg, BitVec.ofInt_add, BitVec.ofInt_neg, BitVec.ofInt_toInt, BitVec.ofInt_toInt]

theorem ofInt_toInt_mul : BitVec.ofInt 64 (x.toInt * y.toInt) = x * y := by
  rw [BitVec.ofInt_mul, BitVec.ofInt_toInt, BitVec.ofInt_toInt]

/-- The upper half of 128 bits of an integer is its quotient by 2^64. -/
theorem ofInt_upper_half (z : ℤ) : ((BitVec.ofInt 128 z) >>> 64).setWidth 64 = BitVec.ofInt 64 (z / 2 ^ 64) := by
  apply BitVec.eq_of_toNat_eq
  simp only [BitVec.toNat_setWidth, BitVec.toNat_ushiftRight, BitVec.toNat_ofInt, Nat.shiftRight_eq_div_pow]
  push_cast
  omega

theorem ofInt_toInt_mul_high : BitVec.ofInt 64 (x.toInt * y.toInt / 2 ^ 64)
    = ((x.signExtend 128 * y.signExtend 128) >>> 64).setWidth 64 := by
  rw [← ofInt_upper_half, BitVec.ofInt_mul]
  rfl

theorem ofInt_toInt_tdiv : BitVec.ofInt 64 (x.toInt.tdiv y.toInt) = x.sdiv y := by
  apply BitVec.eq_of_toInt_eq
  rw [BitVec.toInt_sdiv, BitVec.toInt_ofInt]

theorem ofInt_toInt_tmod : BitVec.ofInt 64 (x.toInt.tmod y.toInt) = x.srem y := by
  rw [← BitVec.toInt_srem, BitVec.ofInt_toInt]

theorem ofNat_toNat_div : BitVec.ofNat 64 (x.toNat / y.toNat) = x / y := by
  rw [← BitVec.toNat_udiv, BitVec.ofNat_toNat, BitVec.setWidth_eq]

/-! ### Shifts -/

theorem ofNat_mul_two_pow (n : Nat) : BitVec.ofNat 64 (x.toNat * 2 ^ n) = x <<< n := by
  apply BitVec.eq_of_toNat_eq
  rw [BitVec.toNat_shiftLeft, BitVec.toNat_ofNat, Nat.shiftLeft_eq]

theorem ofNat_div_two_pow (n : Nat) : BitVec.ofNat 64 (x.toNat / 2 ^ n) = x >>> n := by
  rw [← Nat.shiftRight_eq_div_pow, ← BitVec.toNat_ushiftRight, BitVec.ofNat_toNat, BitVec.setWidth_eq]

theorem ofInt_div_two_pow (n : Nat) : BitVec.ofInt 64 (x.toInt / 2 ^ n) = x.sshiftRight n := by
  rw [BitVec.sshiftRight, Int.shiftRight_eq_div_pow]
  norm_cast

/-! ### Bits and comparisons -/

theorem ofFnLE_and : (BitVec.ofFnLE fun i : Fin 64 => x[i] && y[i]) = x &&& y := by
  ext i hi
  simp

theorem ofFnLE_or : (BitVec.ofFnLE fun i : Fin 64 => x[i] || y[i]) = x ||| y := by
  ext i hi
  simp

theorem ofFnLE_xor : (BitVec.ofFnLE fun i : Fin 64 => x[i] != y[i]) = x ^^^ y := by
  ext i hi
  simp

theorem bitWord_slt : bitWord (x.slt y) = if x.toInt < y.toInt then 1 else 0 := by
  simp [bitWord, BitVec.slt]

theorem bitWord_ult : bitWord (x.ult y) = if x.toNat < y.toNat then 1 else 0 := by
  simp [bitWord, BitVec.ult]

/-- Where two values are equal as integers either is the lesser. -/
theorem min_of_slt : (if x.slt y then x else y) = if x.toInt ≤ y.toInt then x else y := by
  rcases lt_trichotomy x.toInt y.toInt with h | h | h
  · simp [BitVec.slt, h, h.le]
  · simp [BitVec.eq_of_toInt_eq h]
  · simp [BitVec.slt, h.not_gt, h.not_ge]

theorem max_of_slt : (if x.slt y then y else x) = if x.toInt ≤ y.toInt then y else x := by
  rcases lt_trichotomy x.toInt y.toInt with h | h | h
  · simp [BitVec.slt, h, h.le]
  · simp [BitVec.eq_of_toInt_eq h]
  · simp [BitVec.slt, h.not_gt, h.not_ge]

/-! ### Immediates -/

theorem toInt_signExtend_imm : (imm.signExtend 64).toInt = imm.toInt := BitVec.toInt_signExtend_of_le (by decide)

theorem ofInt_toInt_add_imm : BitVec.ofInt 64 (x.toInt + imm.toInt) = x + imm.signExtend 64 := by
  rw [← toInt_signExtend_imm, ofInt_toInt_add]

/-- The upper bits that LHI and ADDPC set. -/
theorem ofInt_upper_imm : BitVec.ofInt 64 (imm.toInt * 2 ^ 16) = imm.signExtend 64 <<< 16 := by
  rw [← toInt_signExtend_imm, ← BitVec.mul_twoPow_eq_shiftLeft, BitVec.ofInt_mul, BitVec.ofInt_toInt]
  rfl

theorem getLsbD_imm (i : Fin 64) : (imm.setWidth 64)[i] = imm.getLsbD i := by
  simp [BitVec.getLsbD_eq_getElem?_getD]

end

/-- The end with a register result, its value in the words of a statement. -/
theorem finish_sets_eq {s : State} (h : s.Quiet) (d : BitVec 5) {v w : Word} (e : w = v) :
    Sets s (finish d v s) s.nextPc d w id := e ▸ finish_sets s d v h

end Sys2Proof.Machine

/-! The family 04_scalar: O10 and O12. -/

namespace Sys2Proof

open Machine

/-- Settles O10, instruction by instruction: each ends with a register result, whose value is the one R90 or R91 gives. -/
theorem aluRegisterResults : Obligations.AluRegisterResults := by
  unfold Obligations.AluRegisterResults
  intro s d a b h x y
  exact ⟨finish_sets_eq h d (ofInt_toInt_add x y), finish_sets_eq h d (ofInt_toInt_sub x y),
    finish_sets_eq h d (ofFnLE_and x y), finish_sets_eq h d (ofFnLE_or x y), finish_sets_eq h d (ofFnLE_xor x y),
    finish_sets_eq h d (ofNat_mul_two_pow x _), finish_sets_eq h d (ofNat_div_two_pow x _),
    finish_sets_eq h d (ofInt_div_two_pow x _), finish_sets_eq h d (bitWord_slt x y).symm,
    finish_sets_eq h d (bitWord_ult x y).symm, finish_sets_eq h d (ofInt_toInt_mul x y),
    finish_sets_eq h d (ofInt_toInt_mul_high x y), finish_sets_eq h d (by rw [ofInt_toInt_tdiv]),
    finish_sets_eq h d (by rw [ofNat_toNat_div]), finish_sets_eq h d (by rw [ofInt_toInt_tmod]),
    finish_sets_eq h d (min_of_slt x y).symm, finish_sets_eq h d (max_of_slt x y).symm⟩

/-- Settles O12, instruction by instruction, as O10 with an immediate for s[b]. -/
theorem aluImmediateResults : Obligations.AluImmediateResults := by
  unfold Obligations.AluImmediateResults
  intro s d a imm n h x
  have hx := toInt_signExtend_imm imm
  refine ⟨finish_sets_eq h d (ofInt_toInt_add_imm x imm), finish_sets_eq h d ?_, finish_sets_eq h d ?_,
    finish_sets_eq h d ?_, finish_sets_eq h d ?_, finish_sets_eq h d (ofNat_mul_two_pow x _),
    finish_sets_eq h d (ofNat_div_two_pow x _), finish_sets_eq h d (ofInt_div_two_pow x _),
    finish_sets_eq h d (ofInt_upper_imm imm), finish_sets_eq h d ?_⟩
  · simp only [← getLsbD_imm, ofFnLE_and]; rfl
  · simp only [← getLsbD_imm, ofFnLE_or]; rfl
  · simp only [← getLsbD_imm, ofFnLE_xor]; rfl
  · rw [← hx]; exact (bitWord_slt x _).symm
  · rw [BitVec.ofInt_add, BitVec.ofInt_toInt, ofInt_upper_imm]

end Sys2Proof

/-! SUPPORT. Branches and jumps (04_scalar R99 to R101): the target that an offset gives, and how they end. -/

namespace Sys2Proof.Machine

/-- The target of a jump by a word offset (R99, R100). -/
theorem ofInt_word_offset {n : Nat} (hn : n ≤ 64) (pc : Word) (off : BitVec n) :
    BitVec.ofInt 64 (pc.toInt + 4 * off.toInt) = pc + off.signExtend 64 <<< 2 := by
  have h4 : BitVec.ofInt 64 4 = BitVec.twoPow 64 2 := rfl
  rw [← BitVec.mul_twoPow_eq_shiftLeft, BitVec.ofInt_add, BitVec.ofInt_mul, BitVec.ofInt_toInt, h4, BitVec.mul_comm,
    ← BitVec.toInt_signExtend_of_le hn (x := off), BitVec.ofInt_toInt]

/-- A branch ends at its target or at the next word. -/
theorem branch_ends {s : State} (h : s.Quiet) (off : BitVec 16) {taken : Bool} {c : Prop} [Decidable c] (hc : taken = true ↔ c) :
    Ends s (branch taken off s) (if c then BitVec.ofInt 64 (s.hart.pc.toInt + 4 * off.toInt) else s.nextPc) id := by
  unfold branch
  by_cases ht : c
  · rw [if_pos ht, if_pos (hc.2 ht), ofInt_word_offset (by decide)]
    exact complete_ends s _ h
  · rw [if_neg ht, if_neg (mt hc.1 ht)]
    exact complete_ends s _ h

/-- A jump ends at its target, having written the link. -/
theorem link_sets {s : State} (h : s.Quiet) (d : BitVec 5) (pc : Word) :
    Sets s (.next ((s.wr d (s.hart.pc + 4)).complete pc)) pc d (s.hart.pc + 4) id := by
  have hq : (s.wr d (s.hart.pc + 4)).Quiet := h.modHart _ (by simpa using h.2)
  rw [State.complete_eq _ _ hq, State.wr, State.modHart_modHart]
  exact sets_of s pc d _ id rfl

end Sys2Proof.Machine

/-! The family 04_scalar: O13. -/

namespace Sys2Proof

open Machine

/-- Settles O13: each branch ends by its own comparison, and each jump with its link. -/
theorem branchesAndJumps : Obligations.BranchesAndJumps := by
  unfold Obligations.BranchesAndJumps
  intro s d a b off imm j h x y
  refine ⟨branch_ends h off (by simp [x, y]), branch_ends h off (by simp [x, y]), branch_ends h off (by simp [x, y, BitVec.slt]),
    branch_ends h off (by simp [x, y, BitVec.slt]), branch_ends h off (by simp [x, y, BitVec.ult]),
    branch_ends h off (by simp [x, y, BitVec.ult]), ?_, ?_⟩
  · rw [ofInt_word_offset (by decide)]
    exact link_sets h d _
  · rw [ofInt_toInt_add_imm]
    refine ⟨fun ht => ?_, fun ht hcalm => ?_⟩
    · have e : exec (.jalr d a imm) s = .next ((s.wr d (s.hart.pc + 4)).complete (x + imm.signExtend 64)) :=
        if_neg (not_not.2 ht)
      rw [e]
      exact link_sets h d _
    · have e : exec (.jalr d a imm) s = trap 0x08 (x + imm.signExtend 64) s := if_pos ht
      rw [e]
      exact trap_traps s _ _ hcalm

end Sys2Proof

/-! SUPPORT. A debug step that ends in a halt while a word of the vector queue has begun (14_system R316, R333): the halt
completes the word first. -/

namespace Sys2Proof

open Machine

/-- A hart with two rows in its inbox and an RRECV of both at the head of its vector queue, with its count for s9. -/
def rowsToTake : State :=
  (State.reset.modHart fun k => { k with
    cfg := { k.cfg with vl := 2 }, lmsize := 8192, inbox := { head := 0, count := 2, w := 1, cap := 2, base := 0 } }).withFetchWord 64
      ((encode64 (.rrecv false 2 4 9 0)).getD 0).toNat
/-- The same under a debug step, the RRECV having taken the grant of its first row (05_harts R127). -/
def stepAmidRows : State :=
  match exec (.convoyDispatch 0) rowsToTake with
  | .next t => t.modHart fun k => { k with dbgStep := true }
  | _ => rowsToTake

/-- The RRECV has begun, and has not written its count. -/
theorem stepAmidRows_begun : stepAmidRows.hart.sequencing = true ∧ stepAmidRows.rd 9 = 0 ∧ stepAmidRows.rd 1 = 0 := by
  decide +kernel

/-- What a register reads as after an instruction that answers a next state. -/
def rdAfter (o : Machine.Out) (r : BitVec 5) : Option Word :=
  match o with
  | .next t => some (t.rd r)
  | _ => none

/-- The word of OP 6 with d = 3, a = 1 and imm16 = 0. -/
theorem shli_decodes : decode32 ((6 : BitVec 6) ++ (3 : BitVec 5) ++ (1 : BitVec 5) ++ (0 : BitVec 16)) = .ok (.shli 3 1 0) := by
  decide +kernel

/-- A DIV that names other registers completes, and the halt behind it writes the count of the RRECV. -/
theorem div_amid_rows : rdAfter (exec (.div 3 1 1) stepAmidRows) 9 = some 2 := by decide +kernel
theorem shli_amid_rows : rdAfter (exec (.shli 3 1 0) stepAmidRows) 9 = some 2 := by decide +kernel

/-- An outcome in which s9 is as it was is not one that writes it. -/
theorem count_written {o : Machine.Out} {t : State} (ho : rdAfter o 9 = some 2) (ht : o = .next t) :
    t.rd 9 ≠ stepAmidRows.rd 9 := by
  subst ht
  rw [show t.rd 9 = 2 from Option.some.inj ho, stepAmidRows_begun.2.1]
  decide

end Sys2Proof

/-! The family 04_scalar: O9 and O11. -/

namespace Sys2Proof

open Machine

/-- Refutes O11: of every state the statement says that the registers but s[d] are as before, but under a debug step the halt
that follows the division completes an RRECV that has begun, which writes its count. -/
theorem not_divisionNeverTraps : ¬ Obligations.DivisionNeverTraps := by
  unfold Obligations.DivisionNeverTraps
  intro h
  obtain ⟨⟨t, ht, hr, -⟩, -⟩ := (h stepAmidRows 3 1 1).1 stepAmidRows_begun.2.2
  exact count_written div_amid_rows ht (hr 9)

/-- Refutes O9: of every state the statement says that no other register changes, but under a debug step the halt that follows
SHLI completes an RRECV that has begun, which writes its count. -/
theorem not_shiftsByImmediateAndUppers : ¬ Obligations.ShiftsByImmediateAndUppers := by
  unfold Obligations.ShiftsByImmediateAndUppers
  intro h
  obtain ⟨i, t, hi, ht, hr, -⟩ := (h stepAmidRows 3 1 0).1 rfl
  obtain rfl : Instr.shli 3 1 0 = i := Except.ok.inj (shli_decodes.symm.trans hi)
  exact count_written shli_amid_rows ht (hr 9)

end Sys2Proof

/-! The family 04_scalar: O25. The bits of a CSR that its mask leaves out. -/

namespace Sys2Proof

open Machine

/-- What a CSR of hart 0 of core 0 reads as after an instruction that answers a next state. -/
def csrAfter (o : Machine.Out) (n : Nat) : Option Word :=
  match o with
  | .next t => some (t.csr 0 0 n)
  | _ => none

/-- A hart at system level whose VTPC holds a bit below bit 3. -/
def unalignedVtpc : State := State.reset.modHart fun k => { k with
  trap := { k.trap with system := true }, vec := { k.vec with vtpc := 1 } }

/-- The statement's rule keeps that bit where 0 is written. -/
theorem unalignedVtpc_taken : unalignedVtpc.csrTaken 0x01E (unalignedVtpc.csr 0 0 0x01E) (unalignedVtpc.rd 0) = 1 := by
  decide +kernel

/-- VTPC is 0 after CSRW of 0. -/
theorem unalignedVtpc_csrw : csrAfter (exec (.csrw 0 0 0x01E) unalignedVtpc) 0x01E = some 0 := by decide +kernel

/-- Refutes O25: of a CSR with a plain mask the statement keeps the bits of the old value that the mask leaves out, in every
state, but a write of VTPC clears them, as one of STVEC or PTROOT does. The case is a state that holds such a bit; every write
of these registers in the model masks it. -/
theorem not_csrReadAndWrite : ¬ Obligations.CsrReadAndWrite := by
  unfold Obligations.CsrReadAndWrite
  rintro ⟨h, -⟩
  have hw : ∀ b, unalignedVtpc.hart.wait ≠ .csr b := fun b => by
    rw [show unalignedVtpc.hart.wait = .none by decide +kernel]
    exact SWait.noConfusion
  obtain ⟨-, h⟩ := h unalignedVtpc 0 0 0x01E ⟨by decide +kernel, by decide +kernel⟩ hw (.inr (by decide +kernel))
  obtain ⟨⟨t, ht, -, -, hv, -⟩, -⟩ := h (by decide +kernel) (by decide +kernel)
  have h0 := unalignedVtpc_csrw
  rw [ht] at h0
  have h1 : t.csr 0 0 0x01E = 1 := hv.trans unalignedVtpc_taken
  rw [csrAfter, h1] at h0
  exact absurd h0 (by decide)

end Sys2Proof

/-! SUPPORT. The checks of scalar accesses (04_scalar R97), and CSR access by level (R103). -/

namespace Sys2Proof.Machine

/-- A load that fails a check traps with the check's cause. -/
theorem load_fails {s : State} {n : Nat} {d a : BitVec 5} {imm : BitVec 16} {f : Failure} (hc : s.Calm)
    (h : s.checkScalar .load n (s.ea a imm) = .error f) (signed : Bool) : Traps s (load n signed d a imm s) f.1 f.2 := by
  unfold load
  dsimp only
  rw [h]
  exact trap_traps s _ _ hc

/-- A store that fails a check traps with the check's cause. -/
theorem store_fails {s : State} {n : Nat} {d a : BitVec 5} {imm : BitVec 16} {f : Failure} (hc : s.Calm)
    (h : s.checkScalar .put n (s.ea a imm) = .error f) : Traps s (store n d a imm s) f.1 f.2 := by
  unfold store
  dsimp only
  rw [h]
  exact trap_traps s _ _ hc

/-! ### What exec answers for the atomics and the CSR instructions -/

section
variable (s : State) (d a b : BitVec 5) (l acq rel : Bool) (sc : Scope) (n : BitVec 12)

theorem exec_amoAdd : exec (.amoAdd d a b l acq rel sc) s = amo (fun o v _ => some (o + v)) d a b l rel s := rfl
theorem exec_amoSwap : exec (.amoSwap d a b l acq rel sc) s = amo (fun _ v _ => some v) d a b l rel s := rfl
theorem exec_amoCas : exec (.amoCas d a b l acq rel sc) s = amo (fun o v e => if o = e then some v else none) d a b l rel s := rfl
theorem exec_amoAnd : exec (.amoAnd d a b l acq rel sc) s = amo (fun o v _ => some (o &&& v)) d a b l rel s := rfl
theorem exec_amoOr : exec (.amoOr d a b l acq rel sc) s = amo (fun o v _ => some (o ||| v)) d a b l rel s := rfl
theorem exec_amoMax : exec (.amoMax d a b l acq rel sc) s = amo (fun o v _ => some (if o.slt v then v else o)) d a b l rel s := rfl
theorem exec_amoMin : exec (.amoMin d a b l acq rel sc) s = amo (fun o v _ => some (if o.slt v then o else v)) d a b l rel s := rfl

theorem exec_csrr : exec (.csrr d a n) s = csrAccess false (fun _ => none) (.csrr d a n) d n.toNat s := rfl
theorem exec_csrw : exec (.csrw d a n) s = csrAccess true (fun _ => some (s.rd a)) (.csrw d a n) d n.toNat s := rfl
theorem exec_csrs : exec (.csrs d a n) s
    = csrAccess true (fun old => if s.rd a = 0 then none else some (old ||| s.rd a)) (.csrs d a n) d n.toNat s := rfl
theorem exec_csrc : exec (.csrc d a n) s
    = csrAccess true (fun old => if s.rd a = 0 then none else some (old &&& ~~~s.rd a)) (.csrc d a n) d n.toNat s := rfl

end

/-! ### Failed checks -/

/-- An AMO that fails a check traps with the check's cause. -/
theorem amo_fails {s : State} {d a b : BitVec 5} {l rel : Bool} {f : Failure} (hc : s.Calm)
    (h : s.checkScalar .amo (if l then 8 else 4) (s.rd a) = .error f) (g : Word → Word → Word → Option Word) :
    Traps s (amo g d a b l rel s) f.1 f.2 := by
  unfold amo
  dsimp only
  rw [h]
  exact trap_traps s _ _ hc

/-- Check 1: an address that is no multiple of the size (04_scalar R97). -/
theorem State.checkScalar_misaligned {s : State} {k : AccessKind} {n : Nat} {va : Word} (h : va.toNat % n ≠ 0) :
    s.checkScalar k n va = .error (0x08, va) := if_pos h

/-- An instruction that takes the cause of every failed check takes 0x08 at a misaligned address. -/
theorem fails_of {s : State} {k : AccessKind} {n : Nat} {va : Word} {o : Out}
    (h : ∀ f, s.checkScalar k n va = .error f → Traps s o f.1 f.2) :
    (va.toNat % n ≠ 0 → Traps s o 0x08 va) ∧ ∀ f, s.checkScalar k n va = .error f → Traps s o f.1 f.2 :=
  ⟨fun hm => h _ (State.checkScalar_misaligned hm), h⟩

/-- A CSR access without the level's permission takes cause 0x01 (04_scalar R103). -/
theorem csrAccess_refused {s : State} (hc : s.Calm) {writes : Bool} {n : Nat}
    (h : csrReads s.hart.trap.system n = false ∨ writes = true ∧ csrWrites s.hart.trap.system n = false)
    (f : Word → Option Word) (i : Instr) (d : BitVec 5) :
    Traps s (csrAccess writes f i d n s) 0x01 (((encode32 i).getD 0).setWidth 64) := by
  have hb : (!csrReads s.hart.trap.system n || (writes && !csrWrites s.hart.trap.system n)) = true := by
    rcases h with h | ⟨hw, h⟩ <;> simp [*]
  unfold csrAccess
  dsimp only
  rw [if_pos hb]
  exact trap_traps s _ _ hc

theorem inRanges_iff (l : List (Nat × Nat)) (n : Nat) : inRanges l n = true ↔ ∃ p ∈ l, p.1 ≤ n ∧ n ≤ p.2 := by
  simp [inRanges]

end Sys2Proof.Machine

/-! The family 04_scalar: O20 and O26. -/

namespace Sys2Proof

open Machine

/-- Settles O20: each access takes the cause of the check that fails. -/
theorem scalarAccessFaults : Obligations.ScalarAccessFaults := by
  unfold Obligations.ScalarAccessFaults
  intro s d a b imm l acq rel sc hc ea fails n
  have hamo {i : Instr} {g : Word → Word → Word → Option Word} (e : exec i s = amo g d a b l rel s) :
      fails i .amo n (s.rd a) := fails_of fun f h => by
    rw [e]
    exact amo_fails hc h g
  exact ⟨fails_of fun f h => load_fails hc h _, fails_of fun f h => load_fails hc h _, fails_of fun f h => load_fails hc h _,
    fails_of fun f h => load_fails hc h _, fails_of fun f h => load_fails hc h _,
    fails_of fun f h => store_fails hc h, fails_of fun f h => store_fails hc h, fails_of fun f h => store_fails hc h,
    fun f h => ⟨load_fails hc h _, load_fails hc h _⟩, fun f h => store_fails hc h,
    hamo (exec_amoAdd ..), hamo (exec_amoSwap ..), hamo (exec_amoCas ..), hamo (exec_amoAnd ..), hamo (exec_amoOr ..),
    hamo (exec_amoMax ..), hamo (exec_amoMin ..)⟩

/-- Settles O26: the refusal is one of the access that the four instructions share, and the table is that of the ranges. -/
theorem csrAccessByLevel : Obligations.CsrAccessByLevel := by
  unfold Obligations.CsrAccessByLevel
  refine ⟨fun s d a n hc => ?_, fun n => ?_⟩
  · rw [exec_csrr, exec_csrw, exec_csrs, exec_csrc]
    refine ⟨fun h => csrAccess_refused hc (.inl h) _ _ _, fun h => ?_⟩
    have h : csrReads s.hart.trap.system n.toNat = false ∨ true = true ∧ csrWrites s.hart.trap.system n.toNat = false :=
      h.imp id fun h => ⟨rfl, h⟩
    exact ⟨csrAccess_refused hc h _ _ _, csrAccess_refused hc h _ _ _, csrAccess_refused hc h _ _ _⟩
  · simp only [csrReads, csrWrites, Bool.or_eq_true, Bool.and_eq_true, inRanges_iff, List.mem_cons, List.not_mem_nil, or_false,
      exists_eq_or_imp, exists_eq_left, Bool.false_eq_true, false_and, true_and]
    refine ⟨?_, ?_, ?_, ?_⟩ <;> omega

end Sys2Proof

/-! SUPPORT. Scalar loads (04_scalar R96, R97): what a translation kept leaves of what a load reads, the extension of its
data, and how it ends. -/

namespace Sys2Proof.Machine

/-! ### What a kept translation leaves (08_memory R171) -/

theorem SameElse.sameButTlb {s t : State} (h : SameElse s t) : SameButTlb s t where
  harts := h.harts
  cores c := congrArg (fun y : Core => { y with tlb := [] }) (h.cores c)
  bytes := h.bytes
  rest := h.rest

section
variable {s t : State} (h : SameButTlb s t)
include h

theorem SameButTlb.cc : t.cc = s.cc := (congrArg State.cc h.rest :)
theorem SameButTlb.ch : t.ch = s.ch := (congrArg State.ch h.rest :)
theorem SameButTlb.mgr : t.mgr = s.mgr := (congrArg State.mgr h.rest :)
theorem SameButTlb.marks : t.marks = s.marks := (congrArg State.marks h.rest :)
theorem SameButTlb.latent : t.latent = s.latent := (congrArg State.latent h.rest :)
theorem SameButTlb.lm (c : Nat) : (t.coreAt c).lm = (s.coreAt c).lm := (congrArg Core.lm (h.cores c) :)
theorem SameButTlb.lmMarks (c : Nat) : (t.coreAt c).lmMarks = (s.coreAt c).lmMarks := (congrArg Core.lmMarks (h.cores c) :)
theorem SameButTlb.lmLatent (c : Nat) : (t.coreAt c).lmLatent = (s.coreAt c).lmLatent := (congrArg Core.lmLatent (h.cores c) :)

theorem SameButTlb.marked (a : Loc) : t.marked a = s.marked a := by
  cases a with
  | mem pa => simp only [State.marked, h.marks]
  | lm c b => simp only [State.marked, h.lmMarks]
  | reg n off => rfl

theorem SameButTlb.hasError (a : Loc) : t.hasError a = s.hasError a := by
  cases a with
  | mem pa => simp only [State.hasError, h.latent]
  | lm c b => simp only [State.hasError, h.lmLatent]
  | reg n off => rfl

theorem SameButTlb.readLoc (a : Loc) (n : Nat) : t.readLoc a n = s.readLoc a n := by
  induction n generalizing a with
  | zero => rfl
  | succ n ih =>
    cases a with
    | mem pa => simp only [State.readLoc, ih, h.bytes]
    | lm c b => simp only [State.readLoc, ih, Core.lmByte, Core.lmWord, h.lm]
    | reg m off => rfl

end

theorem SameButTlb.trans {s t u : State} (hst : SameButTlb s t) (htu : SameButTlb t u) : SameButTlb s u where
  harts c h n := (htu.harts c h (by rwa [hst.cc, hst.ch])).trans (hst.harts c h n)
  cores c := (htu.cores c).trans (hst.cores c)
  bytes a := (htu.bytes a).trans (hst.bytes a)
  rest := htu.rest.trans hst.rest

/-- A change of a core's cached translations changes nothing else. -/
theorem State.sameButTlb_modCoreAt (s : State) (c : Nat) (f : Core → Core)
    (h : { f (s.coreAt c) with tlb := [] } = { s.coreAt c with tlb := [] }) : SameButTlb s (s.modCoreAt c f) where
  harts i j n := by
    have hh : (f (s.coreAt c)).harts = (s.coreAt c).harts := (congrArg Core.harts h :)
    unfold State.hartAt Core.hartAt
    by_cases hi : i = c
    · subst hi
      rw [State.coreAt_modCoreAt_same, hh]
    · rw [State.coreAt_modCoreAt_ne _ _ _ _ hi]
  cores i := by
    by_cases hi : i = c
    · subst hi
      rw [State.coreAt_modCoreAt_same]
      exact congrArg (fun y : Core => { y with harts := [] }) h
    · rw [State.coreAt_modCoreAt_ne _ _ _ _ hi]
  bytes a := rfl
  rest := rfl

theorem State.sameButTlb_touch (s : State) (c : Nat) (k : Hart) (va : Word) : SameButTlb s (s.touch c k va) := by
  rcases s.touch_cases c k va with e | ⟨l, -, -, e⟩ <;> rw [e]
  · exact (SameElse.refl s).sameButTlb
  · exact s.sameButTlb_modCoreAt c _ rfl

theorem SameButTlb.quiet {s t : State} (h : SameButTlb s t) (hq : s.Quiet) (hd : t.hart.dbgStep = false) : t.Quiet :=
  ⟨by rw [h.mgr, h.cc, h.ch]; exact hq.1, hd⟩

/-! ### The extension of loaded data (R96) -/

theorem State.readLoc_lt (s : State) (a : Loc) (n : Nat) : s.readLoc a n < 256 ^ n := by
  induction n generalizing a with
  | zero => exact Nat.one_pos
  | succ n ih =>
    cases a with
    | mem pa =>
      have := ih (.mem (pa + 1))
      have := (s.byte pa).isLt
      simp only [State.readLoc, pow_succ]
      omega
    | lm c b =>
      have := ih (.lm c (b + 1))
      have := ((s.coreAt c).lmByte b).isLt
      simp only [State.readLoc, pow_succ]
      omega
    | reg m off => exact Nat.pow_pos (by decide)

/-- The low bits of a word shifted up and back down arithmetically are extended by their sign. -/
theorem sshiftRight_shiftLeft_ofNat {w : Nat} (h0 : 0 < w) (h : w ≤ 64) (v : Nat) :
    (BitVec.ofNat 64 v <<< (64 - w)).sshiftRight (64 - w) = (BitVec.ofNat w v).signExtend 64 := by
  ext i hi
  rw [BitVec.getElem_sshiftRight, BitVec.getElem_signExtend]
  by_cases hw : i < w
  · rw [dif_pos (by omega), dif_pos hw, ← BitVec.getLsbD_eq_getElem, ← BitVec.getLsbD_eq_getElem, BitVec.getLsbD_shiftLeft,
      BitVec.getLsbD_ofNat, BitVec.getLsbD_ofNat]
    simp [hw, hi, show 64 - w + i < 64 by omega]
  · simp only [show ¬ 64 - w + i < 64 by omega, hw, dite_false, BitVec.msb_eq_getLsbD_last, BitVec.getLsbD_shiftLeft,
      BitVec.getLsbD_ofNat]
    simp [show 63 - (64 - w) = w - 1 by omega, show w - 1 < w by omega, show w - 1 < 64 by omega]
    omega

theorem extendLoad_signed {n : Nat} (h0 : 0 < n) (h : n ≤ 8) (v : Nat) :
    extendLoad n true v = (BitVec.ofNat (8 * n) v).signExtend 64 := sshiftRight_shiftLeft_ofNat (by omega) (by omega) v

theorem extendLoad_unsigned {n v : Nat} (hv : v < 256 ^ n) : extendLoad n false v = (BitVec.ofNat (8 * n) v).setWidth 64 := by
  apply BitVec.eq_of_toNat_eq
  rw [BitVec.toNat_setWidth, BitVec.toNat_ofNat, Nat.mod_eq_of_lt (a := v) (by rwa [pow_mul])]
  rfl

/-! ### How a load ends -/

/-- A load that passes its checks waits for its data (R97). -/
theorem load_issues {s : State} {n : Nat} {d a : BitVec 5} {imm : BitVec 16} {p : Part}
    (h : s.checkScalar .load n (s.ea a imm) = .ok p) (signed : Bool) : load n signed d a imm s
      = .next ((s.touch s.cc s.hart (s.ea a imm)).modHart fun k =>
          { k with wait := .load { d := d, n := n, signed := signed, ea := s.ea a imm, loc := p.loc } }) := by
  unfold load
  dsimp only
  rw [h]

theorem State.forwarded_empty {s : State} (h : s.hart.sbuf = []) : s.forwarded = s := by
  rw [State.forwarded, h]
  rfl

/-- A load of a register of the block, once no store is buffered (R98). -/
theorem loadData_reg {s : State} {r : LoadReq} (hw : s.hart.wait = .load r) {n : BitVec 6} {off : Nat} (hl : r.loc = .reg n off)
    (hb : s.hart.sbuf = []) :
    execScalarLoadData s = finish r.d (extendLoad r.n r.signed (s.readReg n.toNat off r.n)) s := by
  unfold execScalarLoadData
  simp only [hw, hl, Loc.isReg, hb, List.isEmpty_nil, if_true]

/-- A load of any other place, while no store to a register is buffered: the mark, the error, or the data as the hart's own
buffered stores leave them (R97). -/
theorem loadData_place {s : State} {r : LoadReq} (hw : s.hart.wait = .load r) (hl : r.loc.isReg = false)
    (hb : ∀ b ∈ s.hart.sbuf, b.loc.isReg = false) : execScalarLoadData s
      = if s.forwarded.marked r.loc then trap 0x19 r.ea s
        else if s.forwarded.hasError r.loc then trap 0x1A r.ea (s.mark r.loc)
        else finish r.d (extendLoad r.n r.signed (s.forwarded.readLoc r.loc r.n)) s := by
  have hn : (s.hart.sbuf.any fun b => b.loc.isReg) = false := by
    rw [List.any_eq_false]
    exact fun b hm => by simp [hb b hm]
  unfold execScalarLoadData
  simp only [hw, hl, hn, Bool.false_eq_true, if_false]

/-- A load of sound data with no store buffered: the register takes the value, and only a translation may be kept besides. -/
theorem load_loadsAs {s : State} {n : Nat} {d a : BitVec 5} {imm : BitVec 16} {p : Part} (hq : s.Quiet) (hb : s.hart.sbuf = [])
    (hp : s.Sound p) (h : s.checkScalar .load n (s.ea a imm) = .ok p) (signed : Bool) :
    LoadsAs s (load n signed d a imm s) d (extendLoad n signed (s.readLoc p.loc n)) := by
  obtain ⟨hr, hm, he⟩ := hp
  let r : LoadReq := { d := d, n := n, signed := signed, ea := s.ea a imm, loc := p.loc }
  let t := (s.touch s.cc s.hart (s.ea a imm)).modHart fun k => { k with wait := .load r }
  have hk : t.hart = { s.hart with wait := .load r } := by simp [t]
  have hst : SameButTlb s t := (s.sameButTlb_touch s.cc s.hart (s.ea a imm)).trans (State.sameElse_modHart _ _).sameButTlb
  have htq : t.Quiet := hst.quiet hq (by rw [hk]; exact hq.2)
  have hd : execScalarLoadData t = finish d (extendLoad n signed (s.readLoc p.loc n)) t := by
    rw [loadData_place (r := r) (by rw [hk]) hr (by simp [hk, hb]), State.forwarded_empty (by simp [hk, hb]),
      hst.marked, hst.hasError, hst.readLoc, if_neg (by simp [r, hm]), if_neg (by simp [r, he])]
  obtain ⟨u, hu, htu, hrd, hhart⟩ := finish_sets t d (extendLoad n signed (s.readLoc p.loc n)) htq
  refine ⟨t, u, load_issues h signed, by simp [hk], by simp [hk], hd.trans hu, hst.trans htu.sameButTlb, fun x => ?_, ?_⟩
  · rw [hrd, show t.rd x = s.rd x by simp [State.rd, hk, Hart.rd]]
  · rw [hhart, State.nextPc, hk]
    rfl

/-! ### Marks -/

theorem mem_sadd (m : List Nat) (k w : Nat) : w ∈ sadd m k ↔ w = k ∨ w ∈ m := by
  induction m with
  | nil => simp [sadd]
  | cons j r ih =>
    unfold sadd
    split
    · simp
    · split
      · next h => simp [h]
      · simp only [List.mem_cons, ih]
        tauto

theorem smem_iff (m : List Nat) (k : Nat) : smem m k = true ↔ k ∈ m := by simp [smem]

/-- A mark changes no hart. -/
@[simp] theorem State.hart_mark (s : State) (a : Loc) : (s.mark a).hart = s.hart := by
  cases a with
  | mem pa => rfl
  | lm c b => exact s.hart_modCoreAt c _ rfl
  | reg n off => rfl

/-- A granule that was marked is marked, also where a walk leaves another mark. -/
theorem State.marked_markWalk_mark (s : State) {a : Loc} (ha : a.isReg = false) (c : Nat) (root : Word) (code : BitVec 8) (va : Word) :
    ((s.mark a).markWalk c root code va).marked a = true := by
  cases a with
  | mem pa =>
    have hm : lineOf pa ∈ (s.mark (.mem pa)).marks := (mem_sadd _ _ _).2 (.inl rfl)
    generalize s.mark (.mem pa) = t at hm ⊢
    refine (smem_iff _ _).2 ?_
    unfold State.markWalk
    split
    · exact hm
    · split
      · exact (mem_sadd _ _ _).2 (.inr hm)
      · exact hm
  | lm c' b =>
    rw [State.markWalk_eq]
    refine (smem_iff _ _).2 ?_
    change _ ∈ ((s.mark (.lm c' b)).coreAt c').lmMarks
    rw [State.mark, State.coreAt_modCoreAt_same]
    exact (mem_sadd _ _ _).2 (.inl rfl)
  | reg n off => cases ha

theorem SameElse.marked {s t : State} (h : SameElse s t) (a : Loc) : t.marked a = s.marked a := h.sameButTlb.marked a

end Sys2Proof.Machine

/-! The family 04_scalar: O16 and O17. -/

namespace Sys2Proof

open Machine

/-- Settles O16: every load ends as `load_loadsAs` says, and its value is the extension of the bytes read. -/
theorem loadsComplete : Obligations.LoadsComplete := by
  unfold Obligations.LoadsComplete
  intro s d a imm p hq hb hp ea reads
  have hea : ea = s.ea a imm := ofInt_toInt_add_imm (s.rd a) imm
  have hload (n : Nat) (signed : Bool) (h : s.checkScalar .load n ea = .ok p) :
      LoadsAs s (load n signed d a imm s) d (extendLoad n signed (s.readLoc p.loc n)) := load_loadsAs hq hb hp (hea ▸ h) signed
  have hs (n : Nat) (h0 : 0 < n) (h8 : n ≤ 8) (h : s.checkScalar .load n ea = .ok p) :
      LoadsAs s (load n true d a imm s) d ((BitVec.ofNat (8 * n) (s.readLoc p.loc n)).signExtend 64) := by
    rw [← extendLoad_signed h0 h8]
    exact hload n true h
  have hu (n : Nat) (h : s.checkScalar .load n ea = .ok p) :
      LoadsAs s (load n false d a imm s) d ((BitVec.ofNat (8 * n) (s.readLoc p.loc n)).setWidth 64) := by
    rw [← extendLoad_unsigned (s.readLoc_lt p.loc n)]
    exact hload n false h
  exact ⟨hload 8 false, hs 4 (by decide) (by decide), hu 4, hs 2 (by decide) (by decide), hu 2, hs 1 (by decide) (by decide), hu 1⟩

/-- Settles O17, by what the data are: a register's value, marked, in error, or the bytes as the buffered stores leave them. -/
theorem loadDataArrives : Obligations.LoadDataArrives := by
  unfold Obligations.LoadDataArrives
  intro s r hq hw
  refine ⟨fun n off hl hb => ?_, fun hl hb => ?_⟩
  · have hd : exec .scalarLoadData s = _ := loadData_reg hw hl hb
    exact hd ▸ finish_sets s _ _ hq
  · have hd : exec .scalarLoadData s = _ := loadData_place hw hl hb
    rw [hd]
    refine ⟨fun hm he => ?_, fun hc hm => ?_, fun hc hm he => ?_⟩
    · rw [hm, he]
      exact finish_sets s _ _ hq
    · rw [hm]
      exact trap_traps s _ _ hc
    · rw [hm, he]
      have hcm : (s.mark r.loc).Calm := by
        unfold State.Calm
        rwa [State.hart_mark]
      obtain ⟨t, ht, hst, hk⟩ := trap_traps (s.mark r.loc) 0x1A r.ea hcm
      refine ⟨t, ht, by rw [hk, State.hart_mark], ?_⟩
      rw [hst.marked]
      exact s.marked_markWalk_mark hl _ _ _ _

end Sys2Proof

/-! SUPPORT. Scalar stores entering the buffer (04_scalar R97, 08_memory R171): D set in a leaf, and how a store ends. -/

namespace Sys2Proof.Machine

/-! ### Every core changed alike -/

/-- A listing whose values all change as the value of an unlisted key does. -/
theorem mget_map {α β : Type} (d : α) (g : α → β) (m : List (Nat × α)) (k : Nat) :
    mget (g d) (m.map fun p => (p.1, g p.2)) k = g (mget d m k) := by
  induction m with
  | nil => rfl
  | cons p r ih =>
    simp only [List.map_cons, mget, ih]
    split <;> rfl

/-- The entries of a core's MMU for a leaf of this content with D set in them. -/
def Core.withDirty (leaf : Nat) (pte : Word) (y : Core) : Core :=
  { y with tlb := y.tlb.map fun e => if e.pteAt = leaf ∧ e.pte = pte then { e with pte := e.pte ||| 0x20 } else e }

/-! ### D set in a leaf (08_memory R171) -/

/-- D set in the leaf's byte, and in the cached translations of that content. -/
theorem State.setDirtyBit_eq {s : State} {leaf : Nat} (hd : (s.byte leaf).getLsbD 5 = false) (he : smem s.latent (lineOf leaf) = false) :
    s.setDirtyBit leaf = { s with
      mem := mput memDefault s.mem leaf (s.byte leaf ||| 0x20)
      cores := s.cores.map fun p => (p.1, p.2.withDirty leaf (BitVec.ofNat 64 (s.readMem leaf 8))) } := by
  unfold State.setDirtyBit
  simp only [hd, he, Bool.false_eq_true, if_false]
  rfl

/-- A leaf that has D already stays as it is. -/
theorem State.setDirtyBit_set {s : State} {leaf : Nat} (hd : (s.byte leaf).getLsbD 5 = true) : s.setDirtyBit leaf = s := if_pos hd

/-- In a line with an error that no mark records the line is marked in place of D (R174). -/
theorem State.setDirtyBit_error {s : State} {leaf : Nat} (hd : (s.byte leaf).getLsbD 5 = false)
    (he : smem s.latent (lineOf leaf) = true) : s.setDirtyBit leaf = s.markLine (lineOf leaf) := by
  unfold State.setDirtyBit
  simp only [hd, he, Bool.false_eq_true, if_false, if_true]

theorem SameButMem.refl (s : State) : SameButMem s s := ⟨fun _ _ _ => rfl, rfl⟩

section
variable {s t : State} (h : SameButMem s t)
include h

theorem SameButMem.cc : t.cc = s.cc := (congrArg State.cc h.rest :)
theorem SameButMem.ch : t.ch = s.ch := (congrArg State.ch h.rest :)
theorem SameButMem.mgr : t.mgr = s.mgr := (congrArg State.mgr h.rest :)

theorem SameButMem.quiet (hq : s.Quiet) (hd : t.hart.dbgStep = false) : t.Quiet :=
  ⟨by rw [h.mgr, h.cc, h.ch]; exact hq.1, hd⟩

end

theorem SameButMem.trans {s t u : State} (hst : SameButMem s t) (htu : SameButMem t u) : SameButMem s u where
  harts c h n := (htu.harts c h (by rwa [hst.cc, hst.ch])).trans (hst.harts c h n)
  rest := htu.rest.trans hst.rest

theorem SameButTlb.sameButMem {s t : State} (h : SameButTlb s t) : SameButMem s t where
  harts := h.harts
  rest := congrArg (fun u : State => { u with mem := [], dram := [], marks := [], latent := [] }) h.rest

/-- D can be set in a leaf: it is set already, or no error that no mark records stands in the way (R174). -/
def State.takesDirty (s : State) (leaf : Nat) : Bool := (s.byte leaf).getLsbD 5 || !smem s.latent (lineOf leaf)

/-- What setting D in a leaf leaves: every hart, all but memory and marks outside the cores, every other byte, and, but for the
line of a leaf that cannot be written, every mark and error. -/
structure DirtySet (s t : State) (leaf : Nat) : Prop where
  mem : SameButMem s t
  hart : t.hart = s.hart
  bytes : ∀ a, t.byte a = (if a = leaf ∧ s.takesDirty leaf = true then s.byte a ||| 0x20 else s.byte a)
  marks : s.takesDirty leaf = true → t.marks = s.marks ∧ t.latent = s.latent
  marked : s.takesDirty leaf = false → t.marked (.mem leaf) = true

/-- Setting a bit that is set changes nothing. -/
theorem or_dirty_of_set : ∀ b : Byte, b.getLsbD 5 = true → b ||| 0x20 = b := by decide

theorem State.hartAt_withDirty (s : State) (leaf : Nat) (pte : Word) (m : List Host.Cell) (c h : Nat) :
    ({ s with mem := m, cores := s.cores.map fun p => (p.1, p.2.withDirty leaf pte) } : State).hartAt c h = s.hartAt c h := by
  have e : mget Core.init (s.cores.map fun p => (p.1, p.2.withDirty leaf pte)) c = (s.coreAt c).withDirty leaf pte :=
    mget_map Core.init (Core.withDirty leaf pte) s.cores c
  unfold State.hartAt State.coreAt Core.hartAt
  dsimp only
  rw [e]
  rfl

theorem State.dirtySet_setDirtyBit (s : State) (leaf : Nat) : DirtySet s (s.setDirtyBit leaf) leaf := by
  cases hd : (s.byte leaf).getLsbD 5 with
  | true =>
    have ht : s.takesDirty leaf = true := by rw [State.takesDirty, hd, Bool.true_or]
    rw [State.setDirtyBit_set hd]
    refine ⟨.refl s, rfl, fun a => ?_, fun _ => ⟨rfl, rfl⟩, fun h => absurd (ht.symm.trans h) (by decide)⟩
    split
    · next h => rw [h.1, or_dirty_of_set _ hd]
    · rfl
  | false =>
    cases he : smem s.latent (lineOf leaf) with
    | true =>
      have ht : s.takesDirty leaf = false := by rw [State.takesDirty, hd, he]; rfl
      rw [State.setDirtyBit_error hd he]
      refine ⟨⟨fun _ _ _ => rfl, rfl⟩, rfl, fun a => ?_, fun h => absurd (ht.symm.trans h) (by decide),
        fun _ => (smem_iff _ _).2 ((mem_sadd _ _ _).2 (.inl rfl))⟩
      rw [ht, if_neg (by simp)]
      rfl
    | false =>
      have ht : s.takesDirty leaf = true := by rw [State.takesDirty, hd, he]; rfl
      rw [State.setDirtyBit_eq hd he]
      refine ⟨⟨fun c h _ => s.hartAt_withDirty leaf _ _ c h, rfl⟩, s.hartAt_withDirty leaf _ _ s.cc s.ch, fun a => ?_,
        fun _ => ⟨rfl, rfl⟩, fun h => absurd (ht.symm.trans h) (by decide)⟩
      by_cases ha : a = leaf
      · subst ha
        rw [if_pos ⟨rfl, ht⟩]
        exact mget_mput_same _ _ _ _
      · rw [if_neg fun h => ha h.1]
        exact mget_mput_ne _ _ _ _ _ ha

/-- D set for one part: nothing where the part has no translation, or one with D set. -/
theorem State.setDirty_one (s : State) (p : Part) : s.setDirty [p]
    = match p.tr with
      | some t => if t.d then s else s.setDirtyBit t.leaf
      | none => s := rfl

/-- A part whose D is to be set, and whose leaf takes it or not. -/
theorem State.dirtyFails_eq (s : State) (p : Part) : s.dirtyFails p = p.tr.any fun t => !t.d && !s.takesDirty t.leaf := by
  simp only [State.dirtyFails, State.takesDirty, Bool.not_or, Bool.not_not, Bool.and_assoc]
  rfl

/-- Without D to set no byte is dirtied. -/
theorem State.dirtied_clean {s : State} {p : Part} (h : p.dirties = false) (a : Nat) : s.dirtied p a = s.byte a :=
  if_neg fun hc => by
    obtain ⟨-, hd, -⟩ := hc
    exact absurd (h.symm.trans hd) (by decide)

/-- What setting D for the part of a store leaves. -/
theorem State.setDirty_part (s : State) (p : Part) : SameButMem s (s.setDirty [p]) ∧ (s.setDirty [p]).hart = s.hart
    ∧ (∀ a, (s.setDirty [p]).byte a = s.dirtied p a)
    ∧ (s.dirtyFails p = false → (s.setDirty [p]).marks = s.marks ∧ (s.setDirty [p]).latent = s.latent)
    ∧ ∀ q, s.dirtyFails p = true → p.tr = some q → (s.setDirty [p]).marked (.mem q.leaf) = true := by
  rw [State.setDirty_one, State.dirtyFails_eq]
  cases htr : p.tr with
  | none =>
    exact ⟨.refl s, rfl, fun a => (State.dirtied_clean (by rw [Part.dirties, htr]; rfl) a).symm, fun _ => ⟨rfl, rfl⟩,
      fun q h => absurd h Bool.false_ne_true⟩
  | some t =>
    cases hd : t.d with
    | true =>
      simp only [Option.any_some, hd, Bool.not_true, Bool.false_and, if_true]
      exact ⟨.refl s, trivial, fun a => (State.dirtied_clean (by rw [Part.dirties, htr, Option.any_some, hd]; rfl) a).symm,
        fun _ => ⟨trivial, trivial⟩, fun q h => absurd h Bool.false_ne_true⟩
    | false =>
      obtain ⟨hm, hk, hb, hl, hn⟩ := s.dirtySet_setDirtyBit t.leaf
      simp only [Option.any_some, hd, Bool.not_false, Bool.true_and, Bool.false_eq_true, if_false, Bool.not_eq_true',
        Bool.not_eq_false']
      refine ⟨hm, hk, fun a => ?_, hl, fun q h hq => Option.some.inj hq ▸ hn h⟩
      rw [hb, State.dirtied, State.dirtyFails_eq]
      refine if_congr ?_ rfl rfl
      simp only [htr, Part.dirties, Option.map_some, Option.any_some, Option.some.injEq, hd, Bool.not_false, Bool.true_and,
        true_and, Bool.not_eq_false']
      exact and_congr_left' eq_comm

/-! ### How a store ends -/

/-- A store appended to the buffer. -/
def Hart.buffer (b : SBuf) (k : Hart) : Hart := { k with sbuf := k.sbuf ++ [b] }

/-- A store that passes its checks with a free entry (R97). -/
theorem store_enters {s : State} {n : Nat} {d a : BitVec 5} {imm : BitVec 16} {p : Part}
    (h : s.checkScalar .put n (s.ea a imm) = .ok p) (hf : s.hart.sbuf.length < 16) : store n d a imm s
      = .next (((s.touch s.cc s.hart (s.ea a imm)).setDirty [p]).modHart
          (Hart.buffer { loc := p.loc, cls := p.cls, n := n, data := s.rd d, step := s.hart.cfg.cstep })).advance := by
  unfold store
  dsimp only
  rw [h]
  exact if_neg (Nat.not_le.2 hf)

/-- An untraced instruction that changes the hart and goes on to the next word. -/
theorem State.advance_modHart {s : State} (hq : s.Quiet) {f : Hart → Hart} (hd : (f s.hart).dbgStep = false)
    (hp : (f s.hart).pc = s.hart.pc) : (s.modHart f).advance = s.modHart fun k => (f k).retire s.nextPc := by
  rw [State.advance, State.complete_eq _ _ (hq.modHart f hd), State.modHart_modHart, State.hart_modHart, hp]
  rfl

/-- A store that passes its checks with no free entry waits. -/
theorem store_waits {s : State} {n : Nat} {d a : BitVec 5} {imm : BitVec 16} {p : Part}
    (h : s.checkScalar .put n (s.ea a imm) = .ok p) (hf : 16 ≤ s.hart.sbuf.length) : store n d a imm s = .next s := by
  unfold store
  dsimp only
  rw [h]
  exact if_pos hf

theorem SameButTlb.takesDirty {s t : State} (h : SameButTlb s t) (leaf : Nat) : t.takesDirty leaf = s.takesDirty leaf := by
  rw [State.takesDirty, State.takesDirty, h.bytes, h.latent]

theorem SameButTlb.dirtyFails {s t : State} (h : SameButTlb s t) (p : Part) : t.dirtyFails p = s.dirtyFails p := by
  simp only [State.dirtyFails_eq, h.takesDirty]

theorem SameButTlb.dirtied {s t : State} (h : SameButTlb s t) (p : Part) (a : Nat) : t.dirtied p a = s.dirtied p a := by
  simp only [State.dirtied, h.dirtyFails, h.bytes]

/-- A store that passes its checks sets D and enters the buffer, or waits for a free entry. -/
theorem store_buffers {s : State} {n : Nat} {d a : BitVec 5} {imm : BitVec 16} {p : Part} (hq : s.Quiet)
    (h : s.checkScalar .put n (s.ea a imm) = .ok p) :
    (s.hart.sbuf.length < 16 → ∃ t, store n d a imm s = .next t ∧ SameButMem s t ∧ (∀ x, t.byte x = s.dirtied p x)
      ∧ (s.dirtyFails p = false → t.marks = s.marks ∧ t.latent = s.latent)
      ∧ (∀ q, s.dirtyFails p = true → p.tr = some q → t.marked (.mem q.leaf) = true)
      ∧ t.hart = { s.hart.retire s.nextPc with
          sbuf := s.hart.sbuf ++ [{ loc := p.loc, cls := p.cls, n := n, data := s.rd d, step := s.hart.cfg.cstep }] })
    ∧ (16 ≤ s.hart.sbuf.length → store n d a imm s = .next s) := by
  refine ⟨fun hf => ?_, store_waits h⟩
  have htouch := s.sameButTlb_touch s.cc s.hart (s.ea a imm)
  obtain ⟨hm, hk, hb, hl, hn⟩ := (s.touch s.cc s.hart (s.ea a imm)).setDirty_part p
  rw [htouch.dirtyFails, htouch.marks, htouch.latent] at hl
  rw [htouch.dirtyFails] at hn
  rw [State.hart_touch] at hk
  rw [store_enters h hf]
  generalize (s.touch s.cc s.hart (s.ea a imm)).setDirty [p] = u at hm hk hb hl hn
  generalize ({ loc := p.loc, cls := p.cls, n := n, data := s.rd d, step := s.hart.cfg.cstep } : SBuf) = b
  have hsu : SameButMem s u := htouch.sameButMem.trans hm
  have huq : u.Quiet := hsu.quiet hq (by rw [hk]; exact hq.2)
  rw [State.advance_modHart huq (f := Hart.buffer b) huq.2 rfl]
  have hsame := u.sameElse_modHart fun k => (k.buffer b).retire u.nextPc
  refine ⟨_, rfl, hsu.trans hsame.sameButTlb.sameButMem, fun x => ?_, fun hdf => ?_, fun q hdf hpq => ?_, ?_⟩
  · rw [hsame.bytes, hb, htouch.dirtied]
  · rw [hsame.sameButTlb.marks, hsame.sameButTlb.latent]
    exact hl hdf
  · rw [hsame.marked]
    exact hn q hdf hpq
  · rw [State.hart_modHart, State.nextPc, hk]
    rfl

end Sys2Proof.Machine

/-! The family 04_scalar: O18. -/

namespace Sys2Proof

open Machine

/-- Settles O18: every store ends as `store_buffers` says. -/
theorem storesEnterTheBuffer : Obligations.StoresEnterTheBuffer := by
  unfold Obligations.StoresEnterTheBuffer
  intro s d a imm p hq ea puts
  have hea : ea = s.ea a imm := ofInt_toInt_add_imm (s.rd a) imm
  have hputs (n : Nat) (h : s.checkScalar .put n ea = .ok p) := store_buffers (d := d) hq (hea ▸ h)
  exact ⟨hputs 8, hputs 4, hputs 2, hputs 1⟩

end Sys2Proof

/-! SUPPORT. Whole bytes written to memory with no snapshot under way (04_scalar R97, 08_memory R174). -/

namespace Sys2Proof.Machine

/-! ### Bytes of a value -/

/-- Bytes each of which changes all its bits. -/
def wholeBytes (l : List Byte) : List (Byte × Byte) := l.map fun b => (b, 0xFF)

@[simp] theorem length_wholeBytes (l : List Byte) : (wholeBytes l).length = l.length := List.length_map _
theorem wholeBytes_take (l : List Byte) (n : Nat) : (wholeBytes l).take n = wholeBytes (l.take n) := List.map_take.symm

@[simp] theorem length_bytesOf (n v : Nat) : (bytesOf n v).length = n := by simp [bytesOf]

@[simp] theorem mixByte_whole (old v : Byte) : mixByte old v 0xFF = v := by
  rw [mixByte, show (0xFF : Byte) = BitVec.allOnes 8 from rfl]
  simp only [BitVec.not_allOnes, BitVec.and_zero, BitVec.zero_or, BitVec.and_allOnes]

/-- The bytes of the low end of a value are the value's. -/
theorem getD_bytesOf (v : Word) {n i : Nat} (h : i < n) : (bytesOf n (v.toNat % 256 ^ n)).getD i 0 = byteOf v i := by
  have he : (bytesOf n (v.toNat % 256 ^ n)).getD i 0 = BitVec.ofNat 8 ((v.toNat % 256 ^ n) >>> (8 * i)) := by
    simp [bytesOf, h]
  rw [he, byteOf]
  ext j hj
  rw [← BitVec.getLsbD_eq_getElem, ← BitVec.getLsbD_eq_getElem, BitVec.getLsbD_ofNat, BitVec.getLsbD_extractLsb',
    Nat.testBit_shiftRight, show (256 : Nat) ^ n = 2 ^ (8 * n) by rw [pow_mul]; rfl, Nat.testBit_mod_two_pow,
    decide_eq_true (show 8 * i + j < 8 * n by omega), Bool.true_and, BitVec.getLsbD]

/-- Bytes from an address on: what an address reads as where the bytes `l` lie from `pa` on, and `old` elsewhere. -/
def overlay (pa : Nat) (l : List Byte) (old : Nat → Byte) (a : Nat) : Byte :=
  if pa ≤ a ∧ a < pa + l.length then l.getD (a - pa) 0 else old a

@[simp] theorem overlay_nil (pa : Nat) (old : Nat → Byte) (a : Nat) : overlay pa [] old a = old a :=
  if_neg (by simp)

/-- The first byte written and then the rest is all of them written. -/
theorem overlay_cons (pa : Nat) (b : Byte) (l : List Byte) (old old' : Nat → Byte)
    (h : ∀ a, old' a = if a = pa then b else old a) (a : Nat) : overlay (pa + 1) l old' a = overlay pa (b :: l) old a := by
  unfold overlay
  rw [List.length_cons, h]
  by_cases ha : a = pa
  · subst ha
    simp
  · by_cases hr : pa + 1 ≤ a ∧ a < pa + 1 + l.length
    · rw [if_pos hr, if_pos (by omega), show a - pa = a - (pa + 1) + 1 by omega, List.getD_cons_succ]
    · rw [if_neg hr, if_neg ha, if_neg (by omega)]

/-- The bytes of the low end of a value from an address on. -/
theorem overlay_bytesOf (pa n : Nat) (v : Word) (old : Nat → Byte) (a : Nat) :
    overlay pa (bytesOf n (v.toNat % 256 ^ n)) old a = if pa ≤ a ∧ a < pa + n then byteOf v (a - pa) else old a := by
  unfold overlay
  rw [length_bytesOf]
  split
  · exact getD_bytesOf v (by omega)
  · rfl

/-! ### Memory with no snapshot under way (13_collective R307) -/

theorem mget_mem_or {α : Type} (d : α) (m : List (Nat × α)) (k : Nat) : mget d m k = d ∨ ∃ p ∈ m, p.2 = mget d m k := by
  induction m with
  | nil => exact .inl rfl
  | cons p r ih =>
    obtain ⟨j, w⟩ := p
    rw [mget]
    split
    · exact .inr ⟨_, List.mem_cons_self, rfl⟩
    · exact ih.imp id fun ⟨p, hp, e⟩ => ⟨p, List.mem_cons_of_mem _ hp, e⟩

/-- Every tenancy's Propolis is in no state that notes stores. -/
theorem State.NoSnapshot.tenAt {s : State} (h : s.NoSnapshot) (n : Nat) :
    ¬ ((s.tenAt n).prop.st = 1 ∨ (s.tenAt n).prop.st = 2 ∨ (s.tenAt n).prop.st = 3) := by
  unfold State.tenAt
  rcases mget_mem_or Ten.init s.tens n with e | ⟨p, hp, e⟩
  · rw [e]
    decide
  · obtain ⟨h1, h2, h3, -⟩ := h p hp
    rw [← e]
    rintro (h | h | h)
    · exact h1 h
    · exact h2 h
    · exact h3 h

theorem State.beforeStore_none {s : State} (h : s.NoSnapshot) (step : Option Word) (pa : Nat) (v m : Byte) :
    s.beforeStore step pa v m = s := by
  unfold State.beforeStore
  generalize s.tens = l
  induction l with
  | nil => rfl
  | cons p r ih =>
    rw [List.foldl_cons]
    dsimp only
    rw [if_neg (h.tenAt p.1)]
    exact ih

/-- Nothing but memory and DRAM changes. -/
def MemOnly (s t : State) : Prop := t = { s with mem := t.mem, dram := t.dram }

theorem MemOnly.refl (s : State) : MemOnly s s := rfl
theorem MemOnly.trans {s t u : State} (hst : MemOnly s t) (htu : MemOnly t u) : MemOnly s u := by
  unfold MemOnly at *
  rw [htu, hst]

section
variable {s t : State} (h : MemOnly s t)
include h

theorem MemOnly.marks : t.marks = s.marks := by rw [h]
theorem MemOnly.latent : t.latent = s.latent := by rw [h]
theorem MemOnly.hart : t.hart = s.hart := by rw [h]; rfl
theorem MemOnly.noSnapshot (hs : s.NoSnapshot) : t.NoSnapshot := by
  unfold State.NoSnapshot
  rw [h]
  exact hs
theorem MemOnly.sameButMem : SameButMem s t := by
  rw [h]
  exact ⟨fun _ _ _ => rfl, rfl⟩

end

theorem State.putBytes_append (s : State) (ctx : StoreCtx) (pa : Nat) (l r : List (Byte × Byte)) :
    s.putBytes ctx pa (l ++ r) = (s.putBytes ctx pa l).putBytes ctx (pa + l.length) r := by
  induction l generalizing s pa with
  | nil => rfl
  | cons b l ih =>
    simp only [List.cons_append, State.putBytes, ih, List.length_cons]
    rw [show pa + 1 + l.length = pa + (l.length + 1) by omega]

/-- Whole bytes written one after another. -/
theorem State.putBytes_whole {s : State} (hs : s.NoSnapshot) (ctx : StoreCtx) (pa : Nat) (l : List Byte) :
    MemOnly s (s.putBytes ctx pa (wholeBytes l)) ∧ ∀ a, (s.putBytes ctx pa (wholeBytes l)).byte a = overlay pa l s.byte a := by
  induction l generalizing s pa with
  | nil => exact ⟨.refl s, fun a => (overlay_nil pa s.byte a).symm⟩
  | cons b l ih =>
    have he : s.putBytes ctx pa (wholeBytes (b :: l)) = (s.putByte ctx.through pa b).putBytes ctx (pa + 1) (wholeBytes l) := by
      simp only [wholeBytes, List.map_cons, State.putBytes, State.beforeStore_none hs, mixByte_whole]
    have hm : MemOnly s (s.putByte ctx.through pa b) := rfl
    obtain ⟨hm', hb⟩ := ih (hm.noSnapshot hs) (pa + 1)
    rw [he]
    refine ⟨hm.trans hm', fun a => (hb a).trans (overlay_cons pa b l _ _ (fun a => ?_) a)⟩
    split
    · next h => rw [h, State.byte_putByte_same]
    · next h => exact State.byte_putByte_ne _ _ _ _ _ h

/-- A write of whole bytes within two lines without an error that no mark records is its bytes written one after another. -/
theorem State.writeMem_whole {s : State} (hs : s.NoSnapshot) (ctx : StoreCtx) {pa : Nat} (l : List Byte)
    (h0 : smem s.latent (lineOf pa) = false) (h1 : smem s.latent (lineOf pa + 1) = false) :
    s.writeMem ctx pa (wholeBytes l) = s.putBytes ctx pa (wholeBytes l) := by
  cases l with
  | nil => rfl
  | cons b l =>
    generalize hn : 256 - pa % 256 = n
    generalize hl : b :: l = l'
    have hne : wholeBytes l' ≠ [] := by subst hl; exact List.cons_ne_nil _ _
    have hsplit : s.putBytes ctx pa (wholeBytes l')
        = (s.putBytes ctx pa ((wholeBytes l').take n)).putBytes ctx (pa + ((wholeBytes l').take n).length) ((wholeBytes l').drop n) := by
      rw [← State.putBytes_append, List.take_append_drop]
    have hlat : (s.putBytes ctx pa ((wholeBytes l').take n)).latent = s.latent := by
      rw [wholeBytes_take]
      exact (State.putBytes_whole hs ctx pa _).1.latent
    rw [State.writeMem]
    · simp only [hn, h0, Bool.false_eq_true, if_false]
      cases hd : (wholeBytes l').drop n with
      | nil => rw [hsplit, hd]; rfl
      | cons c r =>
        have hlen : n < (wholeBytes l').length := by
          by_contra hle
          rw [List.drop_eq_nil_of_le (by omega)] at hd
          cases hd
        simp only [hlat, h1, Bool.false_eq_true, if_false]
        rw [hsplit, hd, List.length_take, Nat.min_eq_left hlen.le]
    · exact hne

/-- An access of fewer bytes than a line covers no line. -/
theorem State.coveredLines_short (s : State) (loc : Loc) (n v : Nat) (h : n ≤ 8) : s.coveredLines [Acc.ofNat loc n v] = [] := by
  unfold State.coveredLines
  rw [List.filter_eq_nil_iff]
  intro l _ hall
  rw [List.all_eq_true] at hall
  have hlo := hall 0 (by simp)
  have hhi := hall 255 (by simp)
  cases loc with
  | mem pa =>
    simp only [List.flatMap_cons, List.flatMap_nil, List.append_nil, Acc.span, Acc.ofNat, List.length_map, length_bytesOf,
      List.contains_iff_mem, List.mem_map, List.mem_range] at hlo hhi
    omega
  | lm c a => simp [Acc.span, Acc.ofNat] at hlo
  | reg t o => simp [Acc.span, Acc.ofNat] at hlo

/-- A write access of at most 8 bytes alone. -/
theorem State.writeAll_short (s : State) (ctx : StoreCtx) (loc : Loc) {n : Nat} (v : Nat) (h : n ≤ 8) :
    s.writeAll ctx [Acc.ofNat loc n v] = s.write ctx (Acc.ofNat loc n v) := by
  unfold State.writeAll
  rw [State.coveredLines_short s loc n v h]
  rfl

end Sys2Proof.Machine

/-! SUPPORT. Whole bytes written to lane memory (08_memory R172, R174). -/

namespace Sys2Proof.Machine

/-! ### One byte of a lane-memory word -/

/-- A word with a byte replaced: that byte, and each of the others as it was. -/
theorem extractLsb'_replace (w : Word) (v : Byte) {q r : Nat} (hq : q < 8) (hr : r < 8) :
    (w &&& ~~~((0xFF : Word) <<< (8 * q)) ||| v.setWidth 64 <<< (8 * q)).extractLsb' (8 * r) 8
      = if r = q then v else w.extractLsb' (8 * r) 8 := by
  have hff (k : Nat) : (0xFF : Word).getLsbD k = decide (k < 8) := by
    rw [show (0xFF : Word) = (BitVec.allOnes 8).setWidth 64 from rfl, BitVec.getLsbD_setWidth, BitVec.getLsbD_allOnes]
    by_cases hk : k < 8
    · simp [hk, show k < 64 by omega]
    · simp [hk]
  ext j hj
  rw [← BitVec.getLsbD_eq_getElem, ← BitVec.getLsbD_eq_getElem, BitVec.getLsbD_extractLsb', BitVec.getLsbD_or, BitVec.getLsbD_and,
    BitVec.getLsbD_not, BitVec.getLsbD_shiftLeft, BitVec.getLsbD_shiftLeft, BitVec.getLsbD_setWidth, hff]
  have h64 : 8 * r + j < 64 := by omega
  by_cases h : r = q
  · subst h
    simp [hj, h64, show ¬ 8 * r + j < 8 * r by omega, show j < 64 by omega]
  · rcases Nat.lt_or_gt_of_ne h with hlt | hgt
    · simp [h, hj, h64, show 8 * r + j < 8 * q by omega]
    · have hv : v.getLsbD (8 * r + j - 8 * q) = false := BitVec.getLsbD_of_ge _ _ (by omega)
      simp [h, hj, h64, show ¬ 8 * r + j < 8 * q by omega, show ¬ 8 * r + j - 8 * q < 8 by omega, hv]

theorem Core.putLmByte_whole (x : Core) (a : Nat) (v : Byte) : x.putLmByte a v 0xFF
    = x.setLm (lmIndex a) (x.lmWord (lmIndex a) &&& ~~~((0xFF : Word) <<< (8 * (a % 8))) ||| v.setWidth 64 <<< (8 * (a % 8))) := by
  rw [Core.putLmByte, mixByte_whole]

/-- A byte of lane memory that was put reads as it, and every other as before. -/
theorem Core.lmByte_putLmByte (x : Core) (a b : Nat) (v : Byte) :
    (x.putLmByte a v 0xFF).lmByte b = if b = a then v else x.lmByte b := by
  rw [Core.putLmByte_whole]
  by_cases hi : lmIndex b = lmIndex a
  · have hw (w : Word) : (x.setLm (lmIndex a) w).lmWord (lmIndex b) = w := by
      rw [hi]
      exact mget_mput_same _ _ _ _
    have hb : b % 8 = a % 8 ↔ b = a := by
      unfold lmIndex at hi
      omega
    rw [Core.lmByte, hw, extractLsb'_replace _ _ (Nat.mod_lt _ (by decide)) (Nat.mod_lt _ (by decide)), Core.lmByte, hi]
    exact if_congr hb rfl rfl
  · have hw (w : Word) : (x.setLm (lmIndex a) w).lmWord (lmIndex b) = x.lmWord (lmIndex b) := mget_mput_ne _ _ _ _ _ hi
    rw [Core.lmByte, hw, if_neg fun e => hi (by rw [e])]
    rfl

/-! ### Bytes in order -/

/-- Nothing but the words of lane memory changes. -/
def LmOnly (x y : Core) : Prop := y = { x with lm := y.lm }

theorem Core.putLmBytes_append (x : Core) (a : Nat) (l r : List (Byte × Byte)) :
    x.putLmBytes a (l ++ r) = (x.putLmBytes a l).putLmBytes (a + l.length) r := by
  induction l generalizing x a with
  | nil => rfl
  | cons b l ih =>
    simp only [List.cons_append, Core.putLmBytes, ih, List.length_cons]
    rw [show a + 1 + l.length = a + (l.length + 1) by omega]

/-- Whole bytes of lane memory written one after another. -/
theorem Core.putLmBytes_whole (x : Core) (a : Nat) (l : List Byte) : LmOnly x (x.putLmBytes a (wholeBytes l))
    ∧ ∀ b, (x.putLmBytes a (wholeBytes l)).lmByte b = overlay a l x.lmByte b := by
  induction l generalizing x a with
  | nil => exact ⟨rfl, fun b => (overlay_nil a x.lmByte b).symm⟩
  | cons v l ih =>
    obtain ⟨hm, hb⟩ := ih (x.putLmByte a v 0xFF) (a + 1)
    refine ⟨?_, fun b => (hb b).trans (overlay_cons a v l _ _ (fun b => x.lmByte_putLmByte a b v) b)⟩
    exact hm

/-! ### A write of at most 8 bytes -/

/-- All eight bytes of a word are written, and its mark and its error go. -/
theorem Core.writeLm_aligned (x : Core) {a : Nat} {l : List Byte} (hl : l.length = 8) (ha : a % 8 = 0) :
    x.writeLm (wholeBytes l).length a (wholeBytes l) = (x.cleanLm (lmIndex a)).putLmBytes a (wholeBytes l) := by
  have hlen : (wholeBytes l).length = 8 := (length_wholeBytes l).trans hl
  obtain ⟨b, r, hbr⟩ : ∃ b r, wholeBytes l = b :: r := List.exists_cons_of_length_eq_add_one hlen
  have hall : ((wholeBytes l).all fun b => b.2 == 0xFF) = true := by simp [wholeBytes]
  rw [hlen, Core.writeLm]
  · simp only [ha, Nat.sub_zero]
    rw [List.take_of_length_le hlen.le, List.drop_eq_nil_of_le hlen.le, Core.writeLmWord, if_pos ⟨hlen, hall⟩]
    rfl
  · rw [hbr]
    exact List.cons_ne_nil _ _

/-- Part of a word without an error that no mark records: its bytes are written one after another. -/
theorem Core.writeLmWord_part (x : Core) {a : Nat} {bs : List (Byte × Byte)} (hl : bs.length ≠ 8)
    (he : smem x.lmLatent (lmIndex a) = false) : x.writeLmWord a bs = x.putLmBytes a bs := by
  rw [Core.writeLmWord, if_neg fun h => hl h.1, he]
  rfl

/-- Fewer bytes than a word from its start on. -/
theorem Core.writeLm_within (x : Core) {fuel a : Nat} {bs : List (Byte × Byte)} (hf : bs.length ≤ fuel) (hl : bs.length < 8)
    (hw : bs.length ≤ 8 - a % 8) (he : smem x.lmLatent (lmIndex a) = false) : x.writeLm fuel a bs = x.putLmBytes a bs := by
  cases fuel with
  | zero =>
    rw [List.eq_nil_of_length_eq_zero (by omega : bs.length = 0)]
    rfl
  | succ fuel =>
    cases bs with
    | nil => rfl
    | cons b r =>
      rw [Core.writeLm]
      · rw [List.take_of_length_le hw, List.drop_eq_nil_of_le hw, x.writeLmWord_part (by omega) he]
        cases fuel <;> rfl
      · exact List.cons_ne_nil _ _

/-- A write of at most 8 bytes that is no whole word, in words without an error that no mark records. -/
theorem Core.writeLm_part (x : Core) {a : Nat} {l : List Byte} (hl : l.length ≤ 8) (hp : ¬ (l.length = 8 ∧ a % 8 = 0))
    (h0 : smem x.lmLatent (lmIndex a) = false) (h1 : smem x.lmLatent (lmIndex a + 1) = false) :
    x.writeLm (wholeBytes l).length a (wholeBytes l) = x.putLmBytes a (wholeBytes l) := by
  have hlen := length_wholeBytes l
  by_cases hw : (wholeBytes l).length ≤ 8 - a % 8
  · exact x.writeLm_within le_rfl (by omega) hw h0
  · generalize hn : 8 - a % 8 = n at hw
    have hsplit : wholeBytes l = (wholeBytes l).take n ++ (wholeBytes l).drop n := (List.take_append_drop _ _).symm
    have htake : ((wholeBytes l).take n).length = n := by rw [List.length_take]; omega
    have hlat : (x.putLmBytes a ((wholeBytes l).take n)).lmLatent = x.lmLatent := by
      rw [wholeBytes_take, (x.putLmBytes_whole a (l.take n)).1]
    have hi : lmIndex (a + n) = lmIndex a + 1 := by
      unfold lmIndex
      omega
    obtain ⟨b, r, hbr⟩ : ∃ b r, wholeBytes l = b :: r := List.exists_cons_of_length_pos (by omega)
    obtain ⟨k, hk⟩ : ∃ k, (wholeBytes l).length = k + 1 := ⟨(wholeBytes l).length - 1, by omega⟩
    rw [hk, Core.writeLm]
    · rw [hn, x.writeLmWord_part (by omega) h0,
        Core.writeLm_within _ (by rw [List.length_drop]; omega) (by rw [List.length_drop]; omega)
          (by rw [List.length_drop]; omega) (by rw [hlat, hi]; exact h1)]
      conv_rhs => rw [hsplit, Core.putLmBytes_append, htake]
    · rw [hbr]
      exact List.cons_ne_nil _ _

end Sys2Proof.Machine

/-! SUPPORT. A register of a tenancy's block written whole (15_device R338). -/

namespace Sys2Proof.Machine

/-! ### A tenancy changed -/

@[simp] theorem State.tenAt_modTenAt_same (s : State) (n : Nat) (f : Ten → Ten) : (s.modTenAt n f).tenAt n = f (s.tenAt n) :=
  mget_mset_same _ _ _ _

theorem State.tenAt_modTenAt_ne (s : State) (n m : Nat) (f : Ten → Ten) (h : m ≠ n) : (s.modTenAt n f).tenAt m = s.tenAt m :=
  mget_mset_ne _ _ _ _ _ h

/-- A register of another tenancy's block stays. -/
theorem State.tenReg_modTenAt_ne (s : State) (n m o : Nat) (f : Ten → Ten) (h : m ≠ n) :
    (s.modTenAt n f).tenReg m o = s.tenReg m o := by
  unfold State.tenReg
  rw [State.tenAt_modTenAt_ne s n m f h]
  rfl

/-- TRAPVEC, INTMASK and PDEST of a tenancy set. -/
def Ten.setThree (x : Ten) (trapvec intmask pdest : Word) : Ten :=
  { x with trapvec := trapvec, intmask := intmask, prop := { x.prop with pdest := pdest } }

/-- Of the block only these three registers change. -/
theorem State.tenReg_setThree (s : State) (n o : Nat) (a b c : Word) :
    (s.modTenAt n fun x => x.setThree a b c).tenReg n o
      = if o = 0x88 then a else if o = 0x98 then b else if o = 0x210 then c else s.tenReg n o := by
  by_cases h : o = 0x88 ∨ o = 0x98 ∨ o = 0x210
  · rcases h with rfl | rfl | rfl <;> simp [State.tenReg, Ten.setThree]
  · simp only [not_or] at h
    obtain ⟨h1, h2, h3⟩ := h
    rw [if_neg h1, if_neg h2, if_neg h3]
    unfold State.tenReg
    rw [State.tenAt_modTenAt_same]
    dsimp only
    split
    · rfl
    · split
      · rfl
      · split
        case h_2 => exact absurd rfl h1
        case h_4 => exact absurd rfl h2
        case h_10 => exact absurd rfl h3
        all_goals rfl

/-- All eight bytes of a register replaced. -/
@[simp] theorem mergeBytes_whole (old v : Word) : mergeBytes old 0 8 v = v := by
  have h : BitVec.ofNat 64 ((2 ^ (8 * 8) - 1) <<< (8 * 0)) = BitVec.allOnes 64 := rfl
  unfold mergeBytes
  dsimp only
  rw [h, BitVec.not_allOnes, BitVec.and_zero, BitVec.zero_or, BitVec.and_allOnes]
  exact BitVec.shiftLeft_zero v

/-- What TRAPVEC, INTMASK and PDEST keep of a write of 8 bytes. -/
def regKept (off : Nat) (v : Word) : Word :=
  if off = 0x88 then v &&& ~~~3 else if off = 0x98 then v else v &&& ~~~0xFFFF

/-- A write of 8 bytes to TRAPVEC, INTMASK or PDEST changes that tenancy alone, and sets that register alone. -/
theorem State.writeReg_whole (s : State) (n : Nat) {off : Nat} (h : off ∈ [0x88, 0x98, 0x210]) (v : Word) :
    ∃ f, s.writeReg n off 8 v = s.modTenAt n f
      ∧ ∀ m o, (s.modTenAt n f).tenReg m o = if m = n ∧ o = off then regKept off v else s.tenReg m o := by
  generalize hx : s.tenAt n = x
  have hreg (a b c : Word) (h1 : s.writeReg n off 8 v = s.modTenAt n fun x => x.setThree a b c)
      (h2 : ∀ o, (if o = 0x88 then a else if o = 0x98 then b else if o = 0x210 then c else s.tenReg n o)
        = if o = off then regKept off v else s.tenReg n o) :
      ∃ f, s.writeReg n off 8 v = s.modTenAt n f
        ∧ ∀ m o, (s.modTenAt n f).tenReg m o = if m = n ∧ o = off then regKept off v else s.tenReg m o := by
    refine ⟨_, h1, fun m o => ?_⟩
    by_cases hm : m = n
    · subst hm
      rw [State.tenReg_setThree, h2]
      simp only [true_and]
    · rw [State.tenReg_modTenAt_ne s n m o _ hm, if_neg fun hc => hm hc.1]
  have h88 : s.tenReg n 0x88 = x.trapvec := by rw [← hx]; rfl
  have h98 : s.tenReg n 0x98 = x.intmask := by rw [← hx]; rfl
  have h210 : s.tenReg n 0x210 = x.prop.pdest := by rw [← hx]; rfl
  simp only [List.mem_cons, List.not_mem_nil, or_false] at h
  rcases h with rfl | rfl | rfl
  · refine hreg (v &&& ~~~3) x.intmask x.prop.pdest (by simp [State.writeReg, State.modTenAt, Ten.setThree, hx]) fun o => ?_
    split_ifs with h1 h2 h3 <;> simp_all [regKept]
  · refine hreg x.trapvec v x.prop.pdest (by simp [State.writeReg, State.modTenAt, Ten.setThree, hx]) fun o => ?_
    split_ifs with h1 h2 h3 <;> simp_all [regKept]
  · refine hreg x.trapvec x.intmask (v &&& ~~~0xFFFF) (by simp [State.writeReg, State.modTenAt, Ten.setThree, hx]) fun o => ?_
    split_ifs with h1 h2 h3 <;> simp_all [regKept]

end Sys2Proof.Machine

/-! SUPPORT. A buffered store performed (04_scalar R97): in memory, in lane memory and in a register of the block. -/

namespace Sys2Proof.Machine

theorem smem_eq_false {m : List Nat} {k : Nat} (h : ∀ l ∈ m, l ≠ k) : smem m k = false := by
  rw [← Bool.not_eq_true, smem_iff]
  exact fun hm => h k hm rfl

theorem mem_sdel (m : List Nat) (k w : Nat) : w ∈ sdel m k ↔ w ∈ m ∧ w ≠ k := by simp [sdel]

/-! ### Where a buffered store goes -/

theorem State.perform_reg {s : State} {b : SBuf} {n : BitVec 6} {off : Nat} (h : b.loc = .reg n off) :
    s.perform b = s.writeReg n.toNat off b.n b.data := by
  unfold State.perform
  rw [h]

/-- In memory a store of at most 8 bytes is a write of them. -/
theorem State.perform_mem {s : State} {b : SBuf} {pa : Nat} (h : b.loc = .mem pa) (hn : b.n ≤ 8) :
    ∃ ctx, s.perform b = s.writeMem ctx pa (wholeBytes (bytesOf b.n (b.data.toNat % 256 ^ b.n))) := by
  unfold State.perform
  rw [h]
  dsimp only
  rw [State.writeAll_short _ _ _ _ hn]
  exact ⟨_, rfl⟩

/-- The bytes of a store written to a core's lane memory. -/
def Core.storeLm (a n : Nat) (v : Word) (x : Core) : Core :=
  x.writeLm (wholeBytes (bytesOf n (v.toNat % 256 ^ n))).length a (wholeBytes (bytesOf n (v.toNat % 256 ^ n)))

theorem State.perform_lm {s : State} {b : SBuf} {c pa : Nat} (h : b.loc = .lm c pa) (hn : b.n ≤ 8) :
    s.perform b = s.modCoreAt c (Core.storeLm pa b.n b.data) := by
  unfold State.perform
  rw [h]
  dsimp only
  rw [State.writeAll_short _ _ _ _ hn]
  rfl

/-- With an empty buffer nothing happens. -/
theorem exec_storeBufferWrite_empty {s : State} (h : s.hart.sbuf = []) : exec .storeBufferWrite s = .next s := by
  change execStoreBufferWrite s = _
  unfold execStoreBufferWrite
  rw [h]

/-- The oldest buffered store leaves the buffer and is performed. -/
theorem exec_storeBufferWrite {s : State} {b : SBuf} {r : List SBuf} (h : s.hart.sbuf = b :: r) :
    exec .storeBufferWrite s = .next ((s.modHart fun k => { k with sbuf := r }).perform b) := by
  change execStoreBufferWrite s = _
  unfold execStoreBufferWrite
  rw [h]

/-! ### In memory -/

/-- A store to memory with no snapshot under way and no error in its lines: its bytes, and no mark. -/
theorem State.perform_mem_bytes {s : State} (hs : s.NoSnapshot) {b : SBuf} {pa : Nat} (h : b.loc = .mem pa) (hn : b.n ≤ 8)
    (hl : ∀ l ∈ s.latent, l ≠ lineOf pa ∧ l ≠ lineOf pa + 1) :
    MemOnly s (s.perform b) ∧ ∀ a, (s.perform b).byte a = if pa ≤ a ∧ a < pa + b.n then byteOf b.data (a - pa) else s.byte a := by
  obtain ⟨ctx, e⟩ := State.perform_mem (s := s) h hn
  rw [e, State.writeMem_whole hs ctx _ (smem_eq_false fun l hm => (hl l hm).1) (smem_eq_false fun l hm => (hl l hm).2)]
  obtain ⟨hm, hb⟩ := State.putBytes_whole hs ctx pa (bytesOf b.n (b.data.toNat % 256 ^ b.n))
  exact ⟨hm, fun a => (hb a).trans (overlay_bytesOf pa b.n b.data s.byte a)⟩

/-! ### In lane memory -/

/-- What a store to lane memory leaves of a core: its own bytes, and of a whole word the mark and the error gone. -/
structure LmStored (x y : Core) (whole : Prop) (a n : Nat) (v : Word) : Prop where
  rest : { y with lm := [], lmMarks := [], lmLatent := [] } = { x with lm := [], lmMarks := [], lmLatent := [] }
  marks : ∀ w, w ∈ y.lmMarks ↔ w ∈ x.lmMarks ∧ ¬ (whole ∧ w = lmIndex a)
  latent : ∀ w, w ∈ y.lmLatent ↔ w ∈ x.lmLatent ∧ ¬ (whole ∧ w = lmIndex a)
  bytes : ∀ b, y.lmByte b = if a ≤ b ∧ b < a + n then byteOf v (b - a) else x.lmByte b

/-- The bytes of a store written one after another change nothing but the words of lane memory. -/
theorem Core.putLmBytes_store (x : Core) (a n : Nat) (v : Word) :
    LmOnly x (x.putLmBytes a (wholeBytes (bytesOf n (v.toNat % 256 ^ n))))
    ∧ ∀ b, (x.putLmBytes a (wholeBytes (bytesOf n (v.toNat % 256 ^ n)))).lmByte b
      = if a ≤ b ∧ b < a + n then byteOf v (b - a) else x.lmByte b := by
  obtain ⟨hm, hb⟩ := x.putLmBytes_whole a (bytesOf n (v.toNat % 256 ^ n))
  exact ⟨hm, fun b => (hb b).trans (overlay_bytesOf a n v x.lmByte b)⟩

theorem Core.lmStored_storeLm (x : Core) {a n : Nat} (v : Word) (hn : n ≤ 8)
    (h : (n = 8 ∧ a % 8 = 0) ∨ ∀ w ∈ x.lmLatent, w ≠ lmIndex a ∧ w ≠ lmIndex a + 1) :
    LmStored x (x.storeLm a n v) (n = 8 ∧ a % 8 = 0) a n v := by
  unfold Core.storeLm
  by_cases hw : n = 8 ∧ a % 8 = 0
  · obtain ⟨hm, hb⟩ := (x.cleanLm (lmIndex a)).putLmBytes_store a n v
    rw [x.writeLm_aligned ((length_bytesOf _ _).trans hw.1) hw.2]
    have hgone (m : List Nat) (w : Nat) : w ∈ sdel m (lmIndex a) ↔ w ∈ m ∧ ¬ ((n = 8 ∧ a % 8 = 0) ∧ w = lmIndex a) := by
      rw [mem_sdel, and_iff_right hw]
    exact ⟨by rw [hm]; rfl, fun w => by rw [hm]; exact hgone _ w, fun w => by rw [hm]; exact hgone _ w, hb⟩
  · obtain ⟨hm, hb⟩ := x.putLmBytes_store a n v
    have hl := h.resolve_left hw
    rw [x.writeLm_part (by rwa [length_bytesOf]) (by rwa [length_bytesOf]) (smem_eq_false fun l hm => (hl l hm).1)
      (smem_eq_false fun l hm => (hl l hm).2)]
    have hstays (m : List Nat) (w : Nat) : w ∈ m ↔ w ∈ m ∧ ¬ ((n = 8 ∧ a % 8 = 0) ∧ w = lmIndex a) := by
      simp only [hw, false_and, not_false_eq_true, and_true]
    exact ⟨by rw [hm], fun w => by rw [hm]; exact hstays _ w, fun w => by rw [hm]; exact hstays _ w, hb⟩

/-- A core of lane memory that no store reaches. -/
theorem LmStored.refl (x : Core) (a : Nat) (v : Word) : LmStored x x False a 0 v where
  rest := rfl
  marks w := by simp
  latent w := by simp
  bytes b := (if_neg (by omega)).symm

/-- A store to lane memory changes its core alone. -/
theorem State.perform_lm_stored {s : State} {b : SBuf} {c pa : Nat} (h : b.loc = .lm c pa) (hn : b.n ≤ 8)
    (hl : (b.n = 8 ∧ pa % 8 = 0) ∨ ∀ w ∈ (s.coreAt c).lmLatent, w ≠ lmIndex pa ∧ w ≠ lmIndex pa + 1) (i : Nat) :
    LmStored (s.coreAt i) ((s.perform b).coreAt i) (i = c ∧ b.n = 8 ∧ pa % 8 = 0) pa (if i = c then b.n else 0) b.data := by
  rw [State.perform_lm h hn]
  by_cases hi : i = c
  · subst hi
    rw [State.coreAt_modCoreAt_same, if_pos rfl, eq_true rfl, true_and]
    exact (s.coreAt i).lmStored_storeLm b.data hn hl
  · rw [State.coreAt_modCoreAt_ne _ _ _ _ hi, if_neg hi, eq_false hi, false_and]
    exact .refl _ _ _

theorem State.hartAt_perform_lm {s : State} {b : SBuf} {c pa : Nat} (h : b.loc = .lm c pa) (hn : b.n ≤ 8)
    (hl : (b.n = 8 ∧ pa % 8 = 0) ∨ ∀ w ∈ (s.coreAt c).lmLatent, w ≠ lmIndex pa ∧ w ≠ lmIndex pa + 1) (i j : Nat) :
    (s.perform b).hartAt i j = s.hartAt i j :=
  congrArg (mget Hart.init · j) (congrArg Core.harts (State.perform_lm_stored h hn hl i).rest :)

/-! ### The oldest entry leaves the buffer -/

/-- The hart without its oldest buffered store. -/
def Hart.keepBuffered (r : List SBuf) (k : Hart) : Hart := { k with sbuf := r }

section
variable {s : State} {b : SBuf} {r : List SBuf}

/-- A store to TRAPVEC, INTMASK or PDEST sets that register and no other (15_device R338). -/
theorem oldest_reg {n : BitVec 6} {off : Nat} (hloc : b.loc = .reg n off) (h8 : b.n = 8) (hoff : off ∈ [0x88, 0x98, 0x210]) :
    let t := (s.modHart (Hart.keepBuffered r)).perform b
    SameButMem { s with tens := [] } { t with tens := [] } ∧ t.hart = s.hart.keepBuffered r ∧ (∀ x, t.byte x = s.byte x)
      ∧ t.readReg n.toNat off 8 = (regKept off b.data).toNat
      ∧ ∀ m o k, (m, o / 8) ≠ (n.toNat, off / 8) → t.readReg m o k = s.readReg m o k := by
  obtain ⟨f, hw, hreg⟩ := (s.modHart (Hart.keepBuffered r)).writeReg_whole n.toNat hoff b.data
  have hal : off / 8 * 8 = off ∧ off % 8 = 0 := by
    simp only [List.mem_cons, List.not_mem_nil, or_false] at hoff
    omega
  dsimp only
  rw [State.perform_reg hloc, h8, hw]
  refine ⟨⟨(State.sameElse_modHart s _).harts, rfl⟩, State.hart_modHart s _, fun _ => rfl, ?_, fun m o k hne => ?_⟩
  · rw [State.readReg, hreg, hal.1, hal.2, if_pos ⟨rfl, rfl⟩]
    exact Nat.mod_eq_of_lt (regKept off b.data).isLt
  · have hno : ¬ (m = n.toNat ∧ o / 8 * 8 = off) := by
      rintro ⟨rfl, ho⟩
      exact hne (by rw [show o / 8 = off / 8 by omega])
    rw [State.readReg, hreg, if_neg hno]
    rfl

/-- A store to memory writes its bytes, and marks nothing. -/
theorem oldest_mem {pa : Nat} (hs : s.NoSnapshot) (hloc : b.loc = .mem pa) (hn : b.n ≤ 8)
    (hl : ∀ l ∈ s.latent, l ≠ lineOf pa ∧ l ≠ lineOf pa + 1) :
    let t := (s.modHart (Hart.keepBuffered r)).perform b
    SameButMem s t ∧ t.hart = s.hart.keepBuffered r ∧ t.marks = s.marks ∧ t.latent = s.latent
      ∧ ∀ a, t.byte a = if pa ≤ a ∧ a < pa + b.n then byteOf b.data (a - pa) else s.byte a := by
  have hsame := s.sameElse_modHart (Hart.keepBuffered r)
  obtain ⟨hm, hb⟩ := State.perform_mem_bytes (s := s.modHart (Hart.keepBuffered r)) hs hloc hn hl
  exact ⟨hsame.sameButTlb.sameButMem.trans hm.sameButMem, hm.hart.trans (State.hart_modHart s _), hm.marks, hm.latent, hb⟩

/-- A store to lane memory writes its bytes; of a whole word the mark and the error go. -/
theorem oldest_lm {c pa : Nat} (hloc : b.loc = .lm c pa) (hn : b.n ≤ 8)
    (hl : (b.n = 8 ∧ pa % 8 = 0) ∨ ∀ w ∈ (s.coreAt c).lmLatent, w ≠ lmIndex pa ∧ w ≠ lmIndex pa + 1) :
    let t := (s.modHart (Hart.keepBuffered r)).perform b
    SameButMem s t ∧ t.hart = s.hart.keepBuffered r ∧ (∀ a, t.byte a = s.byte a) ∧ t.marks = s.marks ∧ t.latent = s.latent
      ∧ ∀ i, LmStored { s.coreAt i with harts := [] } { t.coreAt i with harts := [] } (i = c ∧ b.n = 8 ∧ pa % 8 = 0) pa
          (if i = c then b.n else 0) b.data := by
  have hsame := s.sameElse_modHart (Hart.keepBuffered r)
  rw [← hsame.sameButTlb.lmLatent] at hl
  have hh := State.hartAt_perform_lm (s := s.modHart (Hart.keepBuffered r)) hloc hn hl
  have hst := State.perform_lm_stored (s := s.modHart (Hart.keepBuffered r)) hloc hn hl
  have e := State.perform_lm (s := s.modHart (Hart.keepBuffered r)) hloc hn
  refine ⟨⟨fun i j hij => (hh i j).trans (hsame.harts i j hij), by rw [e]; rfl⟩, ?_, fun a => by rw [e]; rfl, by rw [e]; rfl,
    by rw [e]; rfl, fun i => ?_⟩
  · rw [State.hart, show ((s.modHart (Hart.keepBuffered r)).perform b).cc = s.cc by rw [e]; rfl,
      show ((s.modHart (Hart.keepBuffered r)).perform b).ch = s.ch by rw [e]; rfl, hh]
    exact State.hart_modHart s _
  · rw [← hsame.cores i]
    obtain ⟨hrest, hmarks, hlat, hbytes⟩ := hst i
    exact ⟨congrArg (fun y : Core => { y with harts := [] }) hrest, hmarks, hlat, hbytes⟩

end

end Sys2Proof.Machine

/-! The family 04_scalar: O19. -/

namespace Sys2Proof

open Machine

/-- Settles O19, by the place of the oldest store: a register of the block, memory, or lane memory. -/
theorem bufferedStorePerforms : Obligations.BufferedStorePerforms := by
  unfold Obligations.BufferedStorePerforms
  refine ⟨fun s h => exec_storeBufferWrite_empty h, fun s b r hb hn => ⟨fun n off hloc => ?_, fun pa hs hloc hl => ?_, fun c pa hloc => ?_⟩⟩
  · rw [exec_storeBufferWrite hb]
    exact ⟨by rw [State.perform_reg hloc], fun h8 hoff => ⟨_, rfl, oldest_reg hloc h8 hoff⟩⟩
  · rw [exec_storeBufferWrite hb]
    exact ⟨_, rfl, oldest_mem hs hloc hn hl⟩
  · intro whole hl
    obtain ⟨hmem, hhart, hbyte, hmarks, hlat, hst⟩ := oldest_lm (r := r) hloc hn hl
    rw [exec_storeBufferWrite hb]
    refine ⟨_, rfl, hmem, hhart, hbyte, hmarks, hlat, fun i => (hst i).rest, fun i w => ⟨?_, ?_⟩, fun i a => ?_⟩
    · rw [← and_assoc (a := i = c)]
      exact (hst i).marks w
    · rw [← and_assoc (a := i = c)]
      exact (hst i).latent w
    · refine ((hst i).bytes a).trans ?_
      by_cases hi : i = c
      · simp only [hi, if_true, true_and]
        rfl
      · simp only [hi, if_false, false_and, show ¬ (pa ≤ a ∧ a < pa + 0) by omega]
        rfl

end Sys2Proof

/-! The family "Harts": O4. -/
namespace Sys2Proof
open Machine

/-- The state after power-on lists no core, no tenancy and no byte of memory, so it meets both invariants. -/
theorem Machine.State.reset_safe : State.reset.safe :=
  ⟨rfl, ⟨fun _ hp => absurd hp List.not_mem_nil, fun _ hp => absurd hp List.not_mem_nil⟩⟩

/-- Settles O4: a core or a tenancy that the reset state does not list reads as its initial value. -/
theorem resetLeaves : Obligations.ResetLeaves := by
  unfold Obligations.ResetLeaves
  have hroute : ∀ n : Fin 64, Core.init.routes[n] = 0 := by decide
  have hframe : ∀ n : Fin 4, Core.init.frames[n].st = 0 := by decide
  have hclass : ∀ n : Fin 8, Ten.init.classes[n] = { pol := 0, age := 2, ways := 0xFFFF } := by decide
  have hgroup : ∀ n : Fin 16, State.reset.mgr.groupown[n] = 0x7F := by decide
  have hcore : ∀ c, State.reset.coreAt c = Core.init := fun _ => rfl
  have hhart : ∀ c h, State.reset.hartAt c h = Hart.init := fun _ _ => rfl
  have hten : ∀ t, State.reset.tenAt t = Ten.init := fun _ => rfl
  refine ⟨fun c => ?_, fun t => ?_, rfl, rfl, rfl, rfl, rfl, hgroup, State.reset_safe⟩
  · rw [hcore]
    exact ⟨rfl, rfl, hroute, hframe, fun h => by rw [hhart]; rfl⟩
  · rw [hten]
    exact ⟨rfl, rfl, rfl, rfl, rfl, rfl, hclass⟩

end Sys2Proof

/-! SUPPORT. The fields of a VTYPE value as quotients and remainders. -/
namespace Sys2Proof.Machine

/-- The width code of a VTYPE value (03_formats R69). -/
theorem vtype_width (v : Word) : (v.extractLsb' 0 3).toNat = v.toNat % 8 := by
  simp [BitVec.extractLsb'_toNat]

/-- The scale-block code of a VTYPE value (03_formats R69). -/
theorem vtype_block (v : Word) : (v.extractLsb' 3 2).toNat = v.toNat / 8 % 4 := by
  simp [BitVec.extractLsb'_toNat, Nat.shiftRight_eq_div_pow]

/-- A VTYPE value names a reserved bit or width where it is 32 or more, or its width code is above 4. -/
theorem vtypeReserved_iff (v : Word) : vtypeReserved v = true ↔ 32 ≤ v.toNat ∨ 4 < v.toNat % 8 := by
  have hshift : v >>> 5 = 0 ↔ v.toNat < 32 := by
    rw [← BitVec.toNat_inj, BitVec.toNat_ushiftRight, Nat.shiftRight_eq_div_pow]
    simp only [BitVec.ofNat_eq_ofNat, BitVec.toNat_ofNat]
    omega
  simp only [vtypeReserved, bne, Bool.or_eq_true, Bool.not_eq_true', beq_eq_false_iff_ne, ne_eq, hshift,
    decide_eq_true_eq, vtype_width, Nat.not_lt]

/-- A length rounded down to whole scale blocks. -/
theorem wholeBlocks_eq (vl blk : Nat) :
    (if blk = 0 then vl else vl / (8 <<< blk) * (8 <<< blk))
      = vl / (if blk = 0 then 1 else 8 * 2 ^ blk) * (if blk = 0 then 1 else 8 * 2 ^ blk) := by
  split
  · simp
  · rw [Nat.shiftLeft_eq]

/-- The length granted, written out (05_harts R110, R111). -/
theorem Hart.grant_eq (k : Hart) (vgrant avl : Nat) (vt : Word) :
    k.grant vgrant avl vt =
      let w := [4, 6, 8, 16, 32].getD (vt.toNat % 8) 32
      let per := if w = 6 then 10 else 64 / w
      let lanes := 32 / k.place.h.toNat
      let max := lanes * 16384 / k.cfg.nreg.toNat * per
      let epg := lanes * per
      let blk := vt.toNat / 8 % 4
      let unit := if blk = 0 then 1 else 8 * 2 ^ blk
      min avl (min max (max * vgrant / 8 / epg * epg)) / unit * unit := by
  simp only [Hart.grant, vtype_block, wholeBlocks_eq, Hart.vlmax, perReg, cpr, epgOf, perChunk, ewBits, vtype_width, Hart.lanes]

end Sys2Proof.Machine

/-! The family "Harts": O24. -/
namespace Sys2Proof
open Machine

/-- Settles O24: both instructions are one function of AVL and VTYPE, which ends with a register result. -/
theorem lengthGranted : Obligations.LengthGranted := by
  unfold Obligations.LengthGranted
  intro s d a b imm hq
  have reserved (avl vt : Word) (h : 32 ≤ vt.toNat ∨ 4 < vt.toNat % 8) :
      Sets s (setlen d avl vt s) s.nextPc d 0
        (fun k => k.modCfg fun c => { c with vl := 0, vtype := (1 : Word) <<< 63 }) := by
    rw [setlen, if_pos ((vtypeReserved_iff vt).2 h)]
    exact finish_sets_modHart s d 0 _ hq hq.2 rfl rfl
  have granted (avl vt : Word) (h1 : vt.toNat < 32) (h2 : vt.toNat % 8 ≤ 4) :
      let vl := BitVec.ofNat 64 (s.hart.grant s.core.vgrant.toNat avl.toNat vt)
      Sets s (setlen d avl vt s) s.nextPc d vl (fun k => k.modCfg fun c => { c with vl := vl, vtype := vt }) := by
    have hr : ¬ vtypeReserved vt = true := by rw [vtypeReserved_iff]; omega
    rw [setlen, if_neg hr]
    exact finish_sets_modHart s d _ _ hq hq.2 rfl rfl
  simp only [Hart.grant_eq] at granted
  exact ⟨⟨granted (s.rd a) (s.rd b), reserved (s.rd a) (s.rd b)⟩,
    granted (s.rd a) (imm.setWidth 64), reserved (s.rd a) (imm.setWidth 64)⟩

end Sys2Proof

/-! SUPPORT. VDECL and CSET case by case (05_harts R117, 13_collective R292): the operands that each takes, and what its
accepting case leaves. -/
namespace Sys2Proof.Machine

/-- VDECL with VS not OFF, a legal NREG and empty queues clears and goes on. -/
theorem execVdecl_legal {s : State} {a : BitVec 5} (hvs : s.hart.vec.vs ≠ 0) (hn : s.rd a = 8 ∨ s.rd a = 16 ∨ s.rd a = 32)
    (hk : s.hart.queued = false) : execVdecl a s = .next (s.modHart fun k => k.declare (s.rd a)).advance := by
  have hbad : ¬ (s.rd a ≠ 8 ∧ s.rd a ≠ 16 ∧ s.rd a ≠ 32) := fun ⟨h8, h16, h32⟩ => by
    rcases hn with h | h | h
    · exact h8 h
    · exact h16 h
    · exact h32 h
  simp only [execVdecl, if_neg hvs, if_neg hbad, hk, Bool.false_eq_true, if_false]

/-- The group and operation operand of CSET is refused where a bit from 29 on is set, or its operation is above 2. -/
theorem csetGroup_bad_iff (x : Word) :
    (x >>> 29 ≠ 0 ∨ (x.extractLsb' 16 8).toNat > 2) ↔ ¬ (x.toNat < 2 ^ 29 ∧ x.toNat / 2 ^ 16 % 256 ≤ 2) := by
  have hshift : x >>> 29 = 0 ↔ x.toNat < 2 ^ 29 := by
    rw [← BitVec.toNat_inj, BitVec.toNat_ushiftRight, Nat.shiftRight_eq_div_pow]
    simp only [BitVec.ofNat_eq_ofNat, BitVec.toNat_ofNat]
    omega
  rw [Ne, hshift, BitVec.extractLsb'_toNat, Nat.shiftRight_eq_div_pow]
  omega

/-- A stride is good where it is a multiple of 256, not 0 and at most 2 ^ 24. -/
theorem strideGood_iff (n : Nat) : strideGood n = true ↔ n ≠ 0 ∧ n % 256 = 0 ∧ n ≤ 2 ^ 24 := by
  simp [strideGood, and_assoc]

/-- COPR as CSET makes it of its operand: the reduction above, the operation below. -/
theorem csetOp_eq (x : Word) : ((x.extractLsb' 24 5 ++ (0 : BitVec 6)) ++ x.extractLsb' 16 2 : BitVec 13)
    = BitVec.ofNat 13 (x.toNat / 2 ^ 16 % 4 + 256 * (x.toNat / 2 ^ 24 % 32)) := by
  apply BitVec.eq_of_toNat_eq
  have hlow : x.toNat / 2 ^ 16 % 4 < 2 ^ 2 := Nat.mod_lt _ (by decide)
  rw [BitVec.toNat_append, BitVec.toNat_append, BitVec.extractLsb'_toNat, BitVec.extractLsb'_toNat, BitVec.toNat_ofNat,
    Nat.shiftRight_eq_div_pow, Nat.shiftRight_eq_div_pow]
  simp only [BitVec.ofNat_eq_ofNat, BitVec.toNat_ofNat, Nat.zero_mod, Nat.or_zero]
  rw [← Nat.shiftLeft_add_eq_or_of_lt hlow, Nat.shiftLeft_eq, Nat.shiftLeft_eq]
  omega

/-- CSET with legal operands: its tenancy takes note of a cut, and the next step opens. -/
theorem execCset_legal {s : State} {d a b : BitVec 5} (hx : (s.rd a).toNat < 2 ^ 29 ∧ (s.rd a).toNat / 2 ^ 16 % 256 ≤ 2)
    (hy : (s.rd b).toNat ≠ 0 ∧ (s.rd b).toNat % 256 = 0 ∧ (s.rd b).toNat ≤ 2 ^ 24) :
    execCset d a b s = finish d s.hart.cfg.cstep
      ((s.cutAt s.hart.cfg.cstep).modHart fun k => k.modCfg fun c => { c with
        cgrp := (s.rd a).setWidth 16, copr := ((s.rd a).extractLsb' 24 5 ++ (0 : BitVec 6)) ++ (s.rd a).extractLsb' 16 2
        cstr := (s.rd b).setWidth 25, cstep := s.hart.cfg.cstep + 1 }) := by
  have hx' : ¬ (s.rd a >>> 29 ≠ 0 ∨ ((s.rd a).extractLsb' 16 8).toNat > 2) := by
    rw [csetGroup_bad_iff]; exact not_not_intro hx
  simp only [execCset, if_neg hx', (strideGood_iff _).2 hy, Bool.not_true, Bool.false_eq_true, if_false]

/-- The note of a cut is the tenancy's. -/
@[simp] theorem State.hartAt_cutAt (s : State) (old : Word) (c h : Nat) : (s.cutAt old).hartAt c h = s.hartAt c h := (rfl)
@[simp] theorem State.hart_cutAt (s : State) (old : Word) : (s.cutAt old).hart = s.hart := (rfl)

end Sys2Proof.Machine

/-! The family "Harts": O30. -/
namespace Sys2Proof
open Machine

/-- Settles O30: VDECL and CSET each check their operands in order, and then change the hart and go on. -/
theorem declareAndStep : Obligations.DeclareAndStep := by
  unfold Obligations.DeclareAndStep
  intro s d a b hq
  refine ⟨fun hvs hn hk => ?_, fun hc hvs hn => ?_, fun hc hvs => ?_, fun hx hy => ?_, fun hc hx => ?_, fun hc hx hy => ?_⟩
  · have hstep := State.advance_modHart hq (f := fun k => k.declare (s.rd a)) hq.2 rfl
    refine ⟨_, execVdecl_legal hvs hn hk, ?_, ?_⟩ <;> rw [hstep]
    · exact State.sameElse_modHart s _
    · exact State.hart_modHart s _
  · have hn' : s.rd a ≠ 8 ∧ s.rd a ≠ 16 ∧ s.rd a ≠ 32 := by simpa only [not_or] using hn
    have e : exec (.vdecl a) s = trap 0x01 (s.rd a) s := (if_neg hvs).trans (if_pos hn')
    rw [e]
    exact trap_traps s _ _ hc
  · have e : exec (.vdecl a) s = trap 0x07 0 s := if_pos hvs
    rw [e]
    exact trap_traps s _ _ hc
  · have hqc : (s.cutAt s.hart.cfg.cstep).Quiet := hq
    obtain ⟨t, ht, he, hr, hh⟩ := finish_sets_modHart (s.cutAt s.hart.cfg.cstep) d s.hart.cfg.cstep
      (fun k => k.modCfg fun c => { c with
        cgrp := (s.rd a).setWidth 16, copr := ((s.rd a).extractLsb' 24 5 ++ (0 : BitVec 6)) ++ (s.rd a).extractLsb' 16 2
        cstr := (s.rd b).setWidth 25, cstep := s.hart.cfg.cstep + 1 }) hqc hqc.2 rfl rfl
    refine ⟨t, (execCset_legal hx hy).trans ht, hr, ?_, he.bytes, he.harts⟩
    rw [csetOp_eq] at hh
    exact hh
  · have e : exec (.cset d a b) s = trap 0x01 (s.rd a) s := if_pos ((csetGroup_bad_iff _).2 hx)
    rw [e]
    exact trap_traps s _ _ hc
  · have hx' : ¬ (s.rd a >>> 29 ≠ 0 ∨ ((s.rd a).extractLsb' 16 8).toNat > 2) := by
      rw [csetGroup_bad_iff]; exact not_not_intro hx
    have hy' : (!strideGood (s.rd b).toNat) = true := by rw [Bool.not_eq_true', ← Bool.not_eq_true, strideGood_iff]; exact hy
    have e : exec (.cset d a b) s = trap 0x01 (s.rd b) s := (if_neg hx').trans (if_pos hy')
    rw [e]
    exact trap_traps s _ _ hc

end Sys2Proof

/-! SUPPORT. Farms (05_harts R118, R119): a launch changed, and an index claimed. -/
namespace Sys2Proof.Machine

/-- Where only the hart differs the launches are as before. -/
theorem SameElse.launches {s t : State} (h : SameElse s t) : t.launches = s.launches := by
  have := congrArg State.launches h.rest
  exact this

/-- A change of a launch is no change of a hart. -/
@[simp] theorem State.hart_modLaunch (s : State) (id : Nat) (f : Launch → Launch) : (s.modLaunch id f).hart = s.hart := (rfl)

/-- A launch changed without its number is found changed. -/
theorem State.launchOf_modLaunch {s : State} {id : Nat} {f : Launch → Launch} (hf : ∀ l, (f l).id = l.id) :
    (s.modLaunch id f).launchOf id = (s.launchOf id).map f := by
  unfold State.launchOf State.modLaunch
  rw [List.find?_map]
  have hp : ((fun l : Launch => l.id == id) ∘ fun l => if l.id = id then f l else l) = fun l => l.id == id := by
    funext l
    by_cases h : l.id = id <;> simp [h, hf]
  rw [hp]
  cases h : s.launches.find? fun l => l.id == id with
  | none => rfl
  | some l =>
    have hl : l.id = id := by simpa using List.find?_some h
    simp [hl]

/-- A claim leaves the launch its number. -/
theorem Launch.claim_id (l : Launch) (k : Nat) : (l.claim k).2.id = l.id := by
  unfold Launch.claim
  split
  · rfl
  · split <;> rfl

/-- An index is left: it is claimed, and the farm goes on to the next. -/
theorem Launch.claim_left {l : Launch} {k c i : Nat} (h : l.farms[k]? = some (c, i)) (hi : i < c) :
    l.claim k = (some i, { l with farms := l.farms.set k (c, i + 1) }) := by
  simp only [Launch.claim, h, if_pos hi]

/-- No index is left. -/
theorem Launch.claim_done {l : Launch} {k c i : Nat} (h : l.farms[k]? = some (c, i)) (hi : c ≤ i) :
    l.claim k = (none, l) := by
  simp only [Launch.claim, h, if_neg (Nat.not_lt.2 hi)]

/-- FNEXT of a farm with an index left. -/
theorem execFnext_left {s : State} {d a : BitVec 5} (hn : (s.rd a).toNat < min s.hart.farms 16) {l : Launch}
    (hl : s.launchOf s.hart.place.launch = some l) {i : Nat} (hi : (l.claim (s.rd a).toNat).1 = some i) :
    execFnext d a s = finish d (BitVec.ofNat 64 i)
      (s.modLaunch s.hart.place.launch fun l => (l.claim (s.rd a).toNat).2) := by
  simp only [execFnext, if_neg (Nat.not_le.2 hn), hl, Option.bind_some, hi]

/-- FNEXT of a farm with no index left. -/
theorem execFnext_done {s : State} {d a : BitVec 5} (hn : (s.rd a).toNat < min s.hart.farms 16) {l : Launch}
    (hl : s.launchOf s.hart.place.launch = some l) (hi : (l.claim (s.rd a).toNat).1 = none) :
    execFnext d a s = finish d (BitVec.allOnes 64) s := by
  simp only [execFnext, if_neg (Nat.not_le.2 hn), hl, Option.bind_some, hi]

end Sys2Proof.Machine

/-! The family "Harts": O31. -/
namespace Sys2Proof
open Machine

/-- Settles O31: each case of FARM and FNEXT changes the launch, and ends with a register result. -/
theorem farmsShareWork : Obligations.FarmsShareWork := by
  unfold Obligations.FarmsShareWork
  intro s d a hq
  refine ⟨fun hk => ?_, fun hk => ?_, fun hn => ?_, fun hn l c i hl hf => ⟨fun hi => ?_, fun hi => ?_⟩⟩
  · obtain ⟨t, ht, he, hr, hh⟩ := finish_sets_modHart
      (s.modLaunch s.hart.place.launch fun l => l.farm s.hart.farms ((s.rd a).toNat % 2 ^ 32)) d (BitVec.ofNat 64 s.hart.farms)
      (fun h => { h with farms := s.hart.farms + 1 }) hq hq.2 rfl rfl
    have e : exec (.farm d a) s = .next t := by
      rw [← ht]
      exact (if_neg (Nat.not_le.2 hk)).trans (by rw [State.hart_modHart]; rfl)
    have hlaunch : t.launches = s.launches.map fun l =>
        if l.id = s.hart.place.launch then l.farm s.hart.farms ((s.rd a).toNat % 2 ^ 32) else l :=
      he.launches
    refine ⟨t, e, hr, by rw [hh]; rfl, by rw [hh]; rfl, he.bytes, ?_⟩
    rw [hlaunch]
    refine List.map_congr_left fun l _ => ?_
    by_cases hid : l.id = s.hart.place.launch <;> by_cases hlen : l.farms.length ≤ s.hart.farms
    · rw [if_pos hid, if_pos ⟨hid, hlen⟩, Launch.farm, if_neg (Nat.not_lt.2 hlen)]
    · rw [if_pos hid, if_neg fun h => hlen h.2, Launch.farm, if_pos (Nat.not_le.1 hlen)]
    · rw [if_neg hid, if_neg fun h => hid h.1]
    · rw [if_neg hid, if_neg fun h => hid h.1]
  · obtain ⟨t, ht, he, hr, hh⟩ := finish_sets_modHart s d (BitVec.allOnes 64)
      (fun h => { h with farms := s.hart.farms + 1 }) hq hq.2 rfl rfl
    have e : exec (.farm d a) s = .next t := (if_pos hk).trans ht
    exact ⟨t, e, hr, by rw [hh]; rfl, he.launches⟩
  · have e : exec (.fnext d a) s = finish d (BitVec.ofInt 64 (-2)) s := if_pos hn
    rw [e]
    exact finish_sets s d _ hq
  · have hclaim := Launch.claim_left hf hi
    obtain ⟨t, ht, he, hr, hh⟩ := finish_sets
      (s.modLaunch s.hart.place.launch fun l => (l.claim (s.rd a).toNat).2) d (BitVec.ofNat 64 i) hq
    refine ⟨t, (execFnext_left hn hl (by rw [hclaim])).trans ht, hr, by rw [hh]; rfl, ?_⟩
    rw [State.launchOf, he.launches]
    refine (State.launchOf_modLaunch fun l => l.claim_id _).trans ?_
    rw [hl, Option.map_some, hclaim]
  · have e : exec (.fnext d a) s = finish d (BitVec.allOnes 64) s :=
      execFnext_done hn hl (by rw [Launch.claim_done hf hi])
    rw [e]
    exact finish_sets s d _ hq

end Sys2Proof

/-! SUPPORT. Listings whose keys differ: a member reads as itself. -/
namespace Sys2Proof.Machine

/-- A member of a listing whose keys differ is what its key reads as. -/
theorem mget_eq_of_mem {α : Type} (d : α) {m : List (Nat × α)} (hn : (m.map Prod.fst).Nodup) {p : Nat × α} (hp : p ∈ m) :
    mget d m p.1 = p.2 := by
  induction m with
  | nil => exact absurd hp List.not_mem_nil
  | cons q r ih =>
    obtain ⟨j, w⟩ := q
    obtain ⟨hj, hr⟩ := List.nodup_cons.1 hn
    rcases List.mem_cons.1 hp with rfl | hp
    · exact if_pos rfl
    · have hne : p.1 ≠ j := fun e => hj (List.mem_map.2 ⟨p, hp, e⟩)
      exact (if_neg hne).trans (ih hr hp)

/-! SUPPORT. HEXIT, HBAR and their releases (05_harts R121, R123). -/

/-- Queues that hold nothing. -/
theorem Hart.queued_eq_false_iff (k : Hart) : k.queued = false ↔ k.q.vq = [] ∧ k.q.cq = [] := by
  simp [Hart.queued]

/-- No word of the queues accesses memory, but for those from before a trap. -/
theorem State.memoryQueued_eq_false_iff (s : State) :
    s.memoryQueued = false ↔ ∀ x ∈ s.hart.q.vq ++ s.hart.q.cq, x.pre = true ∨ (x.meaning s).memory = false := by
  simp only [State.memoryQueued, Hart.liveWords, List.any_eq_false, List.mem_filter, Bool.not_eq_true', Bool.not_eq_true]
  refine forall_congr' fun x => ⟨fun h hx => ?_, fun h hx => (h hx.1).resolve_left (by simp [hx.2])⟩
  cases hpre : x.pre with
  | true => exact .inl rfl
  | false => exact .inr (h ⟨hx, hpre⟩)

/-- The barrier is full where every hart of the launch on the core waits at it. -/
theorem Core.barrierFull_iff (y : Core) (id : Nat) : y.barrierFull id = true ↔
    ∀ p ∈ y.harts, p.2.place.placed = true → p.2.place.launch = id → p.2.wait = .hbar := by
  simp only [Core.barrierFull, List.all_eq_true, Bool.or_eq_true, Bool.not_eq_true', beq_iff_eq]
  refine forall_congr' fun p => forall_congr' fun _ => ⟨fun h hp hl => h.resolve_left (by simp [hp, hl]), fun h => ?_⟩
  by_cases hp : p.2.place.placed = true ∧ p.2.place.launch = id
  · exact .inr (h hp.1 hp.2)
  · refine .inl (Bool.eq_false_iff.2 fun e => hp ?_)
    simpa using e

/-- A core that settles keeps its harts. -/
theorem State.hartAt_settleCore (s : State) (c i h : Nat) : (s.settleCore c).hartAt i h = s.hartAt i h := by
  unfold State.settleCore
  dsimp only
  split
  · rfl
  · by_cases hc : i = c
    · subst hc; simp [State.hartAt, Core.hartAt]
    · simp [State.hartAt, State.coreAt_modCoreAt_ne _ _ _ _ hc]

/-- A core that settles changes cores only. -/
theorem State.settleCore_eq (s : State) (c : Nat) : s.settleCore c = { s with cores := (s.settleCore c).cores } := by
  unfold State.settleCore
  dsimp only
  split <;> rfl

/-- The end of a launch changes no hart. -/
theorem State.hartAt_endLaunch (s : State) (id i h : Nat) : (s.endLaunch id).hartAt i h = s.hartAt i h := by
  unfold State.endLaunch
  split
  · split
    · exact foldl_keeps (fun u : State => u.hartAt i h = s.hartAt i h) _
        (fun u c hu => (u.hartAt_settleCore c i h).trans hu) _ _ rfl
    · rfl
  · rfl

/-- The end of a launch changes cores only. -/
theorem State.endLaunch_eq (s : State) (id : Nat) : s.endLaunch id = { s with cores := (s.endLaunch id).cores } := by
  unfold State.endLaunch
  split
  · split
    · refine foldl_keeps (fun u : State => u = { s with cores := u.cores }) _ (fun u c hu => ?_) _ _ rfl
      rw [State.settleCore_eq, hu]
    · rfl
  · rfl

@[simp] theorem State.endLaunch_cc (s : State) (id : Nat) : (s.endLaunch id).cc = s.cc := by rw [State.endLaunch_eq]
@[simp] theorem State.endLaunch_ch (s : State) (id : Nat) : (s.endLaunch id).ch = s.ch := by rw [State.endLaunch_eq]
@[simp] theorem State.endLaunch_mem (s : State) (id : Nat) : (s.endLaunch id).mem = s.mem := by rw [State.endLaunch_eq]
@[simp] theorem State.endLaunch_launches (s : State) (id : Nat) : (s.endLaunch id).launches = s.launches := by
  rw [State.endLaunch_eq]

/-- The hart whose turn it is, after the end of a launch. -/
@[simp] theorem State.hart_endLaunch (s : State) (id : Nat) : (s.endLaunch id).hart = s.hart := by
  rw [State.hart, State.endLaunch_cc, State.endLaunch_ch, State.hartAt_endLaunch]
  rfl

/-- What HEXIT_FREE waits for (05_harts R123). -/
theorem hexitFree_ready_iff (k : Hart) : (k.place.placed && k.wait == .hexit && k.q.vq.isEmpty && k.q.cq.isEmpty && k.sbuf.isEmpty) = true
    ↔ k.place.placed = true ∧ k.wait = .hexit ∧ k.queued = false ∧ k.sbuf = [] := by
  simp [Hart.queued_eq_false_iff, and_assoc]

/-- The launch that a hart leaves has one less to wait for. -/
def Launch.leave (l : Launch) : Launch := { l with left := l.left - 1 }

/-- A freed hart that was under no debug step. -/
theorem Hart.freed_quiet {k : Hart} (h : k.dbgStep = false) : k.freed = { k with
    place := { k.place with placed := false, levels := [] }
    store := { k.store with binds := k.store.binds.map fun b => (b.1, { b.2 with bound := false }) }
    wait := .none
    halted := false } := by
  cases k
  cases h
  rfl

/-- HEXIT_FREE of a hart that is ready for its end. -/
theorem execHexitFree_ready {s : State} (hq : s.Quiet) (h : s.hart.place.placed = true ∧ s.hart.wait = .hexit
      ∧ s.hart.queued = false ∧ s.hart.sbuf = []) :
    execHexitFree s = .next ((((s.modTenAt s.hart.place.ten.toNat fun x => { x with prop := x.prop.cut (s.cc, s.ch) }).modHart
      Hart.freed).modLaunch s.hart.place.launch Launch.leave).endLaunch s.hart.place.launch) := by
  simp only [execHexitFree, (hexitFree_ready_iff _).2 h, if_true, State.trace_none s hq.1, State.settleStep_none s hq.2]
  rfl

/-- A state in which every hart of a core is untraced and under no debug step. -/
def State.QuietCore (s : State) (c : Nat) : Prop := ∀ h, s.mgr.traced ≠ some (c, h) ∧ (s.hartAt c h).dbgStep = false

/-- One hart of a quiet core goes on. -/
theorem State.advance_at {t : State} {c : Nat} (hq : t.QuietCore c) (h : Nat) :
    (t.at c h).advance = (t.modHartAt c h fun k => k.retire (k.pc + 4)).at c h := by
  have hq' : (t.at c h).Quiet := hq h
  rw [State.advance, State.complete_eq _ _ hq']
  rfl

/-- A core stays quiet as one of its harts goes on. -/
theorem State.QuietCore.retire {t : State} {c : Nat} (hq : t.QuietCore c) (h : Nat) (pc : Hart → Word) :
    (t.modHartAt c h fun k => k.retire (pc k)).QuietCore c := fun i => by
  refine ⟨(hq i).1, ?_⟩
  by_cases hi : i = h
  · subst hi
    rw [State.hartAt_modHartAt_same]
    exact (hq i).2
  · rw [State.hartAt_modHartAt_ne _ _ _ _ _ _ fun e => hi (Prod.mk.inj e).2]
    exact (hq i).2

/-- Harts of a quiet core go on, each once; the other harts of the core, and memory, are as before. -/
theorem State.hartAt_goOn {c : Nat} {hs : List Nat} (hn : hs.Nodup) (t : State) (hq : t.QuietCore c) :
    let u := hs.foldl (fun t h => (t.at c h).advance) t
    (∀ b, u.byte b = t.byte b)
      ∧ ∀ i, u.hartAt c i = if i ∈ hs then (t.hartAt c i).retire ((t.hartAt c i).pc + 4) else t.hartAt c i := by
  induction hs generalizing t with
  | nil => exact ⟨fun _ => rfl, fun _ => rfl⟩
  | cons h r ih =>
    obtain ⟨hr, hn⟩ := List.nodup_cons.1 hn
    dsimp only
    rw [List.foldl_cons, State.advance_at hq]
    obtain ⟨hb, hh⟩ := ih hn ((t.modHartAt c h fun k => k.retire (k.pc + 4)).at c h) (hq.retire h fun k => k.pc + 4)
    refine ⟨hb, fun i => (hh i).trans ?_⟩
    have hat : ((t.modHartAt c h fun k => k.retire (k.pc + 4)).at c h).hartAt c i
        = (t.modHartAt c h fun k => k.retire (k.pc + 4)).hartAt c i := rfl
    rw [hat]
    by_cases hi : i = h
    · subst hi
      rw [if_neg hr, if_pos List.mem_cons_self, State.hartAt_modHartAt_same]
    · rw [State.hartAt_modHartAt_ne _ _ _ _ _ _ fun e => hi (Prod.mk.inj e).2]
      simp only [List.mem_cons, hi, false_or]

end Sys2Proof.Machine

/-! The family "Harts": O29. -/
namespace Sys2Proof
open Machine

/-- Settles O29: HEXIT and HBAR only set the wait; HEXIT_FREE changes its own hart and its launch, and HBAR_RELEASE moves each
hart of the launch on, once. -/
theorem exitAndBarrier : Obligations.ExitAndBarrier := by
  unfold Obligations.ExitAndBarrier
  intro s hq
  refine ⟨s.hart.queued_eq_false_iff, s.memoryQueued_eq_false_iff, s.core.barrierFull_iff, fun hk => ?_, fun hm hb => ?_,
    fun hp hw hk hb => ?_, fun h => ?_, fun h => ?_, fun hp hw hf ht hd hn => ?_⟩
  · have e : exec .hexit s = .next (s.modHart fun k => { k with wait := .hexit }) := by
      refine if_neg ?_
      simp [hk]
    exact ⟨_, e, State.sameElse_modHart s _, State.hart_modHart s _⟩
  · have e : exec .hbar s = .next (s.modHart fun k => { k with wait := .hbar }) := by
      refine (if_neg ?_).trans ?_
      · simp [hm]
      · simp [hb]
    exact ⟨_, e, State.sameElse_modHart s _, State.hart_modHart s _⟩
  · refine ⟨_, execHexitFree_ready hq ⟨hp, hw, hk, hb⟩, ?_, fun b => ?_, fun c h n => ?_, ?_⟩
    · rw [State.hart_endLaunch, State.hart_modLaunch, State.hart_modHart]
      exact Hart.freed_quiet hq.2
    · rw [State.byte, State.endLaunch_mem]
      rfl
    · rw [State.hartAt_endLaunch]
      exact State.hartAt_modHartAt_ne _ _ _ _ _ _ n
    · rw [State.endLaunch_launches]
      rfl
  · refine if_neg ?_
    rw [hexitFree_ready_iff]
    rintro ⟨-, hw, hk, hb⟩
    rcases h with h | h | h
    · exact h hw
    · exact h hb
    · simp [hk] at h
  · refine if_neg ?_
    simp [h]
  · have hready : (s.hart.place.placed && s.hart.wait == .hbar && s.core.barrierFull s.hart.place.launch) = true := by
      simp [hp, hw, hf]
    have hcore : s.QuietCore s.cc := fun h => ⟨ht h, by
      rcases mget_mem_or Hart.init s.core.harts h with e | ⟨p, hp, e⟩
      · exact (congrArg Hart.dbgStep e).trans rfl
      · exact (congrArg Hart.dbgStep e.symm).trans (hd p hp)⟩
    obtain ⟨hb, hh⟩ := State.hartAt_goOn ((List.filter_sublist.map Prod.fst).nodup hn) s hcore
    refine ⟨_, if_pos hready, rfl, rfl, hb, fun p hp => (hh p.1).trans ?_⟩
    have hself : s.hartAt s.cc p.1 = p.2 := mget_eq_of_mem _ hn hp
    have hmem : p.1 ∈ (s.core.harts.filter fun p => p.2.place.placed && p.2.place.launch == s.hart.place.launch).map Prod.fst
        ↔ p.2.place.placed = true ∧ p.2.place.launch = s.hart.place.launch := by
      rw [List.mem_map]
      constructor
      · rintro ⟨q, hq, e⟩
        obtain ⟨hq, hl⟩ := List.mem_filter.1 hq
        have : q.2 = p.2 := by rw [← mget_eq_of_mem Hart.init hn hq, e, mget_eq_of_mem Hart.init hn hp]
        simpa [this] using hl
      · exact fun h => ⟨p, List.mem_filter.2 ⟨hp, by simp [h]⟩, rfl⟩
    simp only [hself, hmem]

end Sys2Proof

/-! SUPPORT. Legal shapes (05_harts R104, R106, R113): what a change of a hart, of a core or of a tenancy's block leaves of
them. -/

namespace Sys2Proof.Machine

/-! ### Shapes -/

/-- What legality looks at in a hart: NREG and H. Its equations are proved by `(rfl)`, so that `simp` rewrites with them and does
not take them for steps of computation, which it cannot use for a condition of another lemma. -/
def Hart.shape (k : Hart) : Word × BitVec 8 := (k.cfg.nreg, k.place.h)

@[simp] theorem Hart.shape_mk (pc : Word) (sregs : Vector Word 32) (trap : TrapRegs) (vec : VecRegs) (cfg : Cfg) (store : VecStore)
    (q : Queues) (place : Place) (lmbase : BitVec 13) (lmsize : BitVec 14) (ptroot : Word) (inbox : Inbox) (ecap : BitVec 7)
    (sbuf : List SBuf) (wait : SWait) (farms : Nat) (halted dbgStep : Bool) :
    Hart.shape ⟨pc, sregs, trap, vec, cfg, store, q, place, lmbase, lmsize, ptroot, inbox, ecap, sbuf, wait, farms, halted, dbgStep⟩
      = (cfg.nreg, place.h) := (rfl)

@[simp] theorem Hart.shape_eta (k : Hart) : (k.cfg.nreg, k.place.h) = k.shape := (rfl)

theorem Hart.legal_congr {k l : Hart} (h : k.shape = l.shape) (hl : l.legal) : k.legal := by
  obtain ⟨hn, hh⟩ := Prod.mk.inj h
  rw [Hart.legal, hn, hh]
  exact hl

theorem Hart.legal_init : Hart.init.legal := ⟨.inr (.inr rfl), .inl rfl⟩

/-- What legality looks at in a tenancy's block: its queue, and whether the head has been checked. -/
def Ten.shape (x : Ten) : List Desc × Bool := (x.lq, x.checked)

@[simp] theorem Ten.shape_mk (lq : List Desc) (checked : Bool) (staging : List Word) (trapvec : Word) (intstat : BitVec 3)
    (intmask erraddr : Word) (classes : Vector SliceClass 8) (prop : Propolis) (attnonce : Vector Word 4) (attrep : List Word)
    (session token : Bool) (winbase winlim : Vector Word 4) (winSet : Bool) (wins : List (Nat × Nat × Nat)) :
    Ten.shape ⟨lq, checked, staging, trapvec, intstat, intmask, erraddr, classes, prop, attnonce, attrep, session, token, winbase,
      winlim, winSet, wins⟩ = (lq, checked) := (rfl)

@[simp] theorem Ten.shape_eta (x : Ten) : (x.lq, x.checked) = x.shape := (rfl)

/-- A descriptor whose H and NREG are legal (05_harts R104). -/
def Desc.legal (d : Desc) : Prop :=
  (d.h = 1 ∨ d.h = 2 ∨ d.h = 4 ∨ d.h = 8) ∧ (d.f 1 8 8 = 8 ∨ d.f 1 8 8 = 16 ∨ d.f 1 8 8 = 32)

/-- A queue with a checked head begins with a legal descriptor. -/
def queueOk (q : List Desc × Bool) : Prop := q.2 = true → ∃ d r, q.1 = d :: r ∧ d.legal

/-! ### The shapes of a state -/

/-- The shapes of the harts of a core, and that of a hart that it does not list. -/
def Core.shapes (y : Core) : Set (Word × BitVec 8) := {x | Hart.init.shape = x ∨ ∃ q ∈ y.harts, q.2.shape = x}

/-- The shapes of the harts of some cores, and those of a core that is not listed. -/
def hartShapes (cs : List (Nat × Core)) : Set (Word × BitVec 8) := {x | x ∈ Core.init.shapes ∨ ∃ p ∈ cs, x ∈ p.2.shapes}

/-- The shapes of some tenancies' blocks, and that of one that is not listed. -/
def tenShapes (ts : List (Nat × Ten)) : Set (List Desc × Bool) := {x | Ten.init.shape = x ∨ ∃ p ∈ ts, p.2.shape = x}

/-- All that legality looks at in a state. -/
def State.shapes (s : State) : Set (Word × BitVec 8) × Set (List Desc × Bool) := (hartShapes s.cores, tenShapes s.tens)

@[simp] theorem State.shapes_mk (tick : Nat) (agenda : List Turn) (cc ch : Nat) (cores : List (Nat × Core)) (mem dram : List Host.Cell)
    (marks latent : List Nat) (tens : List (Nat × Ten)) (launches : List Launch) (nextId : Nat) (fabric : List Msg)
    (engines : List (Nat × Stack)) (mgr : Mgr) (down : List Nat) (msix : List (Nat × Nat)) (out : List Msg) (drains : List Drain) :
    State.shapes ⟨tick, agenda, cc, ch, cores, mem, dram, marks, latent, tens, launches, nextId, fabric, engines, mgr, down, msix, out, drains⟩
      = (hartShapes cores, tenShapes tens) := (rfl)

@[simp] theorem hartShapes_cores (s : State) : hartShapes s.cores = s.shapes.1 := (rfl)
@[simp] theorem tenShapes_tens (s : State) : tenShapes s.tens = s.shapes.2 := (rfl)

/-- A shape that a legal hart has. -/
def legalShape (x : Word × BitVec 8) : Prop := (x.1 = 8 ∨ x.1 = 16 ∨ x.1 = 32) ∧ (x.2 = 1 ∨ x.2 = 2 ∨ x.2 = 4 ∨ x.2 = 8)

theorem Hart.legal_iff (k : Hart) : k.legal ↔ legalShape k.shape := Iff.rfl

theorem State.shapesOk_iff (s : State) : s.shapesOk ↔ (∀ x ∈ s.shapes.1, legalShape x) ∧ ∀ x ∈ s.shapes.2, queueOk x := by
  constructor
  · rintro ⟨hc, ht⟩
    refine ⟨?_, ?_⟩
    · rintro x ((rfl | ⟨q, hq, -⟩) | ⟨p, hp, rfl | ⟨q, hq, rfl⟩⟩)
      · exact Hart.legal_init
      · exact absurd hq List.not_mem_nil
      · exact Hart.legal_init
      · exact hc p hp q hq
    · rintro x (rfl | ⟨p, hp, rfl⟩)
      · exact fun h => absurd h Bool.false_ne_true
      · exact ht p hp
  · rintro ⟨hc, ht⟩
    exact ⟨fun p hp q hq => hc _ (.inr ⟨p, hp, .inr ⟨q, hq, rfl⟩⟩), fun p hp => ht _ (.inr ⟨p, hp, rfl⟩)⟩

/-- A state with the shapes of one that is legal is legal. -/
theorem State.shapesOk.congr {s t : State} (hs : s.shapesOk) (h : t.shapes = s.shapes) : t.shapesOk := by
  rw [State.shapesOk_iff, h]
  exact s.shapesOk_iff.mp hs

/-! ### A listed value replaced -/

theorem mem_mset_same {α : Type} (m : List (Nat × α)) (k : Nat) (v : α) : (k, v) ∈ mset m k v := by
  induction m with
  | nil => exact List.mem_singleton.2 rfl
  | cons p r ih =>
    obtain ⟨j, w⟩ := p
    unfold mset
    split
    · exact List.mem_cons_self
    · split
      · exact List.mem_cons_self
      · exact List.mem_cons_of_mem _ ih

/-- A member stays where a key is set, but for the value that stood under the key. -/
theorem mem_mset_or_mget {α : Type} (d : α) (m : List (Nat × α)) (k : Nat) (v : α) {p : Nat × α} (h : p ∈ m) :
    p ∈ mset m k v ∨ p.2 = mget d m k := by
  induction m with
  | nil => exact absurd h List.not_mem_nil
  | cons q r ih =>
    obtain ⟨j, w⟩ := q
    unfold mset
    by_cases hlt : k < j
    · rw [if_pos hlt]
      exact .inl (List.mem_cons_of_mem _ h)
    · rw [if_neg hlt]
      by_cases hk : k = j
      · rw [if_pos hk, mget, if_pos hk]
        exact (List.mem_cons.1 h).elim (fun e => .inr (by rw [e])) fun h => .inl (List.mem_cons_of_mem _ h)
      · rw [if_neg hk, mget, if_neg hk]
        exact (List.mem_cons.1 h).elim (fun e => .inl (e ▸ List.mem_cons_self))
          fun h => (ih h).imp_left (List.mem_cons_of_mem _)

/-- Where a value is replaced by one that agrees with it on `P`, the default or a listed value has `P` as before. -/
theorem exists_mset_iff {α : Type} (d : α) (P : α → Prop) (m : List (Nat × α)) (k : Nat) (v : α) (h : P v ↔ P (mget d m k)) :
    (P d ∨ ∃ p ∈ mset m k v, P p.2) ↔ P d ∨ ∃ p ∈ m, P p.2 := by
  constructor
  · rintro (hd | ⟨p, hp, hP⟩)
    · exact .inl hd
    · rcases mem_mset m k v p hp with rfl | hp
      · rcases mget_mem_or d m k with e | ⟨q, hq, e⟩
        · exact .inl (e ▸ h.1 hP)
        · exact .inr ⟨q, hq, e ▸ h.1 hP⟩
      · exact .inr ⟨p, hp, hP⟩
  · rintro (hd | ⟨p, hp, hP⟩)
    · exact .inl hd
    · rcases mem_mset_or_mget d m k v hp with hp | e
      · exact .inr ⟨p, hp, hP⟩
      · exact .inr ⟨_, mem_mset_same m k v, h.2 (e ▸ hP)⟩

/-! ### Changes that keep every shape -/

/-- A core with the harts of another has its shapes. -/
theorem Core.shapes_congr {x y : Core} (h : x.harts = y.harts) : x.shapes = y.shapes := by
  rw [Core.shapes, Core.shapes, h]

section
variable (s : State)

theorem State.shapes_modCoreAt_of (c : Nat) (f : Core → Core) (hf : (f (s.coreAt c)).shapes = (s.coreAt c).shapes) :
    (s.modCoreAt c f).shapes = s.shapes := by
  refine congrArg₂ Prod.mk (Set.ext fun x => ?_) rfl
  exact exists_mset_iff Core.init (fun y => x ∈ y.shapes) s.cores c _ (by rw [hf]; rfl)

@[simp] theorem State.shapes_modCoreAt (c : Nat) (f : Core → Core) (hf : (f (s.coreAt c)).harts = (s.coreAt c).harts) :
    (s.modCoreAt c f).shapes = s.shapes := s.shapes_modCoreAt_of c f (Core.shapes_congr hf)

@[simp] theorem State.shapes_modHartAt (c h : Nat) (f : Hart → Hart) (hf : (f (s.hartAt c h)).shape = (s.hartAt c h).shape) :
    (s.modHartAt c h f).shapes = s.shapes := by
  refine s.shapes_modCoreAt_of c _ (Set.ext fun x => ?_)
  exact exists_mset_iff Hart.init (fun k => k.shape = x) (s.coreAt c).harts h _ (iff_of_eq (congrArg (· = x) hf))

@[simp] theorem State.shapes_modCore (f : Core → Core) (hf : (f s.core).harts = s.core.harts) : (s.modCore f).shapes = s.shapes :=
  s.shapes_modCoreAt _ _ hf

@[simp] theorem State.shapes_modHart (f : Hart → Hart) (hf : (f s.hart).shape = s.hart.shape) : (s.modHart f).shapes = s.shapes :=
  s.shapes_modHartAt _ _ _ hf

@[simp] theorem State.shapes_modTenAt (t : Nat) (f : Ten → Ten) (hf : (f (s.tenAt t)).shape = (s.tenAt t).shape) :
    (s.modTenAt t f).shapes = s.shapes := by
  refine congrArg₂ Prod.mk rfl (Set.ext fun x => ?_)
  exact exists_mset_iff Ten.init (fun y => y.shape = x) s.tens t _ (by rw [hf]; rfl)

@[simp] theorem State.shapes_modStackAt (i : Nat) (f : Stack → Stack) : (s.modStackAt i f).shapes = s.shapes := (rfl)
@[simp] theorem State.shapes_modMgr (f : Mgr → Mgr) : (s.modMgr f).shapes = s.shapes := (rfl)
@[simp] theorem State.shapes_at (c h : Nat) : (s.at c h).shapes = s.shapes := (rfl)

/-- Every core changed without a change of its harts. -/
theorem State.shapes_mapCores (f : Nat × Core → Nat × Core) (hf : ∀ p, (f p).2.harts = p.2.harts) :
    State.shapes { s with cores := s.cores.map f } = s.shapes := by
  refine congrArg₂ Prod.mk (Set.ext fun x => or_congr_right ?_) rfl
  constructor
  · rintro ⟨p, hp, hx⟩
    obtain ⟨q, hq, rfl⟩ := List.mem_map.1 hp
    exact ⟨q, hq, Core.shapes_congr (hf q) ▸ hx⟩
  · rintro ⟨q, hq, hx⟩
    exact ⟨f q, List.mem_map_of_mem hq, (Core.shapes_congr (hf q)).symm ▸ hx⟩

/-- A fold of changes that keep a hart's shape. -/
@[simp] theorem Hart.shape_foldl {β : Type} (f : Hart → β → Hart) (hf : ∀ k b, (f k b).shape = k.shape) (l : List β) (k : Hart) :
    (l.foldl f k).shape = k.shape := foldl_keeps (fun u : Hart => u.shape = k.shape) f (fun _ _ h => (hf _ _).trans h) l k rfl

/-- A fold of steps that keep every shape. -/
@[simp] theorem State.shapes_foldl {β : Type} (f : State → β → State) (hf : ∀ s b, (f s b).shapes = s.shapes) (l : List β) (s : State) :
    (l.foldl f s).shapes = s.shapes := foldl_keeps (fun u : State => u.shapes = s.shapes) f (fun _ _ h => (hf _ _).trans h) l s rfl

end

/-! ### Changes that keep legality -/

section
variable {s : State} (hs : s.shapesOk)
include hs

/-- The harts of a core are legal. -/
theorem State.shapesOk.coreAt (c : Nat) : ∀ q ∈ (s.coreAt c).harts, q.2.legal := by
  rcases mget_mem_or Core.init s.cores c with e | ⟨p, hp, e⟩
  · have hnil : (s.coreAt c).harts = [] := congrArg Core.harts e
    exact fun q hq => absurd (hnil ▸ hq) List.not_mem_nil
  · have : s.coreAt c = p.2 := e.symm
    exact this ▸ hs.harts p hp

theorem State.shapesOk.hartAt (c h : Nat) : (s.hartAt c h).legal := by
  rcases mget_mem_or Hart.init (s.coreAt c).harts h with e | ⟨q, hq, e⟩
  · have : s.hartAt c h = Hart.init := e
    exact this ▸ Hart.legal_init
  · have : s.hartAt c h = q.2 := e.symm
    exact this ▸ hs.coreAt c q hq

theorem State.shapesOk.tenAt (t : Nat) : queueOk (s.tenAt t).shape := by
  rcases mget_mem_or Ten.init s.tens t with e | ⟨p, hp, e⟩
  · have : (s.tenAt t).shape = Ten.init.shape := congrArg Ten.shape e
    rw [this]
    exact fun h => absurd h Bool.false_ne_true
  · have : (s.tenAt t).shape = p.2.shape := congrArg Ten.shape e.symm
    rw [this]
    exact hs.descs p hp

theorem State.shapesOk.modCoreAt (c : Nat) (f : Core → Core) (hf : ∀ q ∈ (f (s.coreAt c)).harts, q.2.legal) :
    (s.modCoreAt c f).shapesOk := by
  refine ⟨fun p hp => ?_, hs.descs⟩
  rcases mem_mset _ _ _ _ hp with rfl | hp
  · exact hf
  · exact hs.harts p hp

theorem State.shapesOk.modHartAt (c h : Nat) (f : Hart → Hart) (hf : (f (s.hartAt c h)).legal) : (s.modHartAt c h f).shapesOk := by
  refine hs.modCoreAt c _ fun q hq => ?_
  rcases mem_mset _ _ _ _ hq with rfl | hq
  · exact hf
  · exact hs.coreAt c q hq

theorem State.shapesOk.modHart (f : Hart → Hart) (hf : (f s.hart).legal) : (s.modHart f).shapesOk := hs.modHartAt _ _ _ hf

theorem State.shapesOk.modTenAt (t : Nat) (f : Ten → Ten) (hf : queueOk (f (s.tenAt t)).shape) : (s.modTenAt t f).shapesOk := by
  refine ⟨hs.harts, fun p hp => ?_⟩
  rcases mem_mset _ _ _ _ hp with rfl | hp
  · exact hf
  · exact hs.descs p hp

end

end Sys2Proof.Machine

/-! SUPPORT. Legal shapes: the operations over the state keep the shape of every hart and of every tenancy's block. -/

namespace Sys2Proof.Machine

section
variable (k : Hart)

@[simp] theorem Hart.shape_modTrap (f : TrapRegs → TrapRegs) : (k.modTrap f).shape = k.shape := (rfl)
@[simp] theorem Hart.shape_modVec (f : VecRegs → VecRegs) : (k.modVec f).shape = k.shape := (rfl)
@[simp] theorem Hart.shape_modStore (f : VecStore → VecStore) : (k.modStore f).shape = k.shape := (rfl)
@[simp] theorem Hart.shape_modQ (f : Queues → Queues) : (k.modQ f).shape = k.shape := (rfl)
@[simp] theorem Hart.shape_granted (rs : List Resource) : (k.granted rs).shape = k.shape := (rfl)
@[simp] theorem Hart.shape_wr (r : BitVec 5) (v : Word) : (k.wr r v).shape = k.shape := by
  unfold Hart.wr
  split <;> simp
@[simp] theorem Hart.shape_showLanded : k.showLanded.shape = k.shape := (rfl)
@[simp] theorem Hart.shape_stopQueues : k.stopQueues.shape = k.shape := by
  unfold Hart.stopQueues
  (repeat' split) <;> simp
@[simp] theorem Hart.shape_halt : k.halt.shape = k.shape := by simp [Hart.halt]
@[simp] theorem Hart.shape_enterTrap (src : BitVec 2) (code : BitVec 8) (tval : Word) :
    (k.enterTrap src code tval).shape = k.shape := by
  simp [Hart.enterTrap]
@[simp] theorem Hart.shape_restart : k.restart.shape = k.shape := (rfl)
@[simp] theorem Hart.shape_returnTrap (vret : Bool) : (k.returnTrap vret).shape = k.shape := by
  unfold Hart.returnTrap
  split <;> simp
@[simp] theorem Hart.shape_dirtyReg (r : Nat) : (k.dirtyReg r).shape = k.shape := (rfl)
@[simp] theorem Hart.shape_dirtyMask (m : Nat) : (k.dirtyMask m).shape = k.shape := (rfl)
@[simp] theorem Hart.shape_dirtyTile (t : Nat) : (k.dirtyTile t).shape = k.shape := (rfl)
@[simp] theorem Hart.shape_putChunk (c : Cfg) (v k' : Nat) (x : Word) : (k.putChunk c v k' x).shape = k.shape := (rfl)
@[simp] theorem Hart.shape_setChunk (c : Cfg) (v k' : Nat) (x : Word) (marked : Bool) :
    (k.setChunk c v k' x marked).shape = k.shape :=
  (rfl)
@[simp] theorem Hart.shape_setElem (c : Cfg) (v w e p : Nat) : (k.setElem c v w e p).shape = k.shape := (rfl)
@[simp] theorem Hart.shape_unbind (m : Nat) : (k.unbind m).shape = k.shape := (rfl)
@[simp] theorem Hart.shape_setMaskChunk (m k' : Nat) (x : Word) : (k.setMaskChunk m k' x).shape = k.shape := (rfl)
@[simp] theorem Hart.shape_setWholeMask (m k' : Nat) (x : Word) (marked : Bool) :
    (k.setWholeMask m k' x marked).shape = k.shape :=
  (rfl)
@[simp] theorem Hart.shape_setMaskBit (m e : Nat) (b : Bool) : (k.setMaskBit m e b).shape = k.shape := (rfl)

end

section
variable (y : Core)

@[simp] theorem Core.harts_setLm (i : Nat) (v : Word) : (y.setLm i v).harts = y.harts := (rfl)
@[simp] theorem Core.harts_putLmByte (a : Nat) (v m : Byte) : (y.putLmByte a v m).harts = y.harts := (rfl)
@[simp] theorem Core.harts_markLm (i : Nat) : (y.markLm i).harts = y.harts := (rfl)
@[simp] theorem Core.harts_cleanLm (i : Nat) : (y.cleanLm i).harts = y.harts := (rfl)
@[simp] theorem Core.harts_putLmBytes (a : Nat) (bs : List (Byte × Byte)) : (y.putLmBytes a bs).harts = y.harts := by
  induction bs generalizing y a with
  | nil => rfl
  | cons b r ih => simp [Core.putLmBytes, ih]
@[simp] theorem Core.harts_writeLmWord (a : Nat) (bs : List (Byte × Byte)) : (y.writeLmWord a bs).harts = y.harts := by
  unfold Core.writeLmWord
  (repeat' split) <;> simp
@[simp] theorem Core.harts_writeLm (n a : Nat) (bs : List (Byte × Byte)) : (y.writeLm n a bs).harts = y.harts := by
  induction n generalizing y a bs with
  | zero => rfl
  | succ n ih =>
    unfold Core.writeLm
    split <;> simp [ih]

end

section
variable (s : State)

@[simp] theorem State.shapes_noteGrant (rs : List Resource) : (s.noteGrant rs).shapes = s.shapes := by simp [State.noteGrant]
@[simp] theorem State.shapes_grant (rs : List Resource) : (s.grant rs).shapes = s.shapes := by simp [State.grant]
@[simp] theorem State.shapes_asLevel (system : Bool) : (s.asLevel system).shapes = s.shapes := by simp [State.asLevel]
@[simp] theorem State.shapes_wr (r : BitVec 5) (v : Word) : (s.wr r v).shapes = s.shapes := by simp [State.wr]
@[simp] theorem State.shapes_send (dev : Nat) (m : Msg) : (s.send dev m).shapes = s.shapes := by
  unfold State.send
  (repeat' split) <;> simp
@[simp] theorem State.shapes_freshId : s.freshId.2.shapes = s.shapes := (rfl)
@[simp] theorem State.shapes_markLine (l : Nat) : (s.markLine l).shapes = s.shapes := (rfl)
@[simp] theorem State.shapes_putByte (through : Bool) (pa : Nat) (b : Byte) : (s.putByte through pa b).shapes = s.shapes := (rfl)
@[simp] theorem State.shapes_fillUnit (u : Nat) (img : List (Nat × Byte)) : (s.fillUnit u img).shapes = s.shapes := (rfl)
@[simp] theorem State.shapes_patchByte (pa : Nat) (b : Byte) : (s.patchByte pa b).shapes = s.shapes := by
  unfold State.patchByte
  split <;> simp
@[simp] theorem State.shapes_setCw (leafAt : Nat) (on : Bool) : (s.setCw leafAt on).shapes = s.shapes := by simp [State.setCw]
@[simp] theorem State.shapes_dropLeaf (leafAt : Nat) : (s.dropLeaf leafAt).shapes = s.shapes :=
  State.shapes_mapCores s (fun p => (p.1, { p.2 with tlb := p.2.tlb.filter fun e => e.pteAt != leafAt })) fun _ => rfl
@[simp] theorem State.shapes_raise (t n : Nat) : (s.raise t n).shapes = s.shapes := by
  unfold State.raise
  dsimp only
  (repeat' split) <;> simp
@[simp] theorem State.shapes_failSnapshot (t : Nat) (reason : BitVec 5) : (s.failSnapshot t reason).shapes = s.shapes := by
  simp [State.failSnapshot]
@[simp] theorem State.shapes_copyUnit (t u : Nat) : (s.copyUnit t u).shapes = s.shapes := by
  have h := State.shapes_foldl
    (fun s x => if x.unit = u ∧ !x.drained then (s.setCw x.leafAt true).dropLeaf x.leafAt else s)
    (fun _ _ => by split <;> simp) (s.tenAt t).prop.units s
  unfold State.copyUnit
  dsimp only
  split
  · simp
  · split
    · simp
    · exact (State.shapes_modTenAt _ t _ (rfl)).trans ((State.shapes_fillUnit _ _ _).trans h)
@[simp] theorem State.shapes_mixImage (p : Propolis) (pa : Nat) (v m : Byte) (slot : Nat) :
    (s.mixImage p pa v m slot).shapes = s.shapes := by
  simp [State.mixImage]
@[simp] theorem State.shapes_beforeStore (step : Option Word) (pa : Nat) (v m : Byte) :
    (s.beforeStore step pa v m).shapes = s.shapes := by
  refine State.shapes_foldl _ (fun s p => ?_) _ s
  dsimp only
  (repeat' split) <;> simp
@[simp] theorem State.shapes_putBytes (ctx : StoreCtx) (pa : Nat) (bs : List (Byte × Byte)) :
    (s.putBytes ctx pa bs).shapes = s.shapes := by
  induction bs generalizing s pa with
  | nil => rfl
  | cons b r ih => exact (ih _ _).trans (by simp)
@[simp] theorem State.shapes_cleanLine (l : Nat) : (s.cleanLine l).shapes = s.shapes := (rfl)
@[simp] theorem State.shapes_writeMem (ctx : StoreCtx) (pa : Nat) (u : List (Byte × Byte)) :
    (s.writeMem ctx pa u).shapes = s.shapes := by
  unfold State.writeMem
  dsimp only
  (repeat' split) <;> simp
@[simp] theorem State.shapes_write (ctx : StoreCtx) (a : Acc) : (s.write ctx a).shapes = s.shapes := by
  unfold State.write
  split <;> simp
@[simp] theorem State.shapes_writeAll (ctx : StoreCtx) (as : List Acc) : (s.writeAll ctx as).shapes = s.shapes := by
  simp [State.writeAll]
@[simp] theorem State.shapes_mark (u : Loc) : (s.mark u).shapes = s.shapes := by
  unfold State.mark
  split <;> simp
@[simp] theorem State.shapes_markWalk (c : Nat) (root : Word) (code : BitVec 8) (va : Word) :
    (s.markWalk c root code va).shapes = s.shapes := by
  unfold State.markWalk
  (repeat' split) <;> simp
@[simp] theorem State.shapes_touch (c : Nat) (h : Hart) (va : Word) : (s.touch c h va).shapes = s.shapes := by
  unfold State.touch
  dsimp only
  (repeat' split) <;> simp
@[simp] theorem State.shapes_setDirtyBit (leaf : Nat) : (s.setDirtyBit leaf).shapes = s.shapes := by
  unfold State.setDirtyBit
  dsimp only
  split
  · rfl
  · split
    · rfl
    · exact State.shapes_mapCores s (fun p => (p.1, { p.2 with
        tlb := p.2.tlb.map fun e =>
          if e.pteAt = leaf ∧ e.pte = BitVec.ofNat 64 (s.readMem leaf 8) then { e with pte := e.pte ||| 0x20 } else e })) fun _ => rfl
@[simp] theorem State.shapes_setDirty (ps : List Part) : (s.setDirty ps).shapes = s.shapes :=
  State.shapes_foldl _ (fun _ _ => by (repeat' split) <;> simp) _ s
@[simp] theorem State.shapes_enterTrap (src : BitVec 2) (code : BitVec 8) (tval : Word) :
    (s.enterTrap src code tval).shapes = s.shapes := by
  simp [State.enterTrap]
@[simp] theorem State.shapes_keepBegun (b : Partway) : (s.keepBegun b).shapes = s.shapes := by simp [State.keepBegun]
@[simp] theorem State.shapes_putRound (c : Cfg) (d : Nat) (q : Descr) (e : Nat) (v : Val) :
    (s.putRound c d q e v).shapes = s.shapes := by
  simp [State.putRound]
@[simp] theorem State.shapes_trace (kind : Nat) (addr : Word) : (s.trace kind addr).shapes = s.shapes := by
  unfold State.trace
  dsimp only
  (repeat' split) <;> simp
@[simp] theorem shapes_marks (d : Decider) : (d.marks s).shapes = s.shapes := by simp [Decider.marks]
@[simp] theorem State.shapes_vectorTrap (code : BitVec 8) (tval : Word) (es : List Nat) (vtpc : Word) (e : Option Nat) :
    (s.vectorTrap code tval es vtpc e).shapes = s.shapes := by
  simp [State.vectorTrap]
@[simp] theorem State.shapes_combTrap (code : BitVec 8) (tval vtpc : Word) (e : Option Nat) :
    (s.combTrap code tval vtpc e).shapes = s.shapes := by
  simp [State.combTrap]

end

end Sys2Proof.Machine

/-! SUPPORT. Legal shapes: the run of a convoy (02_stream R50-R55, 14_system R316) keeps them where the meanings of its words do. -/

namespace Sys2Proof.Machine

/-! ### Outcomes -/

section
variable (s : State) (e : Nat) (code : BitVec 8) (tval : Word)

@[simp] theorem VRes.state_ok : (VRes.ok s).state = s := rfl
@[simp] theorem VRes.state_fault : (VRes.fault e code tval s).state = s := rfl
@[simp] theorem VRes.state_stop : (VRes.stop code tval s).state = s := rfl
@[simp] theorem VRes.state_wait : (VRes.wait e s).state = s := rfl
@[simp] theorem VRes.state_after : (VRes.after code tval s).state = s := rfl

end

/-- The state that a convoy leaves, however it ends. -/
def CRes.state : CRes → State
  | .done s | .stopped _ s | .fault _ _ _ _ s | .wait _ s | .after _ _ _ s => s

/-- The shapes that one element leaves, done or failed. -/
def elemHas (S : Set (Word × BitVec 8) × Set (List Desc × Bool)) : Except (BitVec 8 × Word × State) State → Prop
  | .ok s => s.shapes = S
  | .error f => f.2.2.shapes = S

section
variable (S : Set (Word × BitVec 8) × Set (List Desc × Bool))

@[simp] theorem elemHas_ok (s : State) : elemHas S (.ok s) ↔ s.shapes = S := Iff.rfl
@[simp] theorem elemHas_error (f : BitVec 8 × Word × State) : elemHas S (.error f) ↔ f.2.2.shapes = S := Iff.rfl

end

@[simp] theorem markMet_state (s : State) : (markMet s).2.2 = s := rfl

@[simp] theorem shapes_elemLoop {f : Nat → State → Except (BitVec 8 × Word × State) State}
    (hf : ∀ e s, elemHas s.shapes (f e s)) (n e : Nat) (s : State) : (elemLoop f n e s).state.shapes = s.shapes := by
  induction n generalizing e s with
  | zero => rfl
  | succ n ih =>
    have h := hf e s
    unfold elemLoop
    split <;> rename_i hr <;> rw [hr] at h
    · exact (ih (e + 1) _).trans h
    · exact h

@[simp] theorem shapes_elems {f : Nat → State → Except (BitVec 8 × Word × State) State}
    (hf : ∀ e s, elemHas s.shapes (f e s)) (s : State) (lo hi : Nat) : (elems f s lo hi).state.shapes = s.shapes :=
  shapes_elemLoop hf _ _ s

/-! ### Meanings -/

/-- The run of a meaning, and what it puts back of what it packs, keep every shape. -/
structure VMeaning.Keeps (m : VMeaning) : Prop where
  run  : ∀ (s : State) (lo hi : Nat), (m.run s lo hi).state.shapes = s.shapes
  pack : ∀ p, m.pack = some p → ∀ (k : Hart) (n : Nat) (l : Hart), (p.undo k n l).shape = l.shape

theorem VMeaning.Keeps.go {m : VMeaning} (hm : m.Keeps) (s : State) (lo hi : Nat) : (m.go s lo hi).state.shapes = s.shapes := by
  have h := hm.run s
  unfold VMeaning.go
  dsimp only
  generalize (if m.whole then m.len else hi) = hi'
  cases maskMark m s.hart lo hi' with
  | none =>
    dsimp only
    split
    · exact h _ _
    · rfl
  | some e =>
    have hr : (if m.whole ∨ e ≤ lo then .ok s else m.run s lo e).state.shapes = s.shapes := by
      split
      · rfl
      · exact h _ _
    dsimp only
    split
    · rename_i t ht
      rw [ht] at hr
      exact hr
    · exact hr

/-- The words of a convoy keep every shape. -/
def KeepAll (ms : List (VMeaning × Nat)) : Prop := ∀ p ∈ ms, p.1.Keeps

theorem keepAll_cons (p : VMeaning × Nat) (r : List (VMeaning × Nat)) : KeepAll (p :: r) ↔ p.1.Keeps ∧ KeepAll r :=
  List.forall_mem_cons

/-- The state that the first pass answers. -/
def passState : VRes ⊕ (State × Option Decider × List Nat) → State
  | .inl r => r.state
  | .inr p => p.1

section
variable {ms : List (VMeaning × Nat)} (hm : KeepAll ms)
include hm

theorem shapes_passOne (epg stop : Nat) (before : List VMeaning) (d : Option Decider) (cap : Nat) (es : List Nat) (s : State) :
    (passState (passOne epg stop ms before d cap es s)).shapes = s.shapes := by
  induction ms generalizing before d cap es s with
  | nil => rfl
  | cons p r ih =>
    obtain ⟨hp, hr⟩ := (keepAll_cons p r).mp hm
    have h := hp.go s
    unfold passOne
    dsimp only
    split <;> rename_i hgo
    · exact (ih hr _ _ _ _ _).trans (by rw [← h, hgo]; rfl)
    · exact (ih hr _ _ _ _ _).trans (by rw [← h, hgo]; rfl)
    · exact h _ _

theorem shapes_passTwo (d : Decider) (vs : List Nat) (k : Nat) (s : State) : (passTwo d ms vs k s).shapes = s.shapes := by
  induction ms generalizing vs k s with
  | nil => rfl
  | cons p r ih =>
    obtain ⟨hp, hr⟩ := (keepAll_cons p r).mp hm
    have h := hp.go s
    match vs with
    | [] => rfl
    | v :: vs =>
      unfold passTwo
      split
      · refine (ih hr _ _ _).trans ?_
        split <;> simp [h]
      · split
        · exact ih hr _ _ _
        · split
          · rename_i q _ hq
            exact (State.shapes_modHart _ _ (hp.pack q hq _ _ _)).trans ((ih hr _ _ _).trans (h _ _))
          · exact (ih hr _ _ _).trans (h _ _)

theorem shapes_runPart (k : Hart) (stop : Nat) (s : State) : (runPart k s stop ms).state.shapes = s.shapes := by
  have h := shapes_passOne hm (convoyEpg k (ms.map Prod.fst)) stop [] none (2 ^ 32) [] s
  unfold runPart
  dsimp only
  split <;> rename_i hp <;> try rw [hp] at h
  case h_6 => split <;> exact h
  case h_7 => exact shapes_passTwo hm _ _ _ s
  all_goals exact h

end

theorem keepAll_of_mem_splitConvoy {ms : List (VMeaning × Nat)} (hm : KeepAll ms) : ∀ p ∈ splitConvoy ms, KeepAll p := by
  induction ms with
  | nil => simp [splitConvoy]
  | cons q r ih =>
    obtain ⟨hq, hr⟩ := (keepAll_cons q r).mp hm
    have h := ih hr
    unfold splitConvoy
    split
    · exact List.forall_mem_singleton.2 (List.forall_mem_singleton.2 hq)
    · rename_i x y hxy
      rw [hxy, List.forall_mem_cons] at h
      split
      · exact List.forall_mem_cons.2 ⟨List.forall_mem_singleton.2 hq, List.forall_mem_cons.2 h⟩
      · exact List.forall_mem_cons.2 ⟨(keepAll_cons _ _).2 ⟨hq, h.1⟩, h.2⟩

theorem shapes_runParts (k : Hart) (stop : Nat) {ps : List (List (VMeaning × Nat))} (hm : ∀ p ∈ ps, KeepAll p) (before : List Nat)
    (s : State) : (runParts k stop ps before s).state.shapes = s.shapes := by
  induction ps generalizing before s with
  | nil => rfl
  | cons p r ih =>
    obtain ⟨hp, hr⟩ := List.forall_mem_cons.mp hm
    have h := shapes_runPart hp k stop s
    unfold runParts
    dsimp only
    split <;> rename_i hrun <;> rw [hrun] at h
    · exact (ih hr _ _).trans h
    all_goals exact h

/-- The words of a list have meanings that keep every shape. -/
def WordsKeep (ws : List CWord) : Prop := ∀ w ∈ ws, w.2.Keeps

theorem keepAll_feedWords (k : Hart) {ws : List CWord} (hw : WordsKeep ws) (es : List Nat) : KeepAll (feedWords k ws es) := by
  induction ws generalizing es with
  | nil => exact fun _ h => absurd h List.not_mem_nil
  | cons w r ih =>
    obtain ⟨h, hr⟩ := List.forall_mem_cons.mp hw
    exact (keepAll_cons _ _).mpr ⟨⟨h.run, h.pack⟩, ih hr _⟩

theorem shapes_runConvoy (s : State) {ws : List CWord} (hw : WordsKeep ws) (es : List Nat) (stop : Nat) :
    (runConvoy s ws es stop).state.shapes = s.shapes := by
  have hm := keepAll_feedWords s.hart hw es
  unfold runConvoy
  dsimp only
  split
  · refine shapes_runParts _ _ (fun p hp => ?_) _ s
    obtain ⟨m, hmem, rfl⟩ := List.mem_map.mp hp
    simp [KeepAll, hm m hmem]
  · exact shapes_runParts _ _ (keepAll_of_mem_splitConvoy hm) _ s

theorem wordsKeep_resumedWords {ws : List CWord} (hw : WordsKeep ws) (es : List Nat) : WordsKeep (resumedWords ws es) := by
  intro w h
  obtain ⟨⟨x, i⟩, hx, rfl⟩ := List.mem_map.mp h
  have hk := hw x (List.fst_mem_of_mem_zipIdx hx)
  dsimp only
  split
  · exact ⟨hk.run, hk.pack⟩
  · exact hk

/-! ### Outcomes of a step -/

/-- The shapes that an outcome with a next state leaves. -/
def outHas (S : Set (Word × BitVec 8) × Set (List Desc × Bool)) : Out → Prop
  | .next s => s.shapes = S
  | _ => True

section
variable (S : Set (Word × BitVec 8) × Set (List Desc × Bool))

@[simp] theorem outHas_next (s : State) : outHas S (.next s) ↔ s.shapes = S := Iff.rfl
@[simp] theorem outHas_fault (f : Fault) : outHas S (.fault f) := trivial
@[simp] theorem outHas_refused (r : Refusal) : outHas S (.refused r) := trivial

end

/-! ### One word on its own -/

section
variable {m : VM} (hm : ∀ x s, (m x s).Keeps) (s : State) (sreg freg : BitVec 5)
include hm

theorem outHas_runSingle : outHas s.shapes (runSingle m sreg freg s) := by
  have h := shapes_runConvoy s (ws := [(s.capture sreg freg, m (s.capture sreg freg) s)])
    (fun w hw => by rw [List.mem_singleton.mp hw]; exact hm _ _) [] (2 ^ 32)
  unfold runSingle
  dsimp only
  split
  · rfl
  · split
    · simp
    · split <;> rename_i hr <;> rw [hr] at h
      case h_4 | h_5 => exact (State.shapes_vectorTrap _ _ _ _ _ _).trans h
      all_goals exact h

theorem outHas_runComb : outHas s.shapes (runComb m sreg freg s) := by
  have h := (hm (s.capture sreg freg) s).run s 0 (m (s.capture sreg freg) s).len
  unfold runComb
  dsimp only
  split
  · rfl
  · split
    · simp
    · split <;> rename_i hr <;> rw [hr] at h
      case h_1 | h_2 => exact h
      all_goals exact (State.shapes_combTrap _ _ _ _ _).trans h

end

end Sys2Proof.Machine

/-! SUPPORT. Legal shapes: vector loads and stores (08_memory R178-R190) keep them. -/

namespace Sys2Proof.Machine

/-- A meaning that packs nothing keeps every shape where its run does. -/
theorem VMeaning.keeps_of_run {m : VMeaning} (hp : m.pack = none)
    (hr : ∀ (s : State) (lo hi : Nat), (m.run s lo hi).state.shapes = s.shapes) : m.Keeps :=
  ⟨hr, fun p h => by rw [hp] at h; contradiction⟩

/-- A meaning that does element after element. -/
theorem VMeaning.keeps_of_elems {m : VMeaning} {f : Nat → State → Except (BitVec 8 × Word × State) State} (hp : m.pack = none)
    (hm : m.run = elems f) (hf : ∀ e s, elemHas s.shapes (f e s)) : m.Keeps :=
  VMeaning.keeps_of_run hp fun s lo hi => by rw [hm]; exact shapes_elems hf s lo hi

@[simp] theorem WReg.shape_set (w : WReg) (k : Hart) (c : Cfg) (i : Nat) (v : Word) (mk : Bool) : (w.set k c i v mk).shape = k.shape := by
  cases w <;> simp [WReg.set]

section
variable (s : State)

@[simp] theorem State.shapes_touchAll (ps : List (Part × Nat)) : (s.touchAll ps).shapes = s.shapes := by simp [State.touchAll]
@[simp] theorem State.shapes_writeParts (step : Word) (qs : List (Part × Acc)) : (s.writeParts step qs).shapes = s.shapes :=
  State.shapes_foldl _ (fun _ _ => by split <;> simp) _ s
@[simp] theorem State.shapes_putParts (step : Word) (ps : List (Part × Nat)) (v m : Nat) :
    (s.putParts step ps v m).shapes = s.shapes := by
  simp [State.putParts]
@[simp] theorem shapes_stopAt (f : Failure) : (stopAt s f).2.2.shapes = s.shapes := by simp [stopAt]
@[simp] theorem State.shapes_openLines (full : List (Nat × Nat)) (as : List Acc) : (s.openLines full as).shapes = s.shapes :=
  State.shapes_foldl _ (fun _ _ => by split <;> simp) _ s
@[simp] theorem State.shapes_closeLines (full : List (Nat × Nat)) (e : Nat) : (s.closeLines full e).shapes = s.shapes :=
  State.shapes_foldl _ (fun _ _ => by split <;> simp) _ s

theorem State.shapes_checkRead {s : State} {ps : List Part} {f : Failure × State} (h : s.checkRead ps = some f) :
    f.2.shapes = s.shapes := by
  unfold State.checkRead at h
  split at h
  · cases h; rfl
  · split at h
    · cases h; simp
    · cases h

theorem elemHas_loadElem (fm : AForm) (base : Word) (act : Hart → Nat → Bool) (d : BitVec 5) (x : Entry) (e : Nat) :
    elemHas s.shapes (loadElem fm base act d x e s) := by
  unfold loadElem
  split
  · simp
  · split
    · rename_i h
      simp [State.shapes_checkRead h]
    · simp

theorem elemHas_ffElem (pm : Option (BitVec 3)) (base : Word) (dx : BitVec 5) (md : BitVec 3) (x : Entry) (e : Nat) :
    elemHas s.shapes (ffElem pm base dx md x e s) := by
  have h := elemHas_loadElem s .unit base (fun k i => k.active pm i) dx x e
  unfold ffElem
  dsimp only
  split
  · split <;> rename_i hr <;> rw [hr] at h <;> simp only [elemHas_ok, elemHas_error] at h
    · simp [h]
    · split <;> simp [h]
  · simp

theorem elemHas_storeElem (fm : AForm) (run : StoreRun) (base : Word) (act : Hart → Nat → Bool) (a : BitVec 5) (x : Entry) (e : Nat) :
    elemHas s.shapes (storeElem fm run base act a x e s) := by
  unfold storeElem
  split
  · simp
  · split <;> simp

theorem elemHas_vldwChunk (w : WReg) (base : Word) (x : Entry) (i : Nat) : elemHas s.shapes (vldwChunk w base x i s) := by
  unfold vldwChunk
  dsimp only
  split
  · simp
  · split
    · simp
    · split <;> simp

theorem elemHas_vstwChunk (w : WReg) (base : Word) (x : Entry) (full : List (Nat × Nat)) (i : Nat) :
    elemHas s.shapes (vstwChunk w base x full i s) := by
  unfold vstwChunk
  dsimp only
  split
  · simp
  · split
    · simp
    · (repeat' split) <;> simp

end

/-! ### Meanings -/

section
variable (c : Bool) (pm : Option (BitVec 3)) (h : VHdr) (fm : AForm) (d a : BitVec 5) (off : BitVec 16) (w : WReg) (x : Entry) (s : State)

theorem keeps_loadRefM (act ref : Hart → Nat → Bool) : (loadRefM c pm fm d off act ref x s).Keeps :=
  VMeaning.keeps_of_elems rfl rfl fun _ s => by
    split
    · exact elemHas_loadElem ..
    · rfl

theorem keeps_loadM (act : Hart → Nat → Bool) : (loadM c pm fm d off act x s).Keeps := keeps_loadRefM ..

theorem keeps_mVldK (m : BitVec 3) (kf : KForm) : (mVldK c m kf d off x s).Keeps := by
  unfold mVldK
  split
  · have h : (loadM c (some m) (kForm kf) d off (fun _ _ => false) x s).Keeps := keeps_loadM ..
    exact ⟨h.run, h.pack⟩
  · refine VMeaning.keeps_of_run rfl fun s lo hi => ?_
    dsimp only
    split
    · rfl
    · exact (keeps_loadRefM ..).run s lo hi

theorem keeps_mVldff (md : BitVec 3) : (mVldff h d md off x s).Keeps :=
  VMeaning.keeps_of_elems rfl rfl fun _ s => elemHas_ffElem s ..

theorem keeps_storeM (anyOrder : Bool) : (storeM h fm anyOrder a off x s).Keeps :=
  VMeaning.keeps_of_run rfl fun s lo hi => by
    refine shapes_elems (fun e s => ?_) s lo hi
    split
    · exact elemHas_storeElem s ..
    · rfl

theorem keeps_vldwM (mw : List Nat) : (vldwM c w off mw x s).Keeps :=
  VMeaning.keeps_of_elems rfl rfl fun _ s => elemHas_vldwChunk s ..

theorem keeps_vstwM : (vstwM c w off x s).Keeps :=
  VMeaning.keeps_of_run rfl fun s lo hi => shapes_elems (fun _ s => elemHas_vstwChunk s ..) s lo hi

end

end Sys2Proof.Machine

/-! SUPPORT. Legal shapes: vector atomics, peer lane memory, VWAIT, and the collective words and trains (09_order R215-R221,
05_harts R124, 13_collective R294-R302) keep them. -/

namespace Sys2Proof.Machine

section
variable (s : State)


theorem elemHas_vamoElem (op : AmoOp) (base : Word) (d a b : BitVec 5) (ex : Option (BitVec 5)) (x : Entry) (e : Nat) :
    elemHas s.shapes (vamoElem op base d a b ex x e s) := by
  unfold vamoElem
  dsimp only
  split
  · simp
  · split
    · simp
    · split
      · simp
      · split
        · rename_i h
          simp [State.shapes_checkRead h]
        · split <;> simp

theorem elemHas_vldpElem (h : VHdr) (d : BitVec 5) (m : BitVec 3) (b : BitVec 5) (off : BitVec 16) (x : Entry) (e : Nat) :
    elemHas s.shapes (vldpElem h d m b off x e s) := by
  unfold vldpElem
  dsimp only
  split
  · simp
  · split
    · simp
    · split
      · simp
      · split <;> simp

theorem elemHas_vstpElem (h : VHdr) (a : BitVec 5) (m : BitVec 3) (b : BitVec 5) (off : BitVec 16) (x : Entry) (lo e : Nat) :
    elemHas s.shapes (vstpElem h a m b off x lo e s) := by
  unfold vstpElem
  dsimp only
  split
  · simp
  · split
    · simp
    · split
      · simp
      · split <;> simp

/-- The state that a read pass of VWAIT leaves. -/
def passHas (S : Set (Word × BitVec 8) × Set (List Desc × Bool)) :
    Except (Nat × BitVec 8 × Word × State) (List Nat × State) → Prop
  | .ok p => p.2.shapes = S
  | .error f => f.2.2.2.shapes = S

theorem passHas_vwaitPass (d a : BitVec 5) (x : Entry) (es met : List Nat) : passHas s.shapes (vwaitPass d a x es met s) := by
  induction es generalizing met s with
  | nil => rfl
  | cons e r ih =>
    unfold vwaitPass
    dsimp only
    split
    · rfl
    · split
      · rfl
      · split
        · exact shapes_stopAt s _
        · split
          · rename_i h
            exact State.shapes_checkRead h
          · rename_i ps _ _ _
            have h := ih (s.touchAll ps)
            rw [State.shapes_touchAll] at h
            exact h _

@[simp] theorem shapes_vwaitResult (h : VHdr) (m : BitVec 3) (x : Entry) (met : List Nat) :
    (vwaitResult h m x met s).shapes = s.shapes := by
  simp [vwaitResult]

theorem outHas_runWaiting (i : Instr) {m : VM} (hm : ∀ x s, (m x s).Keeps) (sreg freg : BitVec 5) :
    outHas s.shapes (runWaiting i m sreg freg s) := by
  unfold runWaiting
  split
  · rfl
  · dsimp only
    generalize ({ s.capture sreg freg with word := (encode64 i).getD 0 } : Entry) = x
    have h := shapes_runConvoy s (ws := [(x, m x s)]) (fun w hw => by rw [List.mem_singleton.mp hw]; exact hm _ _) [] (2 ^ 32)
    split
    · simp
    · split <;> rename_i hr <;> rw [hr] at h
      case h_1 | h_2 => exact h
      case h_3 => exact (State.shapes_modHart _ _ (rfl)).trans h
      all_goals exact (State.shapes_vectorTrap _ _ _ _ _ _).trans h

theorem State.shapes_useGroup {s : State} {handle : Nat} {p : GroupEnt × Nat × State} (h : s.useGroup handle = some p) :
    p.2.2.shapes = s.shapes := by
  unfold State.useGroup at h
  split at h
  · cases h
  · obtain ⟨r, -, rfl⟩ := Option.map_eq_some_iff.1 h
    refine State.shapes_modCore _ _ ?_
    split <;> rfl

@[simp] theorem shapes_sendChunk (d a : BitVec 5) (x : Entry) (w : Win) (g : GroupEnt) (rank id i : Nat) :
    (sendChunk d a x w g rank id i s).shapes = s.shapes := by
  unfold sendChunk
  dsimp only
  split <;> simp

@[simp] theorem shapes_vstCRun (d a : BitVec 5) (off : BitVec 16) (x : Entry) : (vstCRun d a off x s).state.shapes = s.shapes := by
  unfold vstCRun
  dsimp only
  split
  · rfl
  · split
    · split <;> simp
    · rfl
    · split
      · rfl
      · rename_i h
        rw [← State.shapes_useGroup h]
        (repeat' split) <;> simp

theorem elemHas_vldCElem (d : BitVec 5) (a : Word) (x : Entry) (e : Nat) : elemHas s.shapes (vldCElem d a x e s) := by
  unfold vldCElem
  dsimp only
  split
  · simp
  · split
    · rename_i h
      simp [State.shapes_checkRead h]
    · simp

@[simp] theorem shapes_vldCRun (d : BitVec 5) (x : Entry) (w : Win) (g : GroupEnt) (rank fuel lo : Nat) :
    (vldCRun d x w g rank fuel lo s).state.shapes = s.shapes := by
  induction fuel generalizing lo s with
  | zero => rfl
  | succ n ih =>
    unfold vldCRun
    dsimp only
    split
    · rfl
    · split
      · split
        · rfl
        · split
          · have h := shapes_elems (fun e s => elemHas_vldCElem s d w.addr x e) s lo (lo / w.per * w.per + w.per)
            split
            · rename_i t ht
              rw [ht] at h
              exact (ih t _).trans h
            · exact h
          · simp
      · split <;> simp

@[simp] theorem shapes_clearBits (m : BitVec 3) (es : List Nat) : (clearBits m es s).shapes = s.shapes := by
  simp [clearBits]

@[simp] theorem shapes_vstrRun (h : VHdr) (a : BitVec 5) (m : BitVec 3) (b : BitVec 5) (off : BitVec 16) (x : Entry) (lo : Nat) :
    (vstrRun h a m b off x s lo).state.shapes = s.shapes := by
  have send (ts : List (Nat × List TEnt)) (id : Nat) (u : State) :
      (ts.foldl (fun s t => if s.trainReaches t.1 then s.send t.1 (.train (trainMsg x s id t)) else clearBits m (t.2.map TEnt.e) s)
        u).shapes = u.shapes := State.shapes_foldl _ (fun _ _ => by split <;> simp) _ _
  unfold vstrRun
  dsimp only
  split
  · split <;> simp
  · rfl
  · (repeat' split) <;> simp [send]

end

/-! ### Meanings -/

section
variable (c : Bool) (h : VHdr) (d a b : BitVec 5) (m : BitVec 3) (off : BitVec 16) (x : Entry) (s : State)

theorem keeps_vamoM (ex : Option (BitVec 5)) (flt : Bool) (op : AmoOp) : (vamoM h d a b ex off flt op x s).Keeps :=
  VMeaning.keeps_of_elems rfl rfl fun _ s => by
    split
    · exact elemHas_vamoElem s ..
    · rfl

theorem keeps_mVldp : (mVldp h d m b off x s).Keeps :=
  VMeaning.keeps_of_elems rfl rfl fun _ s => elemHas_vldpElem s ..

theorem keeps_mVstp : (mVstp h a m b off x s).Keeps :=
  VMeaning.keeps_of_run rfl fun s lo hi => shapes_elems (fun _ s => elemHas_vstpElem s ..) s lo hi

theorem keeps_mVwait : (mVwait h m d a x s).Keeps :=
  VMeaning.keeps_of_run rfl fun s _ _ => by
    have hp := passHas_vwaitPass s d a x ((vwaitActive h x s.hart).filter fun e => !(metSoFar s).contains e) (metSoFar s)
    unfold mVwait
    dsimp only
    split <;> rename_i hr <;> rw [hr] at hp
    · exact hp
    · split
      · exact (shapes_vwaitResult _ h m x _).trans hp
      · exact (State.shapes_modHart _ _ (rfl)).trans hp

theorem keeps_mVstC : (mVstC c d a off x s).Keeps := VMeaning.keeps_of_run rfl fun s _ _ => shapes_vstCRun s ..

theorem keeps_mVldC : (mVldC c d off x s).Keeps :=
  VMeaning.keeps_of_run rfl fun s lo _ => by
    unfold mVldC
    dsimp only
    split
    · rfl
    · split
      · rfl
      · rename_i hg
        refine (shapes_vldCRun _ ..).trans ?_
        split <;> simp [State.shapes_useGroup hg]

theorem keeps_mVstr : (mVstr h a m b off x s).Keeps := VMeaning.keeps_of_run rfl fun s _ _ => shapes_vstrRun s ..

end

end Sys2Proof.Machine

/-! SUPPORT. Legal shapes: comb words and tiles (10_comb R227-R235), and route and frame words (11_route R249-R259) keep them. -/

namespace Sys2Proof.Machine

section
variable (k : Hart)

@[simp] theorem Hart.shape_setTile (t i j : Nat) (v : BitVec 32) : (k.setTile t i j v).shape = k.shape := by
  simp [Hart.setTile]
@[simp] theorem Hart.shape_putTile (d : BitVec 3) (vs : List Nat) : (k.putTile d vs).shape = k.shape := by
  simp [Hart.putTile]
@[simp] theorem shape_takeRow (d y : BitVec 5) (x : Entry) (core : Core) (w a j : Nat) : (takeRow d y x core w a j k).shape = k.shape := by
  simp [takeRow]

end

section
variable (y : Core)

@[simp] theorem Core.harts_modFrame (f : BitVec 2) (g : Frame → Frame) : (y.modFrame f g).harts = y.harts := (rfl)

/-- A fold of changes that keep a core's harts. -/
@[simp] theorem Core.harts_foldl {β : Type} (f : Core → β → Core) (hf : ∀ y b, (f y b).harts = y.harts) (l : List β) (y : Core) :
    (l.foldl f y).harts = y.harts := foldl_keeps (fun u : Core => u.harts = y.harts) f (fun _ _ h => (hf _ _).trans h) l y rfl

@[simp] theorem Core.harts_putRow (a : Nat) (pre : List Byte) (data : List (BitVec 32 × Bool)) : (y.putRow a pre data).harts = y.harts := by
  unfold Core.putRow
  refine (Core.harts_foldl _ (fun y p => ?_) _ _).trans (Core.harts_writeLm ..)
  split <;> simp

@[simp] theorem harts_laneRead (r : Partway × Core) (p : Nat × Nat × Nat) : (laneRead r p).2.harts = r.2.harts := by
  unfold laneRead
  dsimp only
  split <;> simp

theorem harts_laneReads (ps : List (Nat × Nat × Nat)) (r : Partway × Core) : (ps.foldl laneRead r).2.harts = r.2.harts :=
  foldl_keeps (fun q => q.2.harts = r.2.harts) laneRead (fun _ _ h => (harts_laneRead _ _).trans h) ps r rfl

end

section
variable (s : State)

@[simp] theorem shapes_combMark (r : Nat) : (combMark r s).state.shapes = s.shapes := (rfl)
@[simp] theorem State.shapes_keepTile (b : TileMove) : (s.keepTile b).shapes = s.shapes := by simp [State.keepTile]
@[simp] theorem TileMove.shapes_save (b : TileMove) (step : Word) (n : Nat) : (b.save step s n).shapes = s.shapes := by
  simp [TileMove.save]

theorem TileMove.shapes_load {ea : Word} {s : State} {n : Nat} {b : TileMove} {f : Failure × State}
    (h : TileMove.load ea s n b = .error f) : f.2.shapes = s.shapes := by
  induction n generalizing b with
  | zero => cases h
  | succ n ih =>
    unfold TileMove.load at h
    dsimp only at h
    split at h
    · rename_i hr
      cases h
      exact State.shapes_checkRead hr
    · exact ih h

@[simp] theorem State.shapes_readRows (ps : List (Nat × Nat × Nat)) (lo hi : Nat) (b : Partway) :
    (s.readRows ps lo hi b).shapes = s.shapes :=
  (State.shapes_keepBegun _ _).trans (State.shapes_modCore s _ (harts_laneReads _ _))

@[simp] theorem Partway.shapes_ends (b : Partway) {go : Core → State} (hg : ∀ y, (go y).shapes = s.shapes) :
    (b.ends s go).state.shapes = s.shapes := by
  unfold Partway.ends
  split
  · rfl
  · exact hg _

@[simp] theorem shapes_handOff (fr gen : BitVec 2) (a : BitVec 5) (x : Entry) (w : Nat) (p : Nat × Nat × Nat) :
    (handOff fr gen a x w p s).shapes = s.shapes := by
  unfold handOff
  dsimp only
  split <;> simp

@[simp] theorem shapes_routeRun (pm : Option (BitVec 3)) (fr : BitVec 2) (a b y : BitVec 5) (x : Entry) :
    (routeRun pm fr a b y x s).shapes = s.shapes := by
  simp [routeRun]

@[simp] theorem shapes_rrecvWrite (d y a : BitVec 5) (x : Entry) (n : Nat) (core : Core) :
    (rrecvWrite d y a x n core s).shapes = s.shapes := by
  simp [rrecvWrite]

@[simp] theorem shapes_rrecvTake (d y a : BitVec 5) (x : Entry) : (rrecvTake d y a x s).state.shapes = s.shapes := by
  unfold rrecvTake
  dsimp only
  split <;> simp

@[simp] theorem shapes_returnRow (a y : BitVec 5) (x : Entry) (w j : Nat) : (returnRow a y x w j s).shapes = s.shapes := by
  unfold returnRow
  dsimp only
  (repeat' split) <;> simp

@[simp] theorem shapes_freadWrite (f : Frame) (d y : BitVec 5) (fr : BitVec 2) (x : Entry) (core : Core) :
    (freadWrite f d y fr x core s).shapes = s.shapes := by
  refine (State.shapes_modCore _ _ (Core.harts_modFrame ..)).trans (State.shapes_modHart _ _ (Hart.shape_foldl _ (fun k i => ?_) _ _))
  simp

end

/-! ### Meanings -/

section
variable (x : Entry) (s : State)

theorem keeps_mCtri (d : BitVec 3) (a b y sa sb : BitVec 5) : (mCtri d a b y sa sb x s).Keeps :=
  VMeaning.keeps_of_run rfl fun s _ _ => by
    unfold mCtri
    dsimp only
    split <;> simp

theorem keeps_mCzero (d : BitVec 3) : (mCzero d x s).Keeps := VMeaning.keeps_of_run rfl fun s _ _ => by simp [mCzero]

theorem keeps_cgetM (tr : Bool) (d : BitVec 5) (a : BitVec 3) (i0 nr j0 nc : BitVec 5) : (cgetM tr d a i0 nr j0 nc x s).Keeps :=
  VMeaning.keeps_of_run rfl fun s _ _ => by simp [cgetM]

theorem keeps_mCput (d : BitVec 3) (a i0 nr j0 nc : BitVec 5) : (mCput d a i0 nr j0 nc x s).Keeps :=
  VMeaning.keeps_of_run rfl fun s _ _ => by
    unfold mCput
    dsimp only
    split <;> simp

theorem keeps_mCshp : (mCshp x s).Keeps := VMeaning.keeps_of_run rfl fun s _ _ => by simp [mCshp]

theorem keeps_mTsave (a : BitVec 3) (off : BitVec 16) : (mTsave a off x s).Keeps :=
  VMeaning.keeps_of_run rfl fun s lo hi => by
    unfold mTsave
    dsimp only
    split
    · split <;> simp
    · split
      · rfl
      · split
        · simp
        · rfl
        · split <;> simp

theorem keeps_mTload (d : BitVec 3) (off : BitVec 16) : (mTload d off x s).Keeps :=
  VMeaning.keeps_of_run rfl fun s lo hi => by
    have go (b : TileMove) (u : State) :
        (match b.load (baseOf x off) u (min hi tileLines - lo) with
          | .error (f, s) => VRes.stop f.1 f.2 s
          | .ok b => .ok (if hi ≤ tileLines then u.keepTile b else u.modHart fun k => k.putTile d b.vals)).state.shapes = u.shapes := by
      split
      · rename_i h
        exact TileMove.shapes_load h
      · split <;> simp
    unfold mTload
    dsimp only
    split
    · exact go _ _
    · split
      · rfl
      · split
        · simp
        · split
          · rename_i h
            exact State.shapes_checkRead h
          · rfl
          · exact (go _ _).trans (by simp)

theorem keeps_mRtset (c : Bool) (a : BitVec 5) : (mRtset c a x s).Keeps := VMeaning.keeps_of_run rfl fun s _ _ => by simp [mRtset]

theorem keeps_mRoute (h : VHdr) (fr : BitVec 2) (a b y : BitVec 5) : (mRoute h fr a b y x s).Keeps :=
  VMeaning.keeps_of_run rfl fun s _ _ => shapes_routeRun s ..

theorem keeps_mRrecv (c : Bool) (d y a : BitVec 5) : (mRrecv c d y a x s).Keeps :=
  VMeaning.keeps_of_run rfl fun s lo hi => by
    unfold mRrecv
    dsimp only
    (repeat' split) <;> simp

theorem keeps_mRret (h : VHdr) (a y : BitVec 5) : (mRret h a y x s).Keeps := VMeaning.keeps_of_run rfl fun s _ _ => by simp [mRret]

theorem keeps_mFwait (c : Bool) (d : BitVec 5) (fr : BitVec 2) : (mFwait c d fr x s).Keeps :=
  VMeaning.keeps_of_run rfl fun s _ _ => by
    unfold mFwait
    dsimp only
    split <;> simp

theorem keeps_mFread (c : Bool) (d y : BitVec 5) (fr : BitVec 2) : (mFread c d y fr x s).Keeps :=
  VMeaning.keeps_of_run rfl fun s lo hi => by
    unfold mFread
    dsimp only
    (repeat' split) <;> simp

end

end Sys2Proof.Machine

/-! SUPPORT. Legal shapes: engine commands, and the work of the copy channels and the stack engines (12_engines R265-R291), keep
them. -/

namespace Sys2Proof.Machine

section
variable (k : Hart)

@[simp] theorem Hart.shape_clearMask (m n : Nat) : (k.clearMask m n).shape = k.shape := by simp [Hart.clearMask]
@[simp] theorem Hart.shape_bind (m : Nat) (r : BindRec) : (k.bind m r).shape = k.shape := by simp [Hart.bind]
@[simp] theorem Hart.shape_land (cmd : CopyCmd) (m j : Nat) (last : Bool) : (k.land cmd m j last).shape = k.shape := by
  unfold Hart.land
  split
  · rfl
  · (repeat' split) <;> simp

end

@[simp] theorem Core.harts_modChan (y : Core) (n : BitVec 2) (f : Chan → Chan) : (y.modChan n f).harts = y.harts := (rfl)

section
variable (s : State)

@[simp] theorem State.shapes_dirtyPieces (ps : List Piece) : (s.dirtyPieces ps).shapes = s.shapes :=
  State.shapes_foldl _ (fun _ _ => by (repeat' split) <;> simp) _ s
@[simp] theorem State.shapes_recall (rs : List Run) : (s.recall rs).shapes = s.shapes := (rfl)

@[simp] theorem State.shapes_putRuns (through : Run → Bool) (step : Word) (dst : List Run) (bs : List Byte) (bad : List Bool) :
    (s.putRuns through step dst bs bad).1.shapes = s.shapes := by
  refine (State.shapes_foldl _ (fun s p => ?_) _ _).trans ?_
  · split <;> simp
  · simp

@[simp] theorem State.shapes_getRuns (dram : Bool) (src : List Run) : (s.getRuns dram src).2.2.shapes = s.shapes :=
  State.shapes_foldl _ (fun _ _ => by split <;> simp) _ s

@[simp] theorem shapes_acceptCard (q : Slot8) (c : CardRanges) (x : Entry) : (acceptCard q c x s).2.shapes = s.shapes := by
  simp [acceptCard]

@[simp] theorem shapes_acceptCopy (q : Slot8) (c : CopyRanges) (x : Entry) : (acceptCopy q c x s).2.shapes = s.shapes := by
  unfold acceptCopy
  dsimp only
  split <;> simp

/-- The marks that the failed walks of a command leave. -/
theorem State.shapes_walkMarks (ps : List Piece) :
    (ps.foldl (fun s p => if p.walk then s.markWalk s.cc s.hart.ptroot 0x1A p.va else s) s).shapes = s.shapes :=
  State.shapes_foldl _ (fun _ _ => by split <;> simp) _ s

@[simp] theorem shapes_enqCommand (stk : Bool) (q : Slot8) (x : Entry) (gone : List Nat) :
    (enqCommand stk q x gone s).2.2.shapes = s.shapes := by
  unfold enqCommand
  dsimp only
  split
  · split
    · exact State.shapes_walkMarks ..
    · exact shapes_acceptCard ..
  · split
    · exact State.shapes_walkMarks ..
    · exact shapes_acceptCopy ..

@[simp] theorem shapes_enqStep (stk : Bool) (d : BitVec 3) (y a : BitVec 5) (x : Entry) (on : Word) (gone : List Nat) (k : Hart) (e : Nat) :
    (enqStep stk d y a x on gone k s e).shapes = s.shapes := by
  unfold enqStep
  split <;> simp

@[simp] theorem shapes_enqRun (stk : Bool) (h : VHdr) (d : BitVec 3) (y a : BitVec 5) (x : Entry) (lo hi : Nat) :
    (enqRun stk h d y a x s lo hi).shapes = s.shapes := by
  unfold enqRun
  dsimp only
  split <;> simp

@[simp] theorem State.shapes_settleCore (c : Nat) : (s.settleCore c).shapes = s.shapes := by
  unfold State.settleCore
  dsimp only
  split <;> simp

@[simp] theorem shapes_copyChunk (ch : BitVec 2) (cmd : CopyCmd) : (copyChunk ch cmd s).shapes = s.shapes := by
  unfold copyChunk
  dsimp only
  generalize hput : (s.getRuns _ _).2.2.putRuns _ _ _ _ _ = put
  have hp : put.1.shapes = s.shapes := by rw [← hput]; simp
  (repeat' split) <;> simp [hp]

@[simp] theorem State.shapes_engineWrite (step : Word) (dst : List Run) (bs : List Byte) (bad : List Bool) :
    (s.engineWrite step dst bs bad).1.shapes = s.shapes := by
  simp [State.engineWrite]

@[simp] theorem shapes_iredRows (rs : List (List Seg)) : (iredRows rs s).2.2.shapes = s.shapes := by
  induction rs generalizing s with
  | nil => rfl
  | cons r rs ih => exact (ih _).trans (by simp)

@[simp] theorem shapes_iredRun (c : Card) (n : Nat) : (iredRun c n s).1.shapes = s.shapes := by
  unfold iredRun
  dsimp only
  split
  · simp
  · split <;> simp

/-- A fold of sub-operations that keep every shape. -/
theorem CardRes.shapes_foldl {β : Type} (f : CardRes → β → CardRes) (hf : ∀ p b, (f p b).1.shapes = p.1.shapes) (l : List β) (p : CardRes) :
    (l.foldl f p).1.shapes = p.1.shapes :=
  foldl_keeps (fun q : CardRes => q.1.shapes = p.1.shapes) f (fun _ _ h => (hf _ _).trans h) l p rfl

@[simp] theorem shapes_cardWork (c : Card) (n : Nat) : (cardWork c n s).1.shapes = s.shapes := by
  unfold cardWork
  split
  · simp
  · split
    · exact CardRes.shapes_foldl _ (fun p i => by simp [rcopyRow]) _ _
    · exact CardRes.shapes_foldl _ (fun p i => by simp [rfillRow]) _ _

@[simp] theorem shapes_runCard (st t : Nat) (c : Card) (n : Nat) : (runCard st t c n s).shapes = s.shapes := by simp [runCard]

@[simp] theorem State.shapes_orPassed (st t : Nat) (u : State) (hu : u.shapes = s.shapes) : (s.orPassed st t u).shapes = s.shapes := by
  unfold State.orPassed
  split <;> simp [hu]

theorem outHas_cardEvent (op : BitVec 8) (st : BitVec 4) : outHas s.shapes (cardEvent op st s) := by
  unfold cardEvent
  split
  · refine (outHas_next _ _).2 ?_
    split <;> simp
  · rfl

theorem outHas_execCardBound (st : BitVec 4) (n : BitVec 7) : outHas s.shapes (execCardBound st n s) := by
  unfold execCardBound
  split
  · refine (outHas_next _ _).2 ?_
    split <;> simp
  · rfl

theorem outHas_execCopyCommand (ch : BitVec 2) : outHas s.shapes (execCopyCommand ch s) := by
  refine (outHas_next _ _).2 ?_
  split <;> simp

theorem outHas_execCopyChunk (ch : BitVec 2) : outHas s.shapes (execCopyChunk ch s) := by
  unfold execCopyChunk
  dsimp only
  split
  · rfl
  · refine (outHas_next _ _).2 ?_
    split <;> simp

end

/-! ### Meanings -/

section
variable (x : Entry) (s : State)

theorem keeps_enqM (stk : Bool) (h : VHdr) (d : BitVec 3) (y a : BitVec 5) : (enqM stk h d y a x s).Keeps :=
  VMeaning.keeps_of_run rfl fun s _ _ => shapes_enqRun s ..

theorem keeps_mCwpw (c : Bool) (n : BitVec 2) : (mCwpw c n x s).Keeps :=
  VMeaning.keeps_of_run rfl fun s _ _ => by
    unfold mCwpw
    dsimp only
    split <;> simp

end

end Sys2Proof.Machine

/-! SUPPORT. Legal shapes: element arithmetic, masks, plural instructions and rearrangement (06_varith R130-R152, 08_memory R191-R199,
07_rearrange R153-R164) keep them, and so does every word of the queues. -/

namespace Sys2Proof.Machine

section
variable (s : State)

theorem elemHas_valueElem (pm : Option (BitVec 3)) (d : BitVec 5) (x : Entry) (os : Nat → State → List Opnd)
    (op : Bool → Nat → List Val → Val) (e : Nat) : elemHas s.shapes (valueElem pm d x os op e s) := by
  unfold valueElem
  split
  · split <;> simp
  · rfl

/-- The shapes that a block leaves, done or failed. -/
def blockHas (S : Set (Word × BitVec 8) × Set (List Desc × Bool)) : Except (BitVec 8 × Word × State × Nat) State → Prop
  | .ok s => s.shapes = S
  | .error f => f.2.2.1.shapes = S

theorem blockHas_quantBlock (h : VHdr) (d y a : BitVec 5) (x : Entry) (j : Nat) : blockHas s.shapes (quantBlock h d y a x j s) := by
  unfold quantBlock
  dsimp only
  split
  · rfl
  · split
    · rfl
    · exact (State.shapes_foldl _ (fun _ _ => State.shapes_putRound ..) _ _).trans (by simp)

theorem shapes_quantBlocks {f : Nat → State → Except (BitVec 8 × Word × State × Nat) State} (hf : ∀ j s, blockHas s.shapes (f j s))
    (n j : Nat) : (quantBlocks f n j s).state.shapes = s.shapes := by
  induction n generalizing j s with
  | zero => rfl
  | succ n ih =>
    have h := hf j s
    unfold quantBlocks
    split <;> rename_i hr <;> rw [hr] at h
    · exact (ih _ _).trans h
    · exact h

end

/-! ### Plural instructions -/

section
variable (p : Plur) (c : PlurAcc) (ij : Nat × Nat)

theorem harts_bankRead (f : Nat → Nat → Option Nat) (opnd : Nat) : (p.bankRead f opnd c ij).core.harts = c.core.harts := by
  unfold Plur.bankRead
  dsimp only
  split
  · simp
  · dsimp only
    split <;> simp

theorem harts_bankStore (v : Nat) : (p.bankStore v c ij).core.harts = c.core.harts := by
  unfold Plur.bankStore
  dsimp only
  (repeat' split) <;> simp

end

@[simp] theorem shape_plurFault (k : Hart) (fails : List (Nat × Nat)) : (plurFault k fails).shape = k.shape := (rfl)

/-- What banks do to a core keeps its harts. -/
def PlurKeeps (act : PlurAcc → Nat × Nat → PlurAcc) : Prop := ∀ c ij, (act c ij).core.harts = c.core.harts

theorem PlurKeeps.foldl {act : PlurAcc → Nat × Nat → PlurAcc} (ha : PlurKeeps act) (l : List (Nat × Nat)) (c : PlurAcc) :
    (l.foldl act c).core.harts = c.core.harts :=
  foldl_keeps (fun q : PlurAcc => q.core.harts = c.core.harts) act (fun _ _ h => (ha _ _).trans h) l c rfl

theorem State.shapes_setCoreAt (s : State) (c : Nat) (y : Core) (hy : y.harts = (s.coreAt c).harts) : (s.setCoreAt c y).shapes = s.shapes :=
  s.shapes_modCoreAt c (fun _ => y) hy

theorem shapes_plurRun {act : PlurAcc → Nat × Nat → PlurAcc} (ha : PlurKeeps act) {fin : PlurAcc → State → VRes}
    (hfin : ∀ r s, (fin r s).state.shapes = s.shapes) (p : Plur) (b : Option Word) (s : State) (lo hi : Nat) :
    (plurRun p b act fin s lo hi).state.shapes = s.shapes := by
  have ends (r : PlurAcc) (hr : r.core.harts = s.core.harts) :
      (if hi < p.rows (s.setCoreAt s.cc r.core).hart b then
        VRes.ok ((s.setCoreAt s.cc r.core).keepBegun { active := 0, fails := r.fails, fresh := r.fresh, vals := r.vals })
      else fin r (s.setCoreAt s.cc r.core)).state.shapes = s.shapes := by
    have ht := State.shapes_setCoreAt s _ _ hr
    split
    · exact (State.shapes_keepBegun _ _).trans ht
    · exact (hfin r _).trans ht
  unfold plurRun
  split
  · rfl
  · refine ends _ ?_
    split <;> exact ha.foldl _ _

/-! ### Meanings -/

section
variable (x : Entry) (s : State)

theorem keeps_valueM (hd : VHdr) (slot : Slot) (d : BitVec 5) (os : List Opnd) (ok : Nat → Bool)
    (op : Bool → Nat → List Val → Val) : (valueM hd slot d os ok op x s).Keeps :=
  VMeaning.keeps_of_elems rfl rfl fun _ s => elemHas_valueElem s ..

theorem keeps_binM (hd : VHdr) (slot : Slot) (d a : BitVec 5) (b : VSrc) (op : Bool → Val → Val → Val) :
    (binM hd slot d a b op x s).Keeps := keeps_valueM ..

theorem keeps_fmaM (hd : VHdr) (d a : BitVec 5) (b : VSrc) (y : BitVec 5) (op : Bool → Val → Val → Val → Val) :
    (fmaM hd d a b y op x s).Keeps := keeps_valueM ..

theorem keeps_unM (hd : VHdr) (slot : Slot) (d a : BitVec 5) (ok : Nat → Bool) (op : Val → Val) :
    (unM hd slot d a ok op x s).Keeps := keeps_valueM ..

theorem keeps_mVsel (h : VHdr) (d a : BitVec 5) (b : VSrc) (m : BitVec 3) : (mVsel h d a b m x s).Keeps :=
  VMeaning.keeps_of_elems rfl rfl fun _ s => elemHas_valueElem s ..

theorem keeps_mVcmp (h : VHdr) (cc : VCond) (d : BitVec 3) (a : BitVec 5) (b : VSrc) : (mVcmp h cc d a b x s).Keeps :=
  VMeaning.keeps_of_elems rfl rfl fun _ s => by
    split
    · split <;> simp
    · rfl

theorem keeps_patM (hd : VHdr) (d : BitVec 5) (os : List Opnd) (bad : Bool) (op : List Nat → Nat) : (patM hd d os bad op x s).Keeps :=
  VMeaning.keeps_of_elems rfl rfl fun _ s => by
    split
    · split <;> simp
    · rfl

theorem keeps_rawM (hd : VHdr) (d : BitVec 5) (os : List Opnd) (op : List Nat → Nat) : (rawM hd d os op x s).Keeps := keeps_patM ..

theorem keeps_bitM (h : VHdr) (d a : BitVec 5) (b : VSrc) (op : Nat → Nat → Nat) : (bitM h d a b op x s).Keeps := keeps_rawM ..

theorem keeps_shiftM (h : VHdr) (d a : BitVec 5) (b : VSrc) (op : Nat → Nat → Int → Nat) : (shiftM h d a b op x s).Keeps := keeps_patM ..

theorem keeps_mVqnt (h : VHdr) (d y a : BitVec 5) : (mVqnt h d y a x s).Keeps :=
  VMeaning.keeps_of_run rfl fun s _ _ => shapes_quantBlocks s (fun _ s => blockHas_quantBlock s ..) _ _

theorem keeps_mVdqnt (h : VHdr) (d a y : BitVec 5) : (mVdqnt h d a y x s).Keeps :=
  VMeaning.keeps_of_elems rfl rfl fun _ s => by
    split
    · dsimp only
      split <;> simp
    · rfl

theorem keeps_maskM (h : VHdr) (d : BitVec 3) (srcs : List (BitVec 3)) (op : Hart → Entry → Nat → Bool) : (maskM h d srcs op x s).Keeps :=
  VMeaning.keeps_of_elems rfl rfl fun _ s => by
    split <;> simp

theorem keeps_maskToScalar (h : VHdr) (d : BitVec 5) (a : BitVec 3) (f : List Nat → Word) : (maskToScalar h d a f x s).Keeps :=
  VMeaning.keeps_of_run rfl fun s _ _ => by simp [maskToScalar]

theorem keeps_redM (h : VHdr) (d a : BitVec 5) (ini : Option (BitVec 5)) (bad : Descr → Bool)
    (res : Descr → Option Nat → List (Option Nat) → Nat) : (redM h d a ini bad res x s).Keeps :=
  VMeaning.keeps_of_run rfl fun s _ _ => by
    unfold redM
    dsimp only
    split <;> simp

theorem keeps_redVal (h : VHdr) (d a : BitVec 5) (ini : Option (BitVec 5)) (ident : Nat → Nat) (op : RedOp) :
    (redVal h d a ini ident op x s).Keeps := keeps_redM ..

theorem keeps_redRaw (h : VHdr) (d a : BitVec 5) (ini : Option (BitVec 5)) (ident : Nat → Nat) (op : Nat → Nat → Nat) :
    (redRaw h d a ini ident op x s).Keeps := keeps_redM ..

theorem keeps_plurWrite (c bad wide : Bool) (sd : Option (BitVec 5)) (rows : Nat) (p : Plur) (b : Option Word)
    {act : PlurAcc → Nat × Nat → PlurAcc} (ha : PlurKeeps act) : (plurM c bad wide sd x rows (plurWrite p b act)).Keeps :=
  VMeaning.keeps_of_run rfl fun s lo hi => by
    dsimp only [plurM, plurWrite]
    refine shapes_plurRun ha (fun r s => ?_) p b s lo hi
    split <;> simp

theorem keeps_mPst (c : Bool) (a b y : BitVec 5) (rn : Option (BitVec 5)) (w : Bool) : (mPst c a b y rn w x s).Keeps :=
  keeps_plurWrite x c false w none _ _ none fun c ij => harts_bankStore _ c ij _

theorem keeps_popM (c : Bool) (a b y : BitVec 5) (rn : Option (BitVec 5)) (row w : Bool) (op : Descr → Bool → Nat → Nat → Nat) :
    (popM c a b y rn row w op x s).Keeps :=
  keeps_plurWrite x c false w none _ _ _ fun c ij => harts_bankRead _ c ij _ _

theorem keeps_pldM (c : Bool) (d a y : BitVec 5) (rn : Option (BitVec 5)) (w usesFd : Bool)
    (comb : Descr → Bool → Nat → List Nat → Word) : (pldM c d a y rn w usesFd comb x s).Keeps :=
  VMeaning.keeps_of_run rfl fun s lo hi => by
    dsimp only [pldM, plurM]
    refine shapes_plurRun (fun c ij => harts_bankRead _ c ij _ _) (fun r s => ?_) _ none s lo hi
    (repeat' split) <;> simp

/-- A rearrangement, whose steps each write an element or meet a mark. -/
theorem VMeaning.keeps_of_steps {m : VMeaning} {step : Nat → State → Option State} (hp : m.pack = none)
    (hm : m.run = elems fun e s => match step e s with
      | some t => .ok t
      | none => .error (markMet s))
    (hs : ∀ e s t, step e s = some t → t.shapes = s.shapes) : m.Keeps :=
  VMeaning.keeps_of_elems hp hm fun e s => by
    split
    · rename_i h
      exact hs _ _ _ h
    · rfl

theorem shapes_moveElem {x : Entry} {d a : BitVec 5} {e : Nat} {i : Int} {s t : State} (h : moveElem x d a e i s = some t) :
    t.shapes = s.shapes := by
  obtain ⟨p, -, rfl⟩ := Option.map_eq_some_iff.1 h
  simp [moveWrite]

/-- A step that copies an element where a condition holds, and else does nothing. -/
theorem shapes_moveElem_ite {p : Prop} [Decidable p] {x : Entry} {d a : BitVec 5} {e : Nat} {i : Int} {s t : State}
    (h : (if p then moveElem x d a e i s else some s) = some t) : t.shapes = s.shapes := by
  split at h
  · exact shapes_moveElem h
  · cases h; rfl

theorem keeps_mVup (h : VHdr) (d a : BitVec 5) : (mVup h d a x s).Keeps :=
  VMeaning.keeps_of_steps rfl rfl fun _ _ _ ht => shapes_moveElem_ite ht

theorem keeps_mVdn (h : VHdr) (d a : BitVec 5) : (mVdn h d a x s).Keeps :=
  VMeaning.keeps_of_steps rfl rfl fun _ _ _ ht => shapes_moveElem_ite ht

theorem keeps_mVgathr (h : VHdr) (d a b : BitVec 5) : (mVgathr h d a b x s).Keeps :=
  VMeaning.keeps_of_steps rfl rfl fun e s t ht => by
    dsimp only at ht
    split at ht
    · split at ht
      · cases ht
      · exact shapes_moveElem ht
    · cases ht; rfl

@[simp] theorem shape_unpackFrom (d : BitVec 5) (old : Hart) (i n : Nat) (k : Hart) : (unpackFrom x d old i n k).shape = k.shape := by
  simp [unpackFrom]

theorem keeps_mVpack (c : Bool) (d a : BitVec 5) (m : BitVec 3) : (mVpack c d a m x s).Keeps := by
  have hrun : (VMeaning.Keeps { mVpack c d a m x s with pack := none }) :=
    VMeaning.keeps_of_steps rfl rfl fun _ _ _ ht => shapes_moveElem_ite ht
  refine ⟨hrun.run, fun p hp k n l => ?_⟩
  cases hp
  exact shape_unpackFrom x d k _ _ l

theorem keeps_mVunpk (c : Bool) (d a : BitVec 5) (m : BitVec 3) : (mVunpk c d a m x s).Keeps :=
  VMeaning.keeps_of_steps rfl rfl fun _ _ _ ht => shapes_moveElem_ite ht

theorem keeps_reshM (c : Bool) (d a : BitVec 5) (src : Shape → Nat → Nat) (dim : Shape → Nat) : (reshM c d a src dim x s).Keeps :=
  VMeaning.keeps_of_steps rfl rfl fun e s t ht => by
    dsimp only at ht
    split at ht
    · exact shapes_moveElem ht
    · cases ht; rfl

theorem shapes_gtrRow {d a : BitVec 5} {col row : Nat} {s t : State} (h : gtrRow x d a col row s = some t) : t.shapes = s.shapes := by
  unfold gtrRow at h
  dsimp only at h
  split at h
  · cases h; simp
  · split at h
    · cases h
    · cases h; simp

theorem keeps_mVgtr (c : Bool) (d a : BitVec 5) : (mVgtr c d a x s).Keeps :=
  VMeaning.keeps_of_steps rfl rfl fun e s t ht => by
    generalize List.range 8 = l at ht
    induction l generalizing s with
    | nil => cases ht; rfl
    | cons r l ih =>
      obtain ⟨u, hu, ht⟩ := Option.bind_eq_some_iff.1 ht
      exact (ih u ht).trans (shapes_gtrRow x hu)

/-- A word that does nothing. -/
theorem keeps_neutral {m : VMeaning} (hp : m.pack = none) (hr : m.run = fun s _ _ => .ok s) : m.Keeps :=
  VMeaning.keeps_of_run hp fun s _ _ => by rw [hr]; rfl

end

end Sys2Proof.Machine

/-! SUPPORT. Legal shapes: every word of the queues keeps them, whatever way it runs (02_stream R41-R57). -/

namespace Sys2Proof.Machine

/-- The words that may wait at the head of the vector queue. -/
def mayWait : Instr → Bool
  | .vwait .. | .vstC .. | .vldC .. | .vstr .. | .rrecv .. | .fwait .. | .cwpw .. => true
  | _ => false

section
variable {i : Instr} {v : VInfo} (h : vinfo i = some v) (s : State)
include h

/-- A vector word that never waits runs as a convoy of its own. -/
theorem exec_vector (hc : v.comb = false) (hw : mayWait i = false) : exec i s = runSingle v.vm v.sreg v.freg s := by
  cases i <;> cases h <;> cases hc <;> cases hw <;> rfl

/-- A vector word that may wait. -/
theorem exec_waiting (hc : v.comb = false) (hw : mayWait i = true) : exec i s = runWaiting i v.vm v.sreg v.freg s := by
  cases i <;> cases hw <;> cases h <;> cases hc <;> rfl

/-- A comb word. -/
theorem exec_comb (hc : v.comb = true) : exec i s = runComb v.vm v.sreg v.freg s := by
  cases i <;> cases h <;> cases hc <;> rfl

theorem vinfo_keeps (x : Entry) : (v.vm x s).Keeps := by
  cases i <;> cases h
  all_goals dsimp only
  case vstop | vnop => exact keeps_neutral rfl rfl
  case vadd | vsub | vmul | vdiv | vmin | vmax => exact keeps_binM x s ..
  case vfma | vfms | vfnma => exact keeps_fmaM x s ..
  case vsqrt | vabs | vneg | vcvt | vrcp | vrsqrt | vexp2 | vlog2 => exact keeps_unM x s ..
  case vclamp | vindex => exact keeps_valueM x s ..
  case vsel => exact keeps_mVsel x s ..
  case vcmp => exact keeps_mVcmp x s ..
  case vand | vor | vxor => exact keeps_bitM x s ..
  case vshl | vshr | vshrA => exact keeps_shiftM x s ..
  case vmov | vsplat => exact keeps_rawM x s ..
  case vqnt => exact keeps_mVqnt x s ..
  case vdqnt => exact keeps_mVdqnt x s ..
  case mand | mor | mxor | mandn | mnot | msetLt | msetGe => exact keeps_maskM x s ..
  case mpop | mfirst => exact keeps_maskToScalar x s ..
  case vredSumo | vredSump | vredMax | vredMin => exact keeps_redVal x s ..
  case vredAnd | vredOr | vredXor => exact keeps_redRaw x s ..
  case vup => exact keeps_mVup x s ..
  case vdn => exact keeps_mVdn x s ..
  case vgathr => exact keeps_mVgathr x s ..
  case vpack => exact keeps_mVpack x s ..
  case vunpk => exact keeps_mVunpk x s ..
  case vresh | vreshT | vreshInv => exact keeps_reshM x s ..
  case vgtr => exact keeps_mVgtr x s ..
  case vld | vlds | vldx => exact keeps_loadM ..
  case vldK => exact keeps_mVldK ..
  case vldff => exact keeps_mVldff ..
  case vst | vsts | vstx | vstxo => exact keeps_storeM ..
  case vldw | vldwM => exact keeps_vldwM ..
  case vstw | vstwM => exact keeps_vstwM ..
  case vamoAdd | vamoSwap | vamoCas | vamoAnd | vamoOr | vamoMax | vamoMin => exact keeps_vamoM ..
  case vldp => exact keeps_mVldp ..
  case vstp => exact keeps_mVstp ..
  case vwait => exact keeps_mVwait ..
  case vstC => exact keeps_mVstC ..
  case vldC => exact keeps_mVldC ..
  case vstr => exact keeps_mVstr ..
  case pst => exact keeps_mPst x s ..
  case popAdd | popSub | popMin | popMax | popAnd | popOr | popXor | popMov => exact keeps_popM x s ..
  case pldSum | pldMax | pldMin | pldAnd | pldOr | pldXor | pldCnt => exact keeps_pldM x s ..
  case ctri => exact keeps_mCtri x s ..
  case czero => exact keeps_mCzero x s ..
  case cget | cgetc => exact keeps_cgetM x s ..
  case cput => exact keeps_mCput x s ..
  case cshp => exact keeps_mCshp x s
  case tsave => exact keeps_mTsave x s ..
  case tload => exact keeps_mTload x s ..
  case route => exact keeps_mRoute x s ..
  case rrecv => exact keeps_mRrecv x s ..
  case rret => exact keeps_mRret x s ..
  case fwait => exact keeps_mFwait x s ..
  case fread => exact keeps_mFread x s ..
  case rtset => exact keeps_mRtset x s ..
  case enqStk | enqCpy => exact keeps_enqM x s ..
  case cwpw => exact keeps_mCwpw x s ..

/-- A word of the queues run on its own keeps every shape. -/
theorem outHas_exec_word : outHas s.shapes (exec i s) := by
  cases hc : v.comb with
  | true =>
    rw [exec_comb h s hc]
    exact outHas_runComb (fun x s => vinfo_keeps h s x) s _ _
  | false =>
    cases hw : mayWait i with
    | true =>
      rw [exec_waiting h s hc hw]
      exact outHas_runWaiting s i (fun x s => vinfo_keeps h s x) _ _
    | false =>
      rw [exec_vector h s hc hw]
      exact outHas_runSingle (fun x s => vinfo_keeps h s x) s _ _

end

end Sys2Proof.Machine

/-! SUPPORT. Legal shapes: fetches, and the work of the queues (02_stream R31-R57, 14_system R316), keep them. -/

namespace Sys2Proof.Machine

@[simp] theorem Hart.shape_popComb (k : Hart) : k.popComb.shape = k.shape := by simp [Hart.popComb]
@[simp] theorem Hart.shape_popWords (k : Hart) (n : Nat) : (k.popWords n).shape = k.shape := by simp [Hart.popWords]

/-! ### Fetches -/

section
variable {s : State}

theorem State.shapes_fetch32_ok {va : Word} {r : BitVec 32 × State} (h : s.fetch32 va = .ok r) : r.2.shapes = s.shapes := by
  unfold State.fetch32 at h
  split at h
  · split at h
    · cases h
    · split at h
      · cases h
      · split at h
        · cases h; rfl
        · split at h
          · cases h
          · split at h
            · cases h
            · cases h; simp [Core.cacheWord]
  · cases h

theorem State.shapes_fetch32_error {va : Word} {e : Failure × State} (h : s.fetch32 va = .error e) : e.2.shapes = s.shapes := by
  unfold State.fetch32 at h
  split at h
  · split at h
    · cases h; rfl
    · split at h
      · cases h; rfl
      · split at h
        · cases h
        · split at h
          · cases h; rfl
          · split at h
            · cases h; simp
            · cases h
  · cases h; rfl

theorem State.shapes_fetch64_ok {va : Word} {r : Word × State} (h : s.fetch64 va = .ok r) : r.2.shapes = s.shapes := by
  unfold State.fetch64 at h
  split at h
  · cases h
  · split at h
    · cases h
    · rename_i h1 _ _ _ h2
      cases h
      exact (State.shapes_fetch32_ok h2).trans (State.shapes_fetch32_ok h1)

theorem State.shapes_fetch64_error {va : Word} {e : Failure × State} (h : s.fetch64 va = .error e) : e.2.shapes = s.shapes := by
  unfold State.fetch64 at h
  split at h
  · rename_i h1
    cases h
    exact State.shapes_fetch32_error h1
  · split at h
    · rename_i h1 _ _ _ h2
      cases h
      exact (State.shapes_fetch32_error h2).trans (State.shapes_fetch32_ok h1)
    · cases h

/-- The shapes that a scan leaves, whether it finds the block's end or a trap. -/
theorem State.shapes_scan {block : Word} {fuel : Nat} {va : Word} {ds : List (BitVec 5)} :
    match s.scan block fuel va ds with
    | .ok r => r.2.shapes = s.shapes
    | .error e => e.2.shapes = s.shapes := by
  induction fuel generalizing s va ds with
  | zero => rfl
  | succ n ih =>
    unfold State.scan
    cases hf : s.fetch64 va with
    | error e => exact State.shapes_fetch64_error hf
    | ok r =>
      obtain ⟨w, t⟩ := r
      have ht : t.shapes = s.shapes := State.shapes_fetch64_ok hf
      dsimp only
      by_cases hz : vopOf w = 0
      · rw [if_pos hz]; exact ht
      · rw [if_neg hz]
        by_cases hd : (wordSources w).any ds.contains = true
        · rw [if_pos hd]; exact ht
        · rw [if_neg hd]
          have h := ih (s := t) (va := va + 8) (ds := ds ++ (wordDest w).toList)
          cases hs : t.scan block n (va + 8) (ds ++ (wordDest w).toList) with
          | error e => rw [hs] at h; exact h.trans ht
          | ok r => rw [hs] at h; exact h.trans ht

end

/-! ### Words of the queues -/

@[simp] theorem VRes.state_map (f : State → State) (r : VRes) : (r.map f).state = f r.state := by
  cases r <;> rfl

theorem VMeaning.Keeps.atProgram {m : VMeaning} (hm : m.Keeps) : m.atProgram.Keeps :=
  ⟨fun s lo hi => by simp [VMeaning.atProgram, hm.run], hm.pack⟩

theorem Entry.meaning_keeps (x : Entry) (s : State) : (x.meaning s).Keeps := by
  unfold Entry.meaning
  split
  · rename_i i h
    obtain ⟨j, -, hj⟩ := Option.bind_eq_some_iff.1 h
    split
    · exact (vinfo_keeps hj _ x).atProgram
    · exact vinfo_keeps hj s x
  · exact keeps_neutral rfl rfl

theorem wordsKeep_cwords (xs : List Entry) (s : State) : WordsKeep (xs.map (Entry.cword s)) := by
  intro w hw
  obtain ⟨x, -, rfl⟩ := List.mem_map.1 hw
  exact x.meaning_keeps s

/-- The word that goes on with a grant is one of the words given. -/
theorem nextPiece_keeps {k : Hart} {ws : List CWord} (hw : WordsKeep ws) {p : VMeaning × Nat × Nat} (h : k.nextPiece ws = some p) :
    p.1.Keeps := by
  unfold Hart.nextPiece at h
  dsimp only at h
  split at h
  · cases h
  · obtain ⟨w, hmem, hp⟩ := List.exists_of_findSome?_eq_some h
    split at hp
    · cases hp
    · obtain ⟨hi, -, rfl⟩ := Option.map_eq_some_iff.1 hp
      exact hw w hmem

section
variable (s : State)

@[simp] theorem State.shapes_finishComb : s.finishComb.shapes = s.shapes := by
  unfold State.finishComb
  split
  · rename_i b x _ _ _
    have h := (x.meaning_keeps s).run s b.line (x.meaning s).len
    dsimp only
    split <;> rename_i hr
    · rw [hr] at h
      exact (State.shapes_modHart _ _ (Hart.shape_popComb _)).trans h
    · simp
  · rfl

@[simp] theorem State.shapes_trapVector (code : BitVec 8) (tval : Word) (es : List Nat) (vtpc : Word) (e : Option Nat) :
    (s.trapVector code tval es vtpc e).shapes = s.shapes := by
  simp [State.trapVector]

@[simp] theorem shapes_endConvoy (xs : List Entry) (r : CRes) : (endConvoy xs r).shapes = r.state.shapes := by
  unfold endConvoy
  dsimp only
  split <;> simp [CRes.state]

theorem shapes_convoy (xs : List Entry) (t : State) (es : List Nat) (stop : Nat) :
    (runConvoy s (xs.map (Entry.cword t)) es stop).state.shapes = s.shapes := shapes_runConvoy s (wordsKeep_cwords xs t) es stop

@[simp] theorem shapes_dispatchHead (xs : List Entry) (upTo : Nat) : (dispatchHead xs upTo s).shapes = s.shapes := by
  have took (p : Prop) [Decidable p] (rs : List Resource) (t : State) : (if p then t else t.grant rs).shapes = t.shapes := by
    split <;> simp
  have begin (p : Prop) [Decidable p] (addr : Word) (rs : List Resource) : ((if p then s.trace 1 addr else s).grant rs).shapes = s.shapes := by
    split <;> simp
  unfold dispatchHead
  dsimp only
  split
  · simp
  · split
    · rename_i m lo hi hp
      refine (took _ _ _).trans ((State.shapes_modHart _ _ (rfl)).trans ?_)
      exact ((nextPiece_keeps (wordsKeep_cwords xs s) hp).run _ _ _).trans (begin _ _ _)
    · split
      · exact (shapes_endConvoy _ _).trans ((shapes_convoy _ _ _ _ _).trans (begin _ _ _))
      · exact (took _ _ _).trans ((shapes_endConvoy _ _).trans ((shapes_convoy _ _ _ _ _).trans (begin _ _ _)))

theorem outHas_execConvoyDispatch (upTo : BitVec 32) : outHas s.shapes (execConvoyDispatch upTo s) := by
  unfold execConvoyDispatch
  dsimp only
  split
  · rfl
  · refine (outHas_next _ _).2 ?_
    split <;> simp

theorem State.shapes_flightEnd {s : State} {p : List Entry × CRes} (h : s.flightEnd = some p) : p.2.state.shapes = s.shapes := by
  unfold State.flightEnd at h
  split at h
  · split at h
    · cases h
    · cases h; exact shapes_convoy ..
  · cases h

@[simp] theorem State.shapes_finishFlight : s.finishFlight.2.shapes = s.shapes := by
  unfold State.finishFlight
  split
  · rename_i h
    exact (shapes_endConvoy _ _).trans (State.shapes_flightEnd h)
  · rfl

@[simp] theorem State.shapes_oweFlight : s.oweFlight.shapes = s.shapes := by
  unfold State.oweFlight
  dsimp only
  split
  · rename_i h
    exact (State.shapes_modHart _ _ (rfl)).trans (State.shapes_flightEnd h)
  · rename_i h
    refine (State.shapes_modHart _ _ ?_).trans (State.shapes_flightEnd h)
    simp
  · rename_i h
    exact (shapes_endConvoy _ _).trans (State.shapes_flightEnd h)
  · rfl

@[simp] theorem State.shapes_takeOwed (o : Owed) : (s.takeOwed o).shapes = s.shapes := by simp [State.takeOwed]

@[simp] theorem State.shapes_haltHart : s.haltHart.shapes = s.shapes := by
  unfold State.haltHart
  split <;> simp

@[simp] theorem outHas_combStop (code : BitVec 8) (tval addr : Word) (e : Option Nat) :
    outHas s.shapes (combStop code tval addr e s) := by
  refine (outHas_next _ _).2 ?_
  split <;> simp

theorem outHas_combPiece (x : Entry) {m : VMeaning} (hm : m.Keeps) (lo : Nat) : outHas s.shapes (combPiece x m lo s) := by
  have h := hm.run (s.grant (s.combUses m)) lo ((m.span lo).getD m.len)
  rw [State.shapes_grant] at h
  unfold combPiece
  split <;> rename_i hr <;> rw [hr] at h
  case h_1 | h_2 =>
    refine (outHas_next _ _).2 ?_
    split
    · exact h
    · exact (State.shapes_modHart _ _ (Hart.shape_popComb _)).trans h
  all_goals exact (show _ = s.shapes from h) ▸ outHas_combStop ..

theorem outHas_execCombWordIssue : outHas s.shapes (execCombWordIssue s) := by
  unfold execCombWordIssue
  dsimp only
  split
  · rfl
  · rename_i x _ _
    split
    · split
      · exact outHas_combPiece _ _ (x.meaning_keeps s) _
      · rfl
    · split
      · rfl
      · split
        · exact outHas_combStop ..
        · have h := outHas_combPiece (s.trace 2 x.addr) x (x.meaning_keeps s) 0
          rwa [State.shapes_trace] at h

@[simp] theorem shapes_resumeHead (ok : VStall → Bool) : (resumeHead ok s).shapes = s.shapes := by
  unfold resumeHead
  dsimp only
  split
  · rfl
  · split <;> simp

theorem shapes_endHead {r : Instr → Entry → Option VRes} (hr : ∀ i x v, r i x = some v → v.state.shapes = s.shapes) :
    (endHead s r).shapes = s.shapes := by
  unfold endHead
  dsimp only
  split
  · rfl
  · split
    · rfl
    · split
      · rename_i h
        obtain ⟨i, -, hi⟩ := Option.bind_eq_some_iff.1 h
        exact (shapes_endConvoy _ _).trans (hr _ _ _ hi)
      · rename_i h
        obtain ⟨i, -, hi⟩ := Option.bind_eq_some_iff.1 h
        exact (State.shapes_trapVector _ _ _ _ _ _).trans (hr _ _ _ hi)
      · rfl

theorem outHas_execVwaitTimeout : outHas s.shapes (execVwaitTimeout s) := by
  refine (outHas_next _ _).2 ?_
  split
  · refine shapes_endHead s fun i x v h => ?_
    split at h
    · cases h; simp
    · cases h
  · rfl

@[simp] theorem shapes_rrecvEnd (enough : Bool) : (rrecvEnd enough s).shapes = s.shapes := by
  unfold rrecvEnd
  dsimp only
  split
  · split
    · rfl
    · split
      · split
        · simp
        · rename_i d y a _ _ _ _
          have h := shapes_rrecvTake s d y a ‹Entry›
          split <;> rename_i hr
          · rw [hr] at h
            exact (State.shapes_grant _ _).trans ((shapes_endConvoy _ _).trans h)
          · rw [hr] at h
            exact (State.shapes_grant _ _).trans ((State.shapes_trapVector _ _ _ _ _ _).trans h)
          · rfl
      · rfl
  · rfl

end

end Sys2Proof.Machine

/-! SUPPORT. Legal shapes: the end of a scalar instruction, traps, integer instructions and the control registers (04_scalar R87-R103,
14_system R309-R318, R330-R334) keep them. -/

namespace Sys2Proof.Machine

/-- The next state of an outcome, where there is one, has legal shapes. -/
def outOk : Out → Prop
  | .next t => t.shapesOk
  | _ => True

@[simp] theorem outOk_next (t : State) : outOk (.next t) ↔ t.shapesOk := Iff.rfl
@[simp] theorem outOk_fault (f : Fault) : outOk (.fault f) := trivial
@[simp] theorem outOk_refused (r : Refusal) : outOk (.refused r) := trivial

/-- An outcome that keeps the shapes of a legal state is legal. -/
theorem State.shapesOk.outOk_of_has {s : State} (hs : s.shapesOk) {o : Out} (h : outHas s.shapes o) : outOk o := by
  cases o with
  | next t => exact hs.congr h
  | fault f => trivial
  | refused r => trivial

/-! ### The end of a scalar instruction -/

section
variable (s : State)

@[simp] theorem State.shapes_settleStep : s.settleStep.shapes = s.shapes := by
  unfold State.settleStep
  split <;> simp

@[simp] theorem State.shapes_retireTo (keepBpc : Bool) (pc : Word) : (s.retireTo keepBpc pc).shapes = s.shapes := by
  simp [State.retireTo, Hart.granted]

@[simp] theorem State.shapes_complete (pc : Word) : (s.complete pc).shapes = s.shapes := s.shapes_retireTo _ _
@[simp] theorem State.shapes_advance : s.advance.shapes = s.shapes := s.shapes_complete _
@[simp] theorem State.shapes_begin : s.begin.shapes = s.shapes := by simp [State.begin]

@[simp] theorem State.shapes_syncTrap (code : BitVec 8) (tval : Word) : (s.syncTrap code tval).shapes = s.shapes := by
  unfold State.syncTrap
  dsimp only
  split <;> simp

@[simp] theorem outHas_trap (code : BitVec 8) (tval : Word) : outHas s.shapes (trap code tval s) := by simp [trap]

@[simp] theorem outHas_finish (d : BitVec 5) (v : Word) : outHas s.shapes (finish d v s) := by simp [finish]

@[simp] theorem outHas_branch (taken : Bool) (off : BitVec 16) : outHas s.shapes (branch taken off s) := by
  refine (outHas_next _ _).2 ?_
  split <;> simp

/-- An instruction that waits for vector work keeps the shapes where what comes after the wait does. -/
@[simp] theorem outHas_waitFor (busy : Bool) (go : Out) (h : outHas s.shapes go) : outHas s.shapes (waitFor busy s go) := by
  unfold waitFor
  (repeat' split) <;> simp [h]

/-- The gate's answers keep every shape. -/
theorem outHas_gate {i : Instr} {o : Out} (h : s.gate i = some o) : outHas s.shapes o := by
  unfold State.gate at h
  dsimp only at h
  split at h
  · cases h; simp
  · split at h
    · cases h
      (repeat' split) <;> simp
    · cases h

end

/-- A scalar result written after a change of the state. -/
theorem outOk_finish {t : State} (ht : t.shapesOk) (d : BitVec 5) (v : Word) : outOk (finish d v t) :=
  ht.outOk_of_has (outHas_finish t d v)

theorem outOk_advance {t : State} (ht : t.shapesOk) : outOk (.next t.advance) := ht.congr t.shapes_advance

theorem outOk_trap {t : State} (ht : t.shapesOk) (code : BitVec 8) (tval : Word) : outOk (trap code tval t) :=
  ht.outOk_of_has (outHas_trap t code tval)

/-! ### Asynchronous traps -/

@[simp] theorem Hart.shape_loseQueues (k : Hart) : k.loseQueues.shape = k.shape := by simp [Hart.loseQueues]
@[simp] theorem Hart.shape_loseRegisters (k : Hart) (tick : Nat) : (k.loseRegisters tick).shape = k.shape := (rfl)

section
variable (s : State)

theorem outHas_execMachineCheck (u : MCUnit) : outHas s.shapes (execMachineCheck u s) := by
  unfold execMachineCheck
  split
  · rfl
  · refine (outHas_next _ _).2 ((State.shapes_modHart _ _ (Hart.shape_modTrap _ _)).trans ?_)
    cases u <;> simp

@[simp] theorem State.shapes_takeCheck (u : MCUnit) : (s.takeCheck u).shapes = s.shapes := by
  cases u <;> simp [State.takeCheck]

theorem outHas_execTrapTake : outHas s.shapes (execTrapTake s) := by
  unfold execTrapTake
  dsimp only
  split
  · rfl
  · split
    · simp
    · simp
    · simp
    · split <;> simp

end

/-! ### Jumps and lengths -/

@[simp] theorem Hart.shape_modCfg (k : Hart) (f : Cfg → Cfg) (hf : (f k.cfg).nreg = k.cfg.nreg) : (k.modCfg f).shape = k.shape :=
  congrArg (·, k.place.h) hf

section
variable (s : State)

theorem outHas_execJal (d : BitVec 5) (off : BitVec 21) : outHas s.shapes (execJal d off s) := by simp [execJal]

theorem outHas_execJalr (d a : BitVec 5) (imm : BitVec 16) : outHas s.shapes (execJalr d a imm s) := by
  unfold execJalr
  dsimp only
  split <;> simp

@[simp] theorem outHas_finish_modCfg (d : BitVec 5) (v : Word) (f : Cfg → Cfg) (hf : (f s.hart.cfg).nreg = s.hart.cfg.nreg) :
    outHas s.shapes (finish d v (s.modHart fun k => k.modCfg f)) := by
  have h := outHas_finish (s.modHart fun k => k.modCfg f) d v
  rwa [State.shapes_modHart _ _ (Hart.shape_modCfg _ _ hf)] at h

theorem outHas_setlen (d : BitVec 5) (avl vt : Word) : outHas s.shapes (setlen d avl vt s) := by
  unfold setlen
  split <;> simp

end

/-! ### Control registers -/

theorem Cfg.nreg_putVtype (c : Cfg) (v : Word) : (c.putVtype v).nreg = c.nreg := by
  unfold Cfg.putVtype
  split <;> rfl

theorem Cfg.nreg_putCstr (c : Cfg) (v : Word) : (c.putCstr v).nreg = c.nreg := by
  unfold Cfg.putCstr
  split <;> rfl

/-- A value written to NREG counts only where it is legal (05_harts R113). -/
theorem Hart.legal_putNreg {k : Hart} (hk : k.legal) (v : Word) : (k.modCfg fun c => c.putNreg v).legal := by
  refine ⟨?_, hk.2⟩
  show (k.cfg.putNreg v).nreg = 8 ∨ _
  unfold Cfg.putNreg
  split
  · assumption
  · exact hk.1

/-- Every control register but NREG leaves the shape as it is. -/
theorem Hart.shape_putCsr (k : Hart) (system : Bool) (n : Nat) (v : Word) (hn : n ≠ 0x012) : (k.putCsr system n v).shape = k.shape := by
  unfold Hart.putCsr
  split
  · rfl
  · split
    · rfl
    · split
      case h_3 => exact absurd rfl hn
      case h_2 => exact Hart.shape_modCfg _ _ (Cfg.nreg_putVtype _ _)
      case h_12 => exact Hart.shape_modCfg _ _ (Cfg.nreg_putCstr _ _)
      case h_14 | h_15 => unfold Hart.putGrant; split <;> rfl
      case h_18 => split <;> rfl
      all_goals rfl

theorem Hart.legal_putCsr {k : Hart} (hk : k.legal) (system : Bool) (n : Nat) (v : Word) : (k.putCsr system n v).legal := by
  by_cases hn : n = 0x012
  · subst hn
    exact Hart.legal_putNreg hk v
  · exact Hart.legal_congr (k.shape_putCsr system n v hn) hk

@[simp] theorem Core.harts_putCsr (y : Core) (n : Nat) (v : Word) : (y.putCsr n v).harts = y.harts := by
  unfold Core.putCsr
  split
  · rfl
  · split <;> rfl

theorem State.shapesOk.putCsr {s : State} (hs : s.shapesOk) (system : Bool) (c h n : Nat) (v : Word) :
    (s.putCsr system c h n v).shapesOk := by
  unfold State.putCsr
  split
  · exact (hs.modHartAt c h _ (Hart.legal_putCsr (hs.hartAt c h) system n v)).congr (State.shapes_modCoreAt _ _ _ (by simp))
  · exact hs

theorem outOk_csrAccess {s : State} (hs : s.shapesOk) (writes : Bool) (f : Word → Option Word) (i : Instr) (d : BitVec 5) (n : Nat) :
    outOk (csrAccess writes f i d n s) := by
  unfold csrAccess
  dsimp only
  split
  · exact outOk_trap hs _ _
  · split
    · refine hs.outOk_of_has ?_
      split
      · simp
      · unfold State.csrHeld
        split <;> simp
    · refine outOk_finish ?_ d _
      split
      · exact hs.putCsr ..
      · exact hs

end Sys2Proof.Machine

/-! SUPPORT. Legal shapes: a tenancy's block and scalar memory instructions (13_collective R304-R308, 15_device R337-R342,
04_scalar R96-R98, 09_order R210-R214, 14_system R322-R324) keep them. -/

namespace Sys2Proof.Machine

/-! ### Propolis -/

section
variable (s : State)

@[simp] theorem State.shapes_attest (t : Nat) : (s.attest t).shapes = s.shapes := State.shapes_modTenAt _ _ _ (rfl)

@[simp] theorem State.shapes_arm (t : Nat) : (s.arm t).shapes = s.shapes := by
  unfold State.arm
  dsimp only
  split
  · simp
  · split <;> simp

theorem outHas_execPropolisUnitCopy (t : BitVec 6) (u : BitVec 32) : outHas s.shapes (execPropolisUnitCopy t u s) := by
  unfold execPropolisUnitCopy
  dsimp only
  split
  · rfl
  · refine (outHas_next _ _).2 ?_
    split <;> simp

theorem outHas_execPropolisLastCut (t : BitVec 6) : outHas s.shapes (execPropolisLastCut t s) := by
  unfold execPropolisLastCut
  dsimp only
  split
  · refine (outHas_next _ _).2 ((State.shapes_modTenAt _ _ _ (rfl)).trans (State.shapes_foldl _ (fun _ _ => ?_) _ _))
    split <;> simp
  · rfl

@[simp] theorem State.shapes_drains (l : List Drain) : State.shapes { s with drains := l } = s.shapes := (rfl)

theorem outHas_execPropolisDrainUnit (t : BitVec 6) : outHas s.shapes (execPropolisDrainUnit t s) := by
  have done {u : State} (h : u.shapes = s.shapes) : outHas s.shapes (if (u.tenAt t.toNat).prop.units.all PUnit.drained then
      .next ((u.raise t.toNat 1).modTenAt t.toNat fun x => { x with prop := { x.prop with st := 4, units := [] } }) else .next u) := by
    split <;> simp [h]
  unfold execPropolisDrainUnit
  dsimp only
  split
  · rfl
  · refine done ?_
    split
    · rfl
    · split
      · rfl
      · refine (State.shapes_modTenAt _ _ _ (rfl)).trans ?_
        split <;> simp

theorem outHas_execPropolisDrainRefused (t : BitVec 6) : outHas s.shapes (execPropolisDrainRefused t s) := by
  refine (outHas_next _ _).2 ?_
  split <;> simp

/-! ### The register block -/

@[simp] theorem State.shapes_dropStaging (t : Nat) : (s.dropStaging t).shapes = s.shapes := by simp [State.dropStaging]

@[simp] theorem State.shapes_preempt (t : Nat) (v : Word) : (s.preempt t v).shapes = s.shapes :=
  State.shapes_foldl _ (fun _ _ => by simp) _ _

@[simp] theorem State.shapes_writeParm (t : Nat) (v : Word) : (s.writeParm t v).shapes = s.shapes := by
  unfold State.writeParm
  dsimp only
  split
  · simp
  · split <;> simp

end

/-- A queue whose head is legal stays so where a descriptor is appended. -/
theorem queueOk.append {l : List Desc} {checked : Bool} (h : queueOk (l, checked)) (d : Desc) : queueOk (l ++ [d], checked) := by
  intro hc
  obtain ⟨e, r, rfl, he⟩ := h hc
  exact ⟨e, r ++ [d], rfl, he⟩

section
variable {s : State} (hs : s.shapesOk)
include hs

theorem State.shapesOk.push (t : Nat) (d : Desc) : (s.push t d).2.shapesOk := by
  unfold State.push
  split
  · exact hs
  · exact hs.modTenAt t (fun x => { x with lq := x.lq ++ [d] }) (queueOk.append (hs.tenAt t) d)

theorem State.shapesOk.stage (t i : Nat) (v : Word) : (s.stage t i v).shapesOk := by
  unfold State.stage
  dsimp only
  split
  · refine hs.congr ?_
    split <;> simp
  · split
    · exact hs.congr (by simp)
    · split
      · exact hs.congr (by simp)
      · have h (d : Desc) := State.shapesOk.push (hs.congr (s.shapes_modTenAt t (fun x => { x with staging := [] }) (rfl))) t d
        split
        · exact h _
        · exact (h _).congr (State.shapes_raise _ _ _)

theorem State.shapesOk.writeReg (t off n : Nat) (v : Word) : (s.writeReg t off n v).shapesOk := by
  unfold State.writeReg
  dsimp only
  split
  · split
    · exact hs.stage ..
    · exact hs.congr (by simp)
  · split
    · exact hs.congr (by simp)
    · split
      · exact hs.congr (by simp)
      · refine hs.congr ?_
        split <;> (try split) <;> simp

/-! ### The store buffer -/

theorem State.shapesOk.perform (b : SBuf) : (s.perform b).shapesOk := by
  unfold State.perform
  split
  · exact hs.writeReg ..
  · exact hs.congr (by simp)

theorem outOk_execStoreBufferWrite : outOk (execStoreBufferWrite s) := by
  unfold execStoreBufferWrite
  split
  · exact hs
  · exact State.shapesOk.perform (hs.congr (State.shapes_modHart _ _ (rfl))) _

end

/-! ### Loads, stores and atomics -/

section
variable (s : State)

theorem outHas_load (n : Nat) (signed : Bool) (d a : BitVec 5) (imm : BitVec 16) : outHas s.shapes (load n signed d a imm s) := by
  unfold load
  dsimp only
  split <;> simp

theorem outHas_execScalarLoadData : outHas s.shapes (execScalarLoadData s) := by
  unfold execScalarLoadData
  split
  · split
    · split
      · split <;> simp
      · rfl
    · split
      · rfl
      · dsimp only
        split
        · simp
        · split
          · rename_i r _ _ _ _ _
            have h := outHas_trap (s.mark r.loc) 0x1A r.ea
            rwa [State.shapes_mark] at h
          · simp
  · rfl

theorem outHas_store (n : Nat) (d a : BitVec 5) (imm : BitVec 16) : outHas s.shapes (store n d a imm s) := by
  unfold store
  dsimp only
  split
  · simp
  · split <;> simp

end

theorem outOk_amo {s : State} (hs : s.shapesOk) (f : Word → Word → Word → Option Word) (d a b : BitVec 5) (l rel : Bool) :
    outOk (amo f d a b l rel s) := by
  have ht (ea : Word) : (s.touch s.cc s.hart ea).shapesOk := hs.congr (by simp)
  unfold amo
  generalize (if l then 8 else 4) = n
  dsimp only
  split
  · exact outOk_trap hs _ _
  · split
    · exact outOk_trap hs _ _
    · split
      · exact outOk_trap (hs.congr (State.shapes_mark _ _)) _ _
      · split
        · exact hs.congr s.shapes_begin
        · split
          · exact outOk_finish (ht _) _ _
          · exact outOk_finish (State.shapesOk.perform ((ht _).congr (State.shapes_setDirty _ _)) _) _ _

/-! ### Fences, translations and the caches -/

section
variable (s : State)

theorem outHas_fence (sv vs : Bool) (sc : Scope) : outHas s.shapes (fence sv vs sc s) := by
  unfold fence
  dsimp only
  split
  · simp
  · refine (outHas_next _ _).2 ?_
    split <;> simp

theorem outHas_execFenceVv (sc : Scope) : outHas s.shapes (execFenceVv sc s) := by simp [execFenceVv]

theorem outHas_execFenceRelease : outHas s.shapes (execFenceRelease s) := by
  unfold execFenceRelease
  split
  · refine (outHas_next _ _).2 ?_
    split <;> simp
  · rfl

theorem outHas_execIflush : outHas s.shapes (execIflush s) := by
  refine outHas_waitFor s _ _ ((outHas_next _ _).2 ?_)
  split <;> simp

theorem outHas_tlbinv (sc : Scope) (gone : TlbEnt → Bool) : outHas s.shapes (tlbinv sc gone s) := by
  unfold tlbinv
  dsimp only
  split
  · rfl
  · refine (outHas_next _ _).2 ((State.shapes_advance _).trans (State.shapes_mapCores s _ fun p => ?_))
    split <;> rfl

theorem outHas_execTlbinvPg (sc : Scope) (a : BitVec 5) : outHas s.shapes (execTlbinvPg sc a s) := by
  unfold execTlbinvPg
  split
  · simp
  · exact outHas_tlbinv ..

theorem outHas_execTlbinvAll (sc : Scope) : outHas s.shapes (execTlbinvAll sc s) := by
  unfold execTlbinvAll
  split
  · simp
  · exact outHas_tlbinv ..

@[simp] theorem State.shapes_writeBack (lo hi : Nat) : (s.writeBack lo hi).shapes = s.shapes := (rfl)

@[simp] theorem State.shapes_discard (lo hi : Nat) : (s.discard lo hi).shapes = s.shapes := by
  refine (State.shapes_writeBack _ _ _).trans (State.shapes_foldl _ (fun s p => ?_) _ _)
  exact s.shapes_beforeStore _ _ _ _

theorem outHas_cachePieces {act : State → Nat → Nat → State} (ha : ∀ s lo hi, (act s lo hi).shapes = s.shapes) (k : AccessKind)
    (ps : List (Word × Nat)) : outHas s.shapes (cachePieces k act ps s) := by
  induction ps generalizing s with
  | nil => simp [cachePieces]
  | cons p r ih =>
    obtain ⟨a, n⟩ := p
    unfold cachePieces
    split
    · simp
    · split
      · simp
      · have hg (t : State) (ht : t.shapes = s.shapes) : outHas s.shapes (cachePieces k act r t) := ht ▸ ih t
        refine hg _ ?_
        split
        · split <;> simp [ha]
        · simp

theorem outHas_cacheOp {act : State → Nat → Nat → State} (ha : ∀ s lo hi, (act s lo hi).shapes = s.shapes) (k : AccessKind)
    (a b : BitVec 5) (w : Word) : outHas s.shapes (cacheOp k act a b w s) := by
  unfold cacheOp
  dsimp only
  split
  · simp
  · split
    · simp
    · split
      · rfl
      · exact outHas_cachePieces s ha k _

end

end Sys2Proof.Machine

/-! SUPPORT. Legal shapes: the HART instructions and CSET (05_harts R116-R123, 13_collective R292), blocks and the queues' image
(02_stream R37-R46, 14_system R320-R327) keep them. -/

namespace Sys2Proof.Machine

/-! ### Harts -/

section
variable (s : State)

@[simp] theorem State.shapes_cutAt (old : Word) : (s.cutAt old).shapes = s.shapes := by
  refine State.shapes_modTenAt _ _ _ ?_
  split <;> rfl

@[simp] theorem State.shapes_modLaunch (id : Nat) (f : Launch → Launch) : (s.modLaunch id f).shapes = s.shapes := (rfl)

theorem outHas_execCset (d a b : BitVec 5) : outHas s.shapes (execCset d a b s) := by
  unfold execCset
  dsimp only
  split
  · simp
  · split
    · simp
    · rw [← s.shapes_cutAt s.hart.cfg.cstep]
      exact outHas_finish_modCfg _ _ _ _ (rfl)

theorem outHas_execFarm (d a : BitVec 5) : outHas s.shapes (execFarm d a s) := by
  have h (t : State) (ht : t.shapes = s.shapes) (v : Word) : outHas s.shapes (finish d v t) := ht ▸ outHas_finish t d v
  unfold execFarm
  dsimp only
  split <;> exact h _ (by simp) _

theorem outHas_execFnext (d a : BitVec 5) : outHas s.shapes (execFnext d a s) := by
  unfold execFnext
  dsimp only
  split
  · simp
  · split
    · simp
    · exact State.shapes_modLaunch s _ _ ▸ outHas_finish _ d _

theorem outHas_execHbar : outHas s.shapes (execHbar s) := by
  refine outHas_waitFor s _ _ ((outHas_next _ _).2 ?_)
  split <;> simp

theorem outHas_execHbarRelease : outHas s.shapes (execHbarRelease s) := by
  unfold execHbarRelease
  dsimp only
  split
  · exact (outHas_next _ _).2 ((State.shapes_at _ _ _).trans (State.shapes_foldl _ (fun _ _ => by simp) _ _))
  · rfl

theorem State.shapes_readWords {n : Nat} {va : Word} {e : Failure × State} (h : s.readWords n va = .error e) :
    e.2.shapes = s.shapes := by
  induction n generalizing va with
  | zero => cases h
  | succ n ih =>
    unfold State.readWords at h
    split at h
    · cases h; rfl
    · split at h
      · rename_i hr
        cases h
        exact State.shapes_checkRead hr
      · split at h
        · rename_i hr
          cases h
          exact ih hr
        · cases h

theorem outHas_execHexit : outHas s.shapes (execHexit s) :=
  outHas_waitFor s _ _ (State.shapes_modHart _ _ (rfl))

@[simp] theorem State.shapes_endLaunch (id : Nat) : (s.endLaunch id).shapes = s.shapes := by
  unfold State.endLaunch
  split
  · split
    · exact State.shapes_foldl _ (fun _ _ => State.shapes_settleCore _ _) _ _
    · rfl
  · rfl

@[simp] theorem Hart.shape_freed (k : Hart) : k.freed.shape = k.shape := (rfl)

theorem outHas_execHexitFree : outHas s.shapes (execHexitFree s) := by
  unfold execHexitFree
  dsimp only
  split
  · simp
  · rfl

end

section
variable {s : State} (hs : s.shapesOk)
include hs

theorem outOk_execVdecl (a : BitVec 5) : outOk (execVdecl a s) := by
  unfold execVdecl
  dsimp only
  split
  · exact outOk_trap hs _ _
  · split
    · exact outOk_trap hs _ _
    · split
      · exact hs
      · rename_i hn _
        refine outOk_advance (hs.modHart _ ⟨?_, (hs.hartAt _ _).2⟩)
        show s.rd a = 8 ∨ s.rd a = 16 ∨ s.rd a = 32
        by_contra hc
        push Not at hc
        exact hn hc

theorem outOk_execHlaunch (d a : BitVec 5) : outOk (execHlaunch d a s) := by
  have hb : outOk (.next s.begin) := hs.congr s.shapes_begin
  unfold execHlaunch waitFor
  dsimp only
  split
  · exact outOk_trap hs _ _
  · split
    · split
      · exact outOk_trap hb _ _
      · exact hb
    · split
      · exact hb
      · split
        · rename_i hr
          exact outOk_trap (hs.congr (s.shapes_readWords hr)) _ _
        · exact outOk_finish (State.shapesOk.push (hs.congr (s.shapes_touch _ _ _)) _ _) _ _

end

/-! ### Blocks -/

@[simp] theorem Hart.shape_returnTrap_halt (k : Hart) (vret : Bool) (p : Prop) [Decidable p] :
    (if p then (k.returnTrap vret).halt else k.returnTrap vret).shape = k.shape := by
  split <;> simp

section
variable (s : State)

theorem outHas_block (i : Instr) (base : Word) : outHas s.shapes (block i base s) := by
  unfold block illegal
  dsimp only
  split
  · simp
  · split
    · simp
    · split
      · simp
      · have h := State.shapes_scan (s := s) (block := base) (fuel := 256) (va := base) (ds := [])
        split <;> rename_i hr <;> rw [hr] at h
        · exact (show _ = s.shapes from h) ▸ outHas_trap ..
        · replace h : _ = s.shapes := h
          split
          · exact h
          · split
            · exact (State.shapes_retireTo ..).trans h
            · exact (State.shapes_modHart _ _ (rfl)).trans h

theorem outHas_execBlockWordPlace : outHas s.shapes (execBlockWordPlace s) := by
  unfold execBlockWordPlace
  dsimp only
  split
  · split
    · rfl
    · split <;> simp
  · rfl

/-! ### Traps and returns -/

theorem outHas_returnFrom (vret : Bool) : outHas s.shapes (returnFrom vret s) := by
  unfold returnFrom
  split <;> simp

theorem outHas_execTret : outHas s.shapes (execTret s) := by
  unfold execTret illegal
  split
  · simp
  · exact outHas_returnFrom ..

theorem outHas_execVret : outHas s.shapes (execVret s) := by
  unfold execVret illegal
  split
  · simp
  · exact outHas_returnFrom ..

/-! ### The queues' image -/

theorem outHas_execVqload (a b : BitVec 5) : outHas s.shapes (execVqload a b s) := by
  unfold execVqload illegal
  dsimp only
  split
  · simp
  · split
    · simp
    · split
      · simp
      · split
        · rfl
        · split
          · rename_i hr
            exact s.shapes_readWords hr ▸ outHas_trap ..
          · split <;> simp

end

theorem State.shapesOk.putImage (ps : List (Part × Nat)) (ws : List Word) {s : State} (hs : s.shapesOk) :
    (Machine.putImage ps ws s).shapesOk := by
  induction ps generalizing s ws with
  | nil => exact hs
  | cons p r ih =>
    obtain ⟨p, n⟩ := p
    unfold Machine.putImage
    refine ih _ ?_
    split
    · exact foldl_keeps State.shapesOk _ (fun _ _ h => State.shapesOk.writeReg h _ _ _ _) _ _ hs
    · exact hs.congr (State.shapes_writeAll _ _ _)

theorem outOk_execVqsave {s : State} (hs : s.shapesOk) (d a : BitVec 5) : outOk (execVqsave d a s) := by
  unfold execVqsave illegal
  dsimp only
  split
  · exact outOk_trap hs _ _
  · split
    · exact outOk_trap hs _ _
    · split
      · exact hs
      · split
        · exact outOk_trap hs _ _
        · refine outOk_finish (State.shapesOk.congr (State.shapesOk.putImage _ _ (hs.congr ?_)) (State.shapes_modHart _ _ (rfl))) _ _
          simp

end Sys2Proof.Machine

/-! SUPPORT. Legal shapes: what the fabric delivers (11_route R245-R256, 13_collective R297-R302) keeps them. -/

namespace Sys2Proof.Machine

/-- A delivery keeps the shapes where what it does does. -/
theorem outHas_deliver (k : BitVec 16) {f : Msg → State → Option State} (hf : ∀ m s t, f m s = some t → t.shapes = s.shapes) (s : State) :
    outHas s.shapes (deliver k f s) := by
  unfold deliver
  split
  · rfl
  · rename_i i m _
    cases h : f m (s.takeMsg i) with
    | none => rfl
    | some t => exact (hf m (s.takeMsg i) t h : t.shapes = s.shapes)

section
variable (s : State)

/-! ### Rows and answers -/

@[simp] theorem State.shapes_refuse (m : RowMsg) (full : Bool) : (s.refuse m full).shapes = s.shapes := by simp [State.refuse]

@[simp] theorem shapes_rowArrives (m : RowMsg) : (rowArrives m s).shapes = s.shapes := by
  unfold rowArrives
  dsimp only
  split
  · simp
  · split
    · simp
    · split
      · simp
      · split
        · rfl
        · split
          · simp
          · split <;> simp

theorem outHas_execRowArrival (k : BitVec 16) : outHas s.shapes (execRowArrival k s) := by
  refine outHas_deliver k (fun m s t h => ?_) s
  split at h
  · cases h; simp
  · cases h

@[simp] theorem Core.harts_answer (y : Core) (m : RetMsg) (refusal : Bool) : (y.answer m refusal).harts = y.harts := by
  unfold Core.answer
  dsimp only
  (repeat' split) <;> simp

@[simp] theorem shapes_answerArrives (m : RetMsg) (refusal : Bool) : (answerArrives m refusal s).shapes = s.shapes := by
  unfold answerArrives
  split <;> simp

theorem outHas_execReturnArrival (k : BitVec 16) : outHas s.shapes (execReturnArrival k s) := by
  refine outHas_deliver k (fun m s t h => ?_) s
  split at h
  · cases h; simp
  · cases h

theorem outHas_execRefusalArrival (k : BitVec 16) : outHas s.shapes (execRefusalArrival k s) := by
  refine outHas_deliver k (fun m s t h => ?_) s
  split at h
  · cases h; simp
  · cases h

theorem outHas_execFrameTimeout (fr : BitVec 2) : outHas s.shapes (execFrameTimeout fr s) := by
  refine (outHas_next _ _).2 ?_
  split <;> simp

/-! ### Contributions -/

theorem shapes_contribArrives {m : Contrib} {s t : State} (h : contribArrives m s = some t) : t.shapes = s.shapes := by
  unfold contribArrives at h
  dsimp only at h
  split at h
  · cases h; simp
  · split at h
    · cases h; simp
    · split at h
      · cases h
      · cases h; simp

theorem outHas_execContributionArrival (k : BitVec 16) : outHas s.shapes (execContributionArrival k s) := by
  refine outHas_deliver k (fun m s t h => ?_) s
  split at h
  · exact shapes_contribArrives h
  · cases h

@[simp] theorem Core.harts_modRec (y : Core) (handle chunk : Nat) (f : ChunkRec → ChunkRec) : (y.modRec handle chunk f).harts = y.harts := (rfl)

theorem State.shapes_putCombined {s t : State} {c : Nat} {m : Contrib} {ms : List Contrib} {segs : List Seg}
    (h : s.putCombined c m ms segs = some t) : t.shapes = s.shapes := by
  unfold State.putCombined at h
  dsimp only at h
  split at h
  · split at h
    · cases h
    · cases h; simp
  · cases h; simp

@[simp] theorem shapes_combine (c : Nat) (m : Contrib) : (combine c m s).shapes = s.shapes := by
  unfold combine
  split
  · rfl
  · dsimp only
    split
    · simp
    · split
      · rfl
      · rename_i h
        refine (State.shapes_modCoreAt _ _ _ (rfl)).trans ((State.shapes_at _ _ _).trans ((State.shapes_putCombined h).trans ?_))
        simp

theorem outHas_execCollectiveCombine (k : BitVec 16) : outHas s.shapes (execCollectiveCombine k s) := by
  unfold execCollectiveCombine
  split <;> simp

@[simp] theorem State.shapes_putPacket (p : Packet) : (s.putPacket p).shapes = s.shapes := s.shapes_putRuns ..

theorem outHas_execReductionPacket (st : BitVec 4) : outHas s.shapes (execReductionPacket st s) := by
  unfold execReductionPacket
  split
  · rfl
  · dsimp only
    refine (outHas_next _ _).2 ?_
    split <;> simp

/-! ### Acknowledgements and fetches -/

@[simp] theorem shapes_resumeAt (c h : Nat) : (resumeAt c h s).shapes = s.shapes := by
  unfold resumeAt
  dsimp only
  split <;> simp

theorem outHas_execContributionAck (k : BitVec 16) : outHas s.shapes (execContributionAck k s) := by
  refine outHas_deliver k (fun m s t h => ?_) s
  split at h
  · cases h
    split
    · split
      · rfl
      · dsimp only
        split <;> simp
    · rfl
  · cases h

theorem State.shapes_chunkBytes_ok {s : State} {c h : Nat} {system : Bool} {va : Word} {n : Nat} {r : List Byte × State}
    (hr : s.chunkBytes c h system va n = .ok r) : r.2.shapes = s.shapes := by
  unfold State.chunkBytes at hr
  dsimp only at hr
  split at hr
  · cases hr
  · cases hr
  · split at hr
    · cases hr
    · split at hr <;> cases hr
      rfl

theorem State.shapes_chunkBytes_error {s : State} {c h : Nat} {system : Bool} {va : Word} {n : Nat} {e : BitVec 8 × State}
    (hr : s.chunkBytes c h system va n = .error e) : e.2.shapes = s.shapes := by
  unfold State.chunkBytes at hr
  dsimp only at hr
  split at hr
  · cases hr; rfl
  · cases hr; rfl
  · split at hr
    · cases hr; rfl
    · split at hr <;> cases hr
      exact s.shapes_mark _

theorem shapes_fetchArrives {m : FetchMsg} {s t : State} (h : fetchArrives m s = some t) : t.shapes = s.shapes := by
  unfold fetchArrives at h
  dsimp only at h
  split at h
  · cases h
  · split at h
    · cases h; simp
    · split at h
      · cases h
      · rename_i c _ _ _
        generalize hu : s.modCoreAt c _ = u at h
        have hu' : u.shapes = s.shapes := hu ▸ State.shapes_modCoreAt _ _ _ (rfl)
        split at h <;> rename_i hr <;> cases h
        · exact (State.shapes_send _ _ _).trans ((State.shapes_chunkBytes_ok hr).trans hu')
        · exact (State.shapes_send _ _ _).trans ((State.shapes_chunkBytes_error hr).trans hu')

@[simp] theorem shapes_fetchedArrives (h id chunk : Nat) (bs : List Byte) (cause : BitVec 8) :
    (fetchedArrives h id chunk bs cause s).shapes = s.shapes := by
  unfold fetchedArrives
  dsimp only
  split
  · split
    · rfl
    · split
      · rfl
      · split
        · exact (shapes_endConvoy _ _).trans (State.shapes_modHart _ _ (rfl))
        · refine (shapes_dispatchHead _ _ _).trans ((State.shapes_modHart _ _ (rfl)).trans ?_)
          refine (State.shapes_modHart _ _ (Hart.shape_foldl _ (fun _ _ => ?_) _ _)).trans (State.shapes_modHart _ _ (rfl))
          exact Hart.shape_setElem ..
  · rfl

theorem outHas_execChunkFetch (k : BitVec 16) : outHas s.shapes (execChunkFetch k s) := by
  refine outHas_deliver k (fun m s t h => ?_) s
  split at h
  · exact shapes_fetchArrives h
  · cases h; simp
  · cases h

/-! ### Element trains -/

theorem shapes_trainElem (m : TrainMsg) (e : TrainElem) : (trainElem m e s).2.shapes = s.shapes := by
  unfold trainElem
  dsimp only
  (repeat' split) <;> rfl

theorem shapes_trainElem_some {m : TrainMsg} {e : TrainElem} {s t : State} (h : (trainElem m e s).1 = some t) : t.shapes = s.shapes := by
  unfold trainElem at h
  dsimp only at h
  split at h
  · cases h
  · split at h
    · cases h
    · split at h
      · cases h
      · cases h; simp

@[simp] theorem shapes_trainRun (m : TrainMsg) (es : List TrainElem) (c : Nat) : (trainRun m es c s).2.shapes = s.shapes := by
  induction es generalizing c s with
  | nil => rfl
  | cons e r ih =>
    unfold trainRun
    split <;> rename_i hr
    · exact (ih _ _).trans (shapes_trainElem_some (m := m) (e := e) (by rw [hr]))
    · have h := shapes_trainElem s m e
      rwa [hr] at h

theorem outHas_execTrainArrival (k : BitVec 16) : outHas s.shapes (execTrainArrival k s) := by
  refine outHas_deliver k (fun m s t h => ?_) s
  split at h
  · cases h; simp
  · cases h

theorem outHas_execTrainAck (k : BitVec 16) : outHas s.shapes (execTrainAck k s) := by
  refine outHas_deliver k (fun m s t h => ?_) s
  split at h
  · cases h
    split
    · split
      · rfl
      · dsimp only
        split
        · refine (shapes_resumeAt _ _ _).trans (State.shapes_modHartAt _ _ _ _ ((Hart.shape_modQ _ _).trans ?_))
          split <;> simp
        · refine State.shapes_modHartAt _ _ _ _ ((Hart.shape_modQ _ _).trans ?_)
          split <;> simp
    · rfl
  · cases h

end

end Sys2Proof.Machine

/-! SUPPORT. Legal shapes: the launcher and the power controller (05_harts R104-R108, R114, R126), the debug port (15_device R349,
R350, R358) and the manager (15_device R343-R357) keep them. -/

namespace Sys2Proof.Machine

/-- A choice of two legal states. -/
theorem outOk_ite {p : Prop} [Decidable p] {t u : State} (ht : t.shapesOk) (hu : u.shapesOk) : outOk (.next (if p then t else u)) := by
  split
  · exact ht
  · exact hu

/-! ### The launcher -/

/-- A descriptor that the checks pass is legal (05_harts R104). -/
theorem Desc.legal_of_reason {d : Desc} {held : Nat} (h : d.reason held = none) : d.legal := by
  unfold Desc.reason at h
  by_cases h0 : (d.w 0).toNat % 4 ≠ 0
  · rw [if_pos h0] at h; cases h
  rw [if_neg h0] at h
  by_cases h1 : (!([1, 2, 4, 8].contains d.h)) = true
  · rw [if_pos h1] at h; cases h
  rw [if_neg h1] at h
  by_cases h2 : (!([8, 16, 32].contains (d.f 1 8 8))) = true
  · rw [if_pos h2] at h; cases h
  exact ⟨by simpa [or_iff_not_imp_left] using h1, by simpa [or_iff_not_imp_left] using h2⟩

/-- A hart placed by a legal descriptor is legal (05_harts R107). -/
theorem Hart.legal_placedHart {d : Desc} (hd : d.legal) (ten : BitVec 6) (id j k : Nat) (stvec : Word) (dbg : Bool) :
    (placedHart d ten id j k stvec dbg).legal := by
  obtain ⟨hh, hn⟩ := hd
  constructor
  · show BitVec.ofNat 64 (d.f 1 8 8) = 8 ∨ BitVec.ofNat 64 (d.f 1 8 8) = 16 ∨ BitVec.ofNat 64 (d.f 1 8 8) = 32
    rcases hn with h | h | h <;> rw [h] <;> decide
  · show BitVec.ofNat 8 d.h = 1 ∨ BitVec.ofNat 8 d.h = 2 ∨ BitVec.ofNat 8 d.h = 4 ∨ BitVec.ofNat 8 d.h = 8
    rcases hh with h | h | h | h <;> rw [h] <;> decide

section
variable (s : State)

@[simp] theorem State.shapes_markDone (ws : List (Nat × Nat × Nat)) (root va : Word) : (s.markDone ws root va).shapes = s.shapes := by
  unfold State.markDone
  split <;> simp

@[simp] theorem State.shapes_writeDone (ten : Nat) (ws : List (Nat × Nat × Nat)) (root va : Word) (v : Nat) :
    (s.writeDone ten ws root va v).shapes = s.shapes := by
  unfold State.writeDone
  split <;> simp

@[simp] theorem State.shapes_settleWindows (t : Nat) : (s.settleWindows t).shapes = s.shapes := by
  unfold State.settleWindows
  dsimp only
  split
  · refine (State.shapes_foldl _ (fun _ _ => State.shapes_modCoreAt _ _ _ (rfl)) _ _).trans ((State.shapes_modTenAt _ _ _ (rfl)).trans ?_)
    split <;> simp
  · rfl

theorem outHas_execLaunchComplete (k : BitVec 16) : outHas s.shapes (execLaunchComplete k s) := by
  unfold execLaunchComplete
  split
  · rfl
  · split
    · rfl
    · exact (outHas_next _ _).2 (State.shapes_writeDone _ _ _ _ _ _)

theorem outHas_execVgrantWrite (core : BitVec 7) (g : BitVec 4) : outHas s.shapes (execVgrantWrite core g s) := by
  refine (outHas_next _ _).2 ?_
  split <;> simp

theorem outHas_execCombRateHalve (core : BitVec 7) (half : Bool) : outHas s.shapes (execCombRateHalve core half s) := by
  simp [execCombRateHalve]

theorem outHas_execArbitrationPromotion (r : Resource) : outHas s.shapes (execArbitrationPromotion r s) := by
  refine (outHas_next _ _).2 ?_
  split <;> simp

end

section
variable {s : State} (hs : s.shapesOk)
include hs

theorem State.shapesOk.popLaunch (t : Nat) : (s.popLaunch t).shapesOk :=
  hs.modTenAt t _ fun h => absurd h Bool.false_ne_true

theorem outOk_execLaunchCheck (t : BitVec 6) : outOk (execLaunchCheck t s) := by
  unfold execLaunchCheck
  dsimp only
  split
  · exact hs
  · split
    · rename_i d r hl hc
      split
      · refine State.shapesOk.congr (State.shapesOk.popLaunch (hs.congr ?_) t.toNat) ((State.shapes_raise _ _ _).trans
          (State.shapes_modTenAt _ _ _ (rfl)))
        simp
      · exact State.shapesOk.popLaunch (hs.congr (State.shapes_writeDone _ _ _ _ _ _)) _
      · rename_i hr
        exact hs.modTenAt _ _ fun _ => ⟨d, r, hl, Desc.legal_of_reason hr⟩
    · exact hs

theorem State.shapesOk.placeLaunch (t : BitVec 6) {d : Desc} (hd : d.legal) (cs : List Nat) : (s.placeLaunch t d cs).shapesOk := by
  have take (id : Nat) (x : Ten) (l : List (Nat × Nat)) : State.shapesOk (l.foldl (fun (s : State) p => s.modCoreAt p.1 fun y =>
      y.take id ((List.range d.h).map fun k => placedHart d t id p.2 k x.trapvec x.session)) (s.freshId.2.settleWindows t.toNat)) := by
    refine foldl_keeps State.shapesOk _ (fun u p hu => hu.modCoreAt _ _ fun q hq => ?_) l _ (hs.congr (State.shapes_settleWindows _ _))
    obtain ⟨r, hr, rfl⟩ := List.mem_map.1 hq
    obtain ⟨k, -, hk⟩ := List.mem_map.1 (List.fst_mem_of_mem_zipIdx hr)
    exact (congrArg Hart.legal hk).mp (Hart.legal_placedHart hd ..)
  unfold State.placeLaunch
  dsimp only
  split
  · exact State.shapesOk.congr (take _ _ _) (State.shapes_modTenAt _ _ _ (rfl))
  · exact State.shapesOk.congr (take _ _ _) (rfl)

theorem outOk_execLaunchPlace (t : BitVec 6) : outOk (execLaunchPlace t s) := by
  unfold execLaunchPlace
  dsimp only
  split
  · exact hs
  · split
    · rename_i d r hl hc
      split
      · exact hs
      · obtain ⟨e, q, he, hd⟩ := hs.tenAt t.toNat hc
        obtain ⟨rfl, -⟩ := List.cons.inj (hl.symm.trans he)
        exact State.shapesOk.placeLaunch (hs.popLaunch _) _ hd _
    · exact hs

end

/-! ### The debug port -/

section
variable (s : State)

@[simp] theorem State.shapes_dbgDone : s.dbgDone.shapes = s.shapes := (rfl)
@[simp] theorem State.shapes_dbgRefuse (r : Nat) : (s.dbgRefuse r).shapes = s.shapes := (rfl)
@[simp] theorem State.shapes_dbgBusy (c h : Nat) : (s.dbgBusy c h).shapes = s.shapes := (rfl)

@[simp] theorem State.shapes_setDbg (t : Nat) (on : Bool) : (s.setDbg t on).shapes = s.shapes :=
  State.shapes_foldl _ (fun _ _ => by simp) _ _

@[simp] theorem Hart.shape_resume (k : Hart) : k.resume.shape = k.shape := by
  unfold Hart.resume
  dsimp only
  split <;> split <;> rfl

@[simp] theorem State.shapes_untrace (f : Nat → Bool) : (s.untrace f).shapes = s.shapes := (rfl)

@[simp] theorem State.shapes_endSession (t : Nat) : (s.endSession t).shapes = s.shapes := by
  unfold State.endSession
  dsimp only
  refine (State.shapes_raise _ _ _).trans ((State.shapes_setDbg _ _ _).trans ((State.shapes_modTenAt _ _ _ (rfl)).trans ?_))
  refine (State.shapes_foldl _ (fun _ _ => State.shapes_modHartAt _ _ _ _ ?_) _ _).trans (State.shapes_untrace _ _)
  split <;> simp

end

theorem State.shapes_writeWindow (s : State) (t n : Nat) (lim : Bool) (v : Word) : (s.writeWindow t n lim v).shapes = s.shapes := by
  unfold State.writeWindow
  dsimp only
  split
  · rfl
  · refine State.shapes_modTenAt _ _ _ ?_
    split <;> rfl

/-- The state after a boot holds nothing listed. -/
theorem State.shapesOk_boot (s : State) (img : Word) : (s.boot img).shapesOk :=
  ⟨fun _ hp => absurd hp List.not_mem_nil, fun _ hp => absurd hp List.not_mem_nil⟩

section
variable {s : State} (hs : s.shapesOk)
include hs

/-- A command of the debug port leaves a legal state where its effect does. -/
theorem outOk_dbgCommand {f : State → State} (hf : (f s).shapesOk) : outOk (dbgCommand f s) := outOk_ite hs hf

theorem State.shapesOk.onCore {f : Nat → State → State} (hf : ∀ c, (f c s).shapesOk) : (onCore f s).shapesOk := by
  unfold Machine.onCore
  split
  · exact hs.congr (State.shapes_dbgRefuse _ _)
  · exact hs.congr (State.shapes_dbgRefuse _ _)
  · exact hf _

theorem State.shapesOk.onHart (halted : Bool) {f : Nat → Nat → State → State} (hf : ∀ c h, (f c h s).shapesOk) :
    (onHart halted f s).shapesOk := by
  refine hs.onCore fun c => ?_
  dsimp only
  split
  · exact hs.congr (State.shapes_dbgRefuse _ _)
  · split
    · exact hs.congr (State.shapes_dbgRefuse _ _)
    · exact hf _ _

theorem outOk_execNonce : outOk (execNonce s) := by
  refine outOk_dbgCommand hs (hs.congr ?_)
  split <;> simp

theorem outOk_execToken : outOk (execToken s) := by
  refine outOk_dbgCommand hs (hs.congr ?_)
  split
  · simp
  · split <;> simp

theorem outOk_execAttach : outOk (execAttach s) := by
  refine outOk_dbgCommand hs (hs.congr ?_)
  dsimp only
  split <;> simp

theorem outOk_execDetach : outOk (execDetach s) := by
  refine outOk_dbgCommand hs (hs.congr ?_)
  split <;> simp

theorem outOk_execHalt : outOk (execHalt s) := by
  refine outOk_dbgCommand hs (hs.onHart _ fun c h => hs.congr ?_)
  split
  · simp
  · split
    · simp
    · exact (State.shapes_dbgDone _).trans ((State.shapes_haltHart _).trans (State.shapes_at _ _ _))

theorem outOk_execResume : outOk (execResume s) :=
  outOk_dbgCommand hs (hs.onHart _ fun _ _ => hs.congr (by simp))

theorem outOk_execStep : outOk (execStep s) :=
  outOk_dbgCommand hs (hs.onHart _ fun _ _ => hs.congr
    ((State.shapes_dbgBusy _ _ _).trans (State.shapes_modHartAt _ _ _ _ (Hart.shape_resume _))))

theorem State.shapesOk.dbgWrite (c h : Nat) (p : DbgPlace) (v : Word) : (s.dbgWrite c h p v).shapesOk := by
  cases p with
  | csr n => exact hs.putCsr ..
  | sreg | chunk | mask | tile | image | lane | route | pc => exact hs.congr (by simp [State.dbgWrite])

theorem State.shapesOk.dbgAccess (write : Bool) : (dbgAccess write s).shapesOk := by
  unfold Machine.dbgAccess
  dsimp only
  split
  · exact hs.onCore fun _ => hs.congr (State.shapes_dbgRefuse _ _)
  · rename_i p _
    have act (c h : Nat) : State.shapesOk
        (if ((write && !p.writable) || !(p.ofCore || p.exists_ (s.hartAt c h))) = true then s.dbgRefuse 7
        else if write = true then (s.dbgWrite c h p s.mgr.dbgdata).dbgDone
        else (s.modMgr fun m => { m with dbgdata := s.dbgRead c h p }).dbgDone) := by
      split
      · exact hs.congr (State.shapes_dbgRefuse _ _)
      · split
        · exact State.shapesOk.congr (hs.dbgWrite ..) (State.shapes_dbgDone _)
        · exact hs.congr (by simp)
    split
    · exact hs.onCore fun c => act c _
    · exact hs.onHart _ act

theorem outOk_execTraceon : outOk (execTraceon s) := by
  refine outOk_dbgCommand hs (hs.onCore fun c => hs.congr ?_)
  split <;> simp

theorem outOk_execTraceoff : outOk (execTraceoff s) :=
  outOk_dbgCommand hs (hs.onCore fun _ => hs.congr (by simp))

theorem outOk_debugCommand (v : Word) : outOk (debugCommand v s) := by
  unfold debugCommand
  split
  case h_1 => exact outOk_execNonce hs
  case h_2 => exact outOk_execToken hs
  case h_3 => exact outOk_execAttach hs
  case h_4 => exact outOk_execDetach hs
  case h_5 => exact outOk_execHalt hs
  case h_6 => exact outOk_execResume hs
  case h_7 => exact outOk_execStep hs
  case h_8 => exact outOk_dbgCommand hs (hs.dbgAccess _)
  case h_9 => exact outOk_dbgCommand hs (hs.dbgAccess _)
  case h_10 => exact outOk_execTraceon hs
  case h_11 => exact outOk_execTraceoff hs
  case h_12 => exact hs

/-! ### The manager -/

/-- A state without a listed core is legal where its blocks are those of a state with legal shapes. -/
theorem State.shapesOk.noCores {t u : State} (hu : u.shapes = s.shapes) (hc : t.cores = []) (ht : t.tens = u.tens) : t.shapesOk :=
  ⟨fun _ hp => absurd (hc ▸ hp) List.not_mem_nil, ht ▸ (hs.congr hu).descs⟩

theorem State.shapesOk.enterOff : s.enterOff.shapesOk := by
  unfold State.enterOff
  dsimp only
  split
  · exact hs.congr (State.shapes_modMgr _ _)
  · refine hs.noCores ((State.shapes_foldl _ (fun _ _ => State.shapes_modTenAt _ _ _ (rfl)) _ _).trans ?_) rfl rfl
    refine State.shapes_foldl _ (fun _ _ => ?_) _ _
    split <;> simp

theorem State.shapesOk.writeGroup (g : Nat) (v : Word) : (s.writeGroup g v).shapesOk := by
  unfold State.writeGroup
  dsimp only
  split
  · exact hs
  · refine State.shapesOk.congr ?_ (State.shapes_modMgr _ _)
    exact foldl_keeps State.shapesOk _ (fun _ _ h => h.modCoreAt _ _ fun _ hq => absurd hq List.not_mem_nil) _ _
      (hs.congr (State.shapes_untrace _ _))

theorem outOk_mgrWrite (off : Nat) (v : Word) : outOk (s.mgrWrite off v) := by
  have mgr (f : Mgr → Mgr) : (s.modMgr f).shapesOk := hs.congr (State.shapes_modMgr _ _)
  unfold State.mgrWrite
  dsimp only
  split
  · rw [outOk_next]
    split
    · exact hs.enterOff
    · split
      · exact s.shapesOk_boot _
      · exact hs
  · split
    · exact hs
    · split
      · exact hs.writeGroup ..
      · split
        · exact hs.congr (s.shapes_writeWindow ..)
        · split
          · exact mgr _
          · split
            · exact mgr _
            · split
              case h_1 => exact outOk_ite hs (mgr _)
              case h_2 => exact outOk_ite (mgr _) hs
              case h_4 => exact outOk_debugCommand hs v
              case h_8 => exact hs
              case h_3 | h_5 | h_6 | h_7 => exact mgr _

theorem State.shapesOk.writeRegs (t off : Nat) (v : Word) : (s.writeRegs t off v).shapesOk := by
  unfold State.writeRegs
  dsimp only
  split
  · exact hs.writeReg ..
  · exact State.shapesOk.writeReg (hs.writeReg ..) ..

theorem outOk_execRegisterWrite (blk : Block) (off : BitVec 16) (v : BitVec 64) : outOk (execRegisterWrite blk off v s) := by
  cases blk with
  | ten t => exact hs.writeRegs ..
  | mgr => exact outOk_mgrWrite hs _ _

theorem outOk_execPowerOn (img : BitVec 64) : outOk (execPowerOn img s) :=
  outOk_ite (s.shapesOk_boot _) hs

theorem outOk_execPwrreqLeaveOff (img : BitVec 64) : outOk (execPwrreqLeaveOff img s) :=
  outOk_ite (s.shapesOk_boot _) hs

end

section
variable (s : State)

theorem outHas_execTamlinkPortDown (k : BitVec 16) : outHas s.shapes (execTamlinkPortDown k s) := by
  refine (outHas_next _ _).2 ?_
  split <;> rfl

theorem outHas_execTamlinkPortUp (k : BitVec 16) : outHas s.shapes (execTamlinkPortUp k s) := by
  refine (outHas_next _ _).2 ?_
  split <;> rfl

theorem outHas_execHostWrite (pa : BitVec 64) (n : BitVec 3) (v : BitVec 64) : outHas s.shapes (execHostWrite pa n v s) := by
  unfold execHostWrite
  dsimp only
  split
  · rfl
  · split <;> simp

end

end Sys2Proof.Machine

/-! SUPPORT. Legal shapes: every instruction and event, and every turn (00_scope R6), leave them legal. -/

namespace Sys2Proof.Machine

section
variable {i : Instr} {s : State} (hs : s.shapesOk)
include hs

/-- An instruction of the scalar stream leaves legal shapes. -/
theorem outOk_exec_scalar (hv : vinfo i = none) (he : isEvent i = false) : outOk (exec i s) := by
  cases i <;> cases hv <;> cases he
  case add | sub | and | or | xor | shl | shr | sar | slt | sltu | mul | mulh | div | divu | rem | min | max | addi | andi | ori | xori
      | slti | shli | shri | sari | lhi | addpc => exact outOk_finish hs _ _
  case ld | lw | lwu | lh | lhu | lb | lbu => exact hs.outOk_of_has (outHas_load s ..)
  case sd | sw | sh | sb => exact hs.outOk_of_has (outHas_store s ..)
  case beq | bne | blt | bge | bltu | bgeu => exact hs.outOk_of_has (outHas_branch s _ _)
  case jal => exact hs.outOk_of_has (outHas_execJal s ..)
  case jalr => exact hs.outOk_of_has (outHas_execJalr s ..)
  case amoAdd d a b l _ rel _ => exact outOk_amo hs (fun o v _ => some (o + v)) d a b l rel
  case amoSwap d a b l _ rel _ => exact outOk_amo hs (fun _ v _ => some v) d a b l rel
  case amoCas d a b l _ rel _ => exact outOk_amo hs (fun o v e => if o = e then some v else none) d a b l rel
  case amoAnd d a b l _ rel _ => exact outOk_amo hs (fun o v _ => some (o &&& v)) d a b l rel
  case amoOr d a b l _ rel _ => exact outOk_amo hs (fun o v _ => some (o ||| v)) d a b l rel
  case amoMax d a b l _ rel _ => exact outOk_amo hs (fun o v _ => some (if o.slt v then v else o)) d a b l rel
  case amoMin d a b l _ rel _ => exact outOk_amo hs (fun o v _ => some (if o.slt v then o else v)) d a b l rel
  case fenceSv sc => exact hs.outOk_of_has (outHas_fence s true false sc)
  case fenceVs sc => exact hs.outOk_of_has (outHas_fence s false true sc)
  case fenceAll sc => exact hs.outOk_of_has (outHas_fence s true true sc)
  case fenceVv sc => exact hs.outOk_of_has (outHas_execFenceVv s sc)
  case vblk | vblkr => exact hs.outOk_of_has (outHas_block s ..)
  case setlen | setleni => exact hs.outOk_of_has (outHas_setlen s ..)
  case csrr d a csr => exact outOk_csrAccess hs false (fun _ => none) (.csrr d a csr) d csr.toNat
  case csrw d a csr => exact outOk_csrAccess hs true (fun _ => some (s.rd a)) (.csrw d a csr) d csr.toNat
  case csrs d a csr =>
    exact outOk_csrAccess hs true (fun old => if s.rd a = 0 then none else some (old ||| s.rd a)) (.csrs d a csr) d csr.toNat
  case csrc d a csr =>
    exact outOk_csrAccess hs true (fun old => if s.rd a = 0 then none else some (old &&& ~~~s.rd a)) (.csrc d a csr) d csr.toNat
  case svc | brk | illegalInstruction => exact outOk_trap hs _ _
  case tret => exact hs.outOk_of_has (outHas_execTret s)
  case vret => exact hs.outOk_of_has (outHas_execVret s)
  case iflush => exact hs.outOk_of_has (outHas_execIflush s)
  case tlbinvPg => exact hs.outOk_of_has (outHas_execTlbinvPg s ..)
  case tlbinvAll => exact hs.outOk_of_has (outHas_execTlbinvAll s ..)
  case vqsave => exact outOk_execVqsave hs ..
  case vqload => exact hs.outOk_of_has (outHas_execVqload s ..)
  case cwb => exact hs.outOk_of_has (outHas_cacheOp s State.shapes_writeBack ..)
  case cinv => exact hs.outOk_of_has (outHas_cacheOp s State.shapes_discard ..)
  case hexit => exact hs.outOk_of_has (outHas_execHexit s)
  case vdecl => exact outOk_execVdecl hs _
  case farm => exact hs.outOk_of_has (outHas_execFarm s ..)
  case fnext => exact hs.outOk_of_has (outHas_execFnext s ..)
  case hbar => exact hs.outOk_of_has (outHas_execHbar s)
  case cset => exact hs.outOk_of_has (outHas_execCset s ..)
  case hlaunch => exact outOk_execHlaunch hs ..

/-- An event leaves legal shapes. -/
theorem outOk_exec_event (he : isEvent i = true) : outOk (exec i s) := by
  cases i <;> cases he
  case blockWordPlace => exact hs.outOk_of_has (outHas_execBlockWordPlace s)
  case convoyDispatch => exact hs.outOk_of_has (outHas_execConvoyDispatch s _)
  case combWordIssue => exact hs.outOk_of_has (outHas_execCombWordIssue s)
  case scalarLoadData => exact hs.outOk_of_has (outHas_execScalarLoadData s)
  case storeBufferWrite => exact outOk_execStoreBufferWrite hs
  case trapTake => exact hs.outOk_of_has (outHas_execTrapTake s)
  case machineCheck => exact hs.outOk_of_has (outHas_execMachineCheck s _)
  case arbitrationPromotion => exact hs.outOk_of_has (outHas_execArbitrationPromotion s _)
  case fenceRelease => exact hs.outOk_of_has (outHas_execFenceRelease s)
  case hbarRelease => exact hs.outOk_of_has (outHas_execHbarRelease s)
  case hexitFree => exact hs.outOk_of_has (outHas_execHexitFree s)
  case vwaitWake | vwaitPoll | fwaitRelease | cwpwRelease => exact hs.congr (shapes_resumeHead s _)
  case vwaitTimeout => exact hs.outOk_of_has (outHas_execVwaitTimeout s)
  case rrecvTake | rrecvTimeout => exact hs.congr (shapes_rrecvEnd s _)
  case rowArrival => exact hs.outOk_of_has (outHas_execRowArrival s _)
  case returnArrival => exact hs.outOk_of_has (outHas_execReturnArrival s _)
  case refusalArrival => exact hs.outOk_of_has (outHas_execRefusalArrival s _)
  case frameTimeout => exact hs.outOk_of_has (outHas_execFrameTimeout s _)
  case launchCheck => exact outOk_execLaunchCheck hs _
  case launchPlace => exact outOk_execLaunchPlace hs _
  case launchComplete => exact hs.outOk_of_has (outHas_execLaunchComplete s _)
  case ired | rcopy | rfill => exact hs.outOk_of_has (outHas_cardEvent s _ _)
  case cardBound => exact hs.outOk_of_has (outHas_execCardBound s ..)
  case reductionPacket => exact hs.outOk_of_has (outHas_execReductionPacket s _)
  case copyCommand => exact hs.outOk_of_has (outHas_execCopyCommand s _)
  case copyChunk => exact hs.outOk_of_has (outHas_execCopyChunk s _)
  case contributionArrival => exact hs.outOk_of_has (outHas_execContributionArrival s _)
  case collectiveCombine => exact hs.outOk_of_has (outHas_execCollectiveCombine s _)
  case contributionAck => exact hs.outOk_of_has (outHas_execContributionAck s _)
  case chunkFetch => exact hs.outOk_of_has (outHas_execChunkFetch s _)
  case trainArrival => exact hs.outOk_of_has (outHas_execTrainArrival s _)
  case trainAck => exact hs.outOk_of_has (outHas_execTrainAck s _)
  case propolisUnitCopy => exact hs.outOk_of_has (outHas_execPropolisUnitCopy s ..)
  case propolisLastCut => exact hs.outOk_of_has (outHas_execPropolisLastCut s _)
  case propolisDrainUnit => exact hs.outOk_of_has (outHas_execPropolisDrainUnit s _)
  case propolisDrainRefused => exact hs.outOk_of_has (outHas_execPropolisDrainRefused s _)
  case propolisArm | lqpush | intstatClear | preempt | attreq => exact hs.writeReg ..
  case registerWrite => exact outOk_execRegisterWrite hs ..
  case devnumWrite v => exact outOk_mgrWrite hs 0x08 v
  case plimitWrite v => exact outOk_mgrWrite hs 0x10 v
  case groupownWrite | windowWrite => exact outOk_mgrWrite hs _ _
  case pwrreqEnterOff => exact hs.enterOff
  case pwrreqLeaveOff => exact outOk_execPwrreqLeaveOff hs _
  case powerOn => exact outOk_execPowerOn hs _
  case nonce => exact outOk_execNonce hs
  case token => exact outOk_execToken hs
  case attach => exact outOk_execAttach hs
  case detach => exact outOk_execDetach hs
  case halt => exact outOk_execHalt hs
  case resume => exact outOk_execResume hs
  case step => exact outOk_execStep hs
  case read | write => exact outOk_dbgCommand hs (hs.dbgAccess _)
  case traceon => exact outOk_execTraceon hs
  case traceoff => exact outOk_execTraceoff hs
  case vgrantWrite => exact hs.outOk_of_has (outHas_execVgrantWrite s ..)
  case combRateHalve => exact hs.outOk_of_has (outHas_execCombRateHalve s ..)
  case tamlinkPortDown => exact hs.outOk_of_has (outHas_execTamlinkPortDown s _)
  case tamlinkPortUp => exact hs.outOk_of_has (outHas_execTamlinkPortUp s _)
  case hostWrite => exact hs.outOk_of_has (outHas_execHostWrite s ..)

/-- Whatever runs leaves legal shapes. -/
theorem outOk_exec (i : Instr) : outOk (exec i s) := by
  cases hv : vinfo i with
  | some v => exact hs.outOk_of_has (outHas_exec_word hv s)
  | none =>
    cases he : isEvent i with
    | true => exact outOk_exec_event hs he
    | false => exact outOk_exec_scalar hs hv he

end

/-! ### Turns -/

/-- What a turn's work is granted is no shape. -/
theorem outOk_granting {s : State} (goes : Bool) (rs : List Resource) {o : Out} (h : outOk o) : outOk (s.granting goes rs o) := by
  cases o with
  | next u => exact outOk_ite (State.shapesOk.congr h (State.shapes_grant _ _)) h
  | fault f => trivial
  | refused r => trivial

theorem State.shapes_input (s : State) (i : Option Input) : (s.input i).shapes = s.shapes := by
  unfold State.input
  split
  · rfl
  · split <;> rfl
  · split <;> rfl
  · refine State.shapes_modCoreAt _ _ _ ?_
    split <;> rfl

section
variable {s : State} (hs : s.shapesOk)
include hs

theorem outOk_scalarTurn : outOk (scalarTurn s) := by
  cases hm : s.hart.mayIssue with
  | false => exact (congrArg outOk (scalarTurn_held hm)).mpr hs
  | true =>
    cases hf : s.fetch32 s.hart.pc with
    | error e =>
      rw [scalarTurn_fetch_fails hm hf]
      exact outOk_trap (hs.congr (State.shapes_fetch32_error hf)) _ _
    | ok r =>
      have ht : r.2.shapesOk := hs.congr (State.shapes_fetch32_ok hf)
      rw [scalarTurn_fetched hm hf]
      split
      · exact outOk_granting _ _ (outOk_exec ht _)
      · rename_i i _
        cases hg : r.2.gate i with
        | none => exact outOk_granting _ _ (outOk_exec ht _)
        | some o => exact ht.outOk_of_has (outHas_gate _ hg)

theorem outOk_turnWork (t : Turn) : outOk (turnWork t s) := by
  cases he : t.ev with
  | none => exact turnWork_scalar he s ▸ outOk_scalarTurn hs
  | some i =>
    cases hi : isEvent i with
    | true => exact turnWork_event he hi s ▸ outOk_granting _ _ (outOk_exec hs i)
    | false => exact turnWork_other he hi s ▸ hs

theorem outOk_takeTurn (t : Turn) : outOk (takeTurn t s) := by
  have h : (t.start s).shapesOk := hs.congr (State.shapes_input _ _)
  rw [takeTurn_eq]
  split
  · exact h
  · exact outOk_turnWork h t

theorem outOk_ownTurn : outOk (ownTurn s) := by
  rcases ownTurn_cases s with ⟨t, -, h⟩ | ⟨-, h⟩
  · exact h ▸ outOk_takeTurn hs t
  · exact h ▸ hs

theorem outOk_step : outOk (step s) := by
  cases ha : s.agenda with
  | nil => exact step_of_no_agenda ha ▸ outOk_ownTurn (hs.congr (rfl))
  | cons t r =>
    rw [step_of_agenda ha]
    split
    · exact outOk_ownTurn (hs.congr (rfl))
    · exact outOk_takeTurn (s := { s with tick := s.tick + 1, agenda := r }) (hs.congr (rfl)) t

end

end Sys2Proof.Machine

/-! The family "Harts": O6. -/

namespace Sys2Proof

open Machine

/-- Settles O6: what runs in a turn keeps what every hart and every queue shows of its shape, but for NREG written, VDECL, a descriptor
appended, checked or taken, and harts placed or reset, and each of these leaves legal shapes. -/
theorem stepKeepsLegalShapes : Obligations.StepKeepsLegalShapes := by
  unfold Obligations.StepKeepsLegalShapes
  intro s t hs ht
  have h := outOk_step hs
  rwa [ht] at h

end Sys2Proof

/-! The family "Harts": O49. A waiting word that has not dispatched. -/

namespace Sys2Proof

open Machine

/-- CWPW to the target 1 at the head of a vector queue, its register not captured as that of a word that has dispatched is. -/
def undispatchedCwpw : Entry := { queuedInstr (.cwpw false 0 0) 0 with sval := 1 }

/-- A hart whose vector queue waits at that word, on a copy channel whose write pointer is 0. -/
def undispatchedWait : State := State.reset.modHart fun k => { k with
  vec := { k.vec with vs := 1 }
  q := { k.q with vq := [undispatchedCwpw], flight := some [0], stall := .cwpw }
  place := { k.place with placed := true } }

theorem undispatchedWait_waitsAt : WaitsAt undispatchedWait.hart undispatchedCwpw [] (.cwpw false 0 0) where
  head := by decide +kernel
  instr := by decide +kernel
  last := by decide +kernel
  runs := by decide +kernel
  begun := by decide +kernel
  quiet := by decide +kernel

/-- What the words of the vector queue have captured as they dispatched, after an outcome. -/
def bvalsAfter : Machine.Out → List (Option Word)
  | .next t => t.hart.q.vq.map Entry.bval
  | _ => []

/-- After the release the word waits on, as one that has dispatched. -/
theorem undispatchedWait_released : bvalsAfter (exec .cwpwRelease undispatchedWait) = [some 0] := by decide +kernel

/-- Refutes O49: of every hart whose queue waits at CWPW with its target still to come the statement says that a release leaves the
word at the head as it stands, but the release records that the word has dispatched, which nothing in the statement says it has. The
case is CWPW to the target 1 with the write pointer 0. -/
theorem not_waitingWordsRunAndEnd : ¬ Obligations.WaitingWordsRunAndEnd := by
  unfold Obligations.WaitingWordsRunAndEnd
  intro h
  obtain ⟨-, -, -, -, -, hwait⟩ := h undispatchedWait ⟨false, none⟩ 0 0 0 0 0 0 0 fun _ => []
  obtain ⟨t, ht, hq, -⟩ := (hwait undispatchedCwpw [] undispatchedWait_waitsAt (by decide +kernel)).2 (by decide +kernel)
  have hb := undispatchedWait_released
  rw [ht, bvalsAfter, hq] at hb
  exact absurd hb (by decide +kernel)

end Sys2Proof

/-! SUPPORT. Propolis (13_collective R304-R308): what setting and clearing CW, an interrupt bit, a failed snapshot and a unit
copied leave. -/

namespace Sys2Proof.Machine

/-! ### Interrupt bits (15_device R341) -/

/-- A tenancy's block with a bit of INTSTAT set. -/
def Ten.raised (n : Nat) (x : Ten) : Ten := { x with intstat := x.intstat ||| (1 : BitVec 3) <<< n }

section
variable (s : State) (t n : Nat)

/-- Nothing but the tenancy's block and the vectors sent changes. -/
theorem State.raise_rest : { s.raise t n with tens := [], msix := [] } = { s with tens := [], msix := [] } := by
  unfold State.raise
  dsimp only
  (repeat' split) <;> rfl

@[simp] theorem State.raise_cores : (s.raise t n).cores = s.cores := (congrArg State.cores (s.raise_rest t n) :)
@[simp] theorem State.raise_mem : (s.raise t n).mem = s.mem := (congrArg State.mem (s.raise_rest t n) :)
@[simp] theorem State.raise_marks : (s.raise t n).marks = s.marks := (congrArg State.marks (s.raise_rest t n) :)
@[simp] theorem State.raise_latent : (s.raise t n).latent = s.latent := (congrArg State.latent (s.raise_rest t n) :)
@[simp] theorem State.raise_launches : (s.raise t n).launches = s.launches := (congrArg State.launches (s.raise_rest t n) :)
@[simp] theorem State.raise_drains : (s.raise t n).drains = s.drains := (congrArg State.drains (s.raise_rest t n) :)

theorem State.byte_raise (a : Nat) : (s.raise t n).byte a = s.byte a := congrArg (fun m => mget memDefault m a) (s.raise_mem t n)

/-- A bit that is set already stays as it is where it is set again. -/
theorem or_bit_of_set {x : BitVec 3} {n : Nat} (h : x.getLsbD n = true) : x ||| (1 : BitVec 3) <<< n = x := by
  have hall : ∀ n < 3, ∀ x : BitVec 3, x.getLsbD n = true → x ||| (1 : BitVec 3) <<< n = x := by decide
  exact hall n (BitVec.lt_of_getLsbD h) x h

/-- The tenancy's INTSTAT has the bit, and nothing else of its block changes. -/
theorem State.tenAt_raise_same : (s.raise t n).tenAt t = (s.tenAt t).raised n := by
  unfold State.raise
  dsimp only
  split
  · next h => rw [Ten.raised, or_bit_of_set h]
  · split
    · exact (s.tenAt_modTenAt_same t (Ten.raised n) :)
    · exact (s.tenAt_modTenAt_same t (Ten.raised n) :)

theorem State.tenAt_raise_ne {o : Nat} (h : o ≠ t) : (s.raise t n).tenAt o = s.tenAt o := by
  unfold State.raise
  dsimp only
  split
  · rfl
  · split
    · exact (s.tenAt_modTenAt_ne t o (Ten.raised n) h :)
    · exact (s.tenAt_modTenAt_ne t o (Ten.raised n) h :)

end

/-! ### CW (08_memory R169) -/

/-- A byte with CW set or clear. -/
def cwByte (on : Bool) (b : Byte) : Byte := if on then b ||| 0x80 else b &&& 0x7F

theorem cwByte_cwByte : ∀ (on : Bool) (b : Byte), cwByte on (cwByte on b) = cwByte on b := by decide

/-- No error that no mark records stands in the line of a leaf. -/
def State.leafSound (s : State) (a : Nat) : Prop := smem s.latent (lineOf a) = false

section
variable (s : State)

theorem State.setCw_sound {leaf : Nat} (h : s.leafSound leaf) (on : Bool) :
    s.setCw leaf on = { s with mem := mput memDefault s.mem leaf (cwByte on (s.byte leaf)) } := by
  unfold State.setCw State.patchByte
  rw [h]
  rfl

/-- CW of one leaf. -/
theorem State.byte_setCw {leaf : Nat} (h : s.leafSound leaf) (on : Bool) (a : Nat) :
    (s.setCw leaf on).byte a = if a = leaf then cwByte on (s.byte a) else s.byte a := by
  rw [s.setCw_sound h on]
  by_cases ha : a = leaf
  · subst ha
    rw [if_pos rfl]
    exact mget_mput_same _ _ _ _
  · rw [if_neg ha]
    exact mget_mput_ne _ _ _ _ _ ha

theorem State.latent_setCw {leaf : Nat} (h : s.leafSound leaf) (on : Bool) : (s.setCw leaf on).latent = s.latent := by
  rw [s.setCw_sound h on]

/-- CW set in a leaf, and the translations through it dropped. -/
def State.lockLeaf (s : State) (leaf : Nat) : State := (s.setCw leaf true).dropLeaf leaf

end

/-- CW changed in the leaves of some units in turn, by a step that changes it in the leaf of each unit that `p` picks. -/
theorem foldl_cw {on : Bool} {p : PUnit → Bool} {f : State → PUnit → State}
    (hf : ∀ s u, f s u = if p u then (if on then s.lockLeaf u.leafAt else s.setCw u.leafAt on) else s)
    (us : List PUnit) {s : State} (hs : ∀ u ∈ us, p u = true → s.leafSound u.leafAt) :
    (us.foldl f s).latent = s.latent
      ∧ ∀ a, (us.foldl f s).byte a = if us.any (fun u => p u && u.leafAt == a) then cwByte on (s.byte a) else s.byte a := by
  induction us generalizing s with
  | nil => exact ⟨rfl, fun a => rfl⟩
  | cons u r ih =>
    have hstep : (f s u).latent = s.latent ∧ ∀ a, (f s u).byte a = if p u && u.leafAt == a then cwByte on (s.byte a) else s.byte a := by
      rw [hf]
      cases hp : p u with
      | false => exact ⟨rfl, fun a => rfl⟩
      | true =>
        have hu := hs u List.mem_cons_self hp
        have hb (a : Nat) : (s.setCw u.leafAt on).byte a = if true && u.leafAt == a then cwByte on (s.byte a) else s.byte a := by
          rw [s.byte_setCw hu on a, Bool.true_and]
          exact if_congr (by rw [beq_iff_eq, eq_comm]) rfl rfl
        cases on with
        | true => exact ⟨s.latent_setCw hu true, hb⟩
        | false => exact ⟨s.latent_setCw hu false, hb⟩
    obtain ⟨hl, hb⟩ := hstep
    obtain ⟨hl', hb'⟩ := ih (s := f s u) fun v hv hp => by
      rw [State.leafSound, hl]
      exact hs v (List.mem_cons_of_mem _ hv) hp
    refine ⟨hl'.trans hl, fun a => (hb' a).trans ?_⟩
    rw [hb, List.any_cons]
    cases (p u && u.leafAt == a) <;> cases (r.any fun u => p u && u.leafAt == a) <;> simp [cwByte_cwByte]

/-! ### A snapshot that fails (13_collective R308) -/

section
variable (s : State) (t : Nat) (reason : BitVec 5)

/-- CW cleared in the leaves of some units. -/
def State.clearCws (s : State) (us : List PUnit) : State := us.foldl (fun s u => s.setCw u.leafAt false) s

/-- A state without its memory, the marks and the errors. -/
def State.sansMem : State := { s with mem := [], marks := [], latent := [] }

theorem State.sansMem_setCw (leaf : Nat) (on : Bool) : (s.setCw leaf on).sansMem = s.sansMem := by
  unfold State.setCw State.patchByte
  split <;> rfl

/-- Clearing CW changes nothing but memory, its marks and its errors. -/
theorem State.clearCws_rest (us : List PUnit) : (s.clearCws us).sansMem = s.sansMem :=
  foldl_keeps (fun u : State => u.sansMem = s.sansMem) _ (fun _ _ h => (State.sansMem_setCw _ _ _).trans h) us s rfl

theorem State.failSnapshot_eq : s.failSnapshot t reason = ((s.clearCws (s.tenAt t).prop.units).raise t 1).modTenAt t fun x =>
    { x with prop := { x.prop with st := 5, reason := reason, units := [], uncut := [] } } := rfl

theorem State.clearCws_tens (us : List PUnit) : (s.clearCws us).tens = s.tens := (congrArg State.tens (s.clearCws_rest us) :)
theorem State.clearCws_cores (us : List PUnit) : (s.clearCws us).cores = s.cores := (congrArg State.cores (s.clearCws_rest us) :)

theorem State.tenAt_clearCws (us : List PUnit) (o : Nat) : (s.clearCws us).tenAt o = s.tenAt o :=
  congrArg (fun m => mget Ten.init m o) (s.clearCws_tens us)

theorem State.tenAt_failSnapshot_same : (s.failSnapshot t reason).tenAt t = { s.tenAt t with
    intstat := (s.tenAt t).intstat ||| 2
    prop := { (s.tenAt t).prop with st := 5, reason := reason, units := [], uncut := [] } } := by
  rw [State.failSnapshot_eq, State.tenAt_modTenAt_same, State.tenAt_raise_same, State.tenAt_clearCws]
  rfl

theorem State.tenAt_failSnapshot_ne {o : Nat} (h : o ≠ t) : (s.failSnapshot t reason).tenAt o = s.tenAt o := by
  rw [State.failSnapshot_eq, State.tenAt_modTenAt_ne _ _ _ _ h, State.tenAt_raise_ne _ _ _ h, State.tenAt_clearCws]

@[simp] theorem State.failSnapshot_cores : (s.failSnapshot t reason).cores = s.cores := by
  rw [State.failSnapshot_eq, State.modTenAt_cores, State.raise_cores, State.clearCws_cores]

@[simp] theorem State.failSnapshot_launches : (s.failSnapshot t reason).launches = s.launches := by
  rw [State.failSnapshot_eq, State.modTenAt_launches, State.raise_launches]
  exact (congrArg State.launches (s.clearCws_rest _) :)

theorem State.failSnapshot_mem : (s.failSnapshot t reason).mem = (s.clearCws (s.tenAt t).prop.units).mem := by
  rw [State.failSnapshot_eq, State.modTenAt_mem, State.raise_mem]

theorem State.failSnapshot_marks : (s.failSnapshot t reason).marks = (s.clearCws (s.tenAt t).prop.units).marks := by
  rw [State.failSnapshot_eq, State.modTenAt_marks, State.raise_marks]

theorem State.failSnapshot_latent : (s.failSnapshot t reason).latent = (s.clearCws (s.tenAt t).prop.units).latent := by
  rw [State.failSnapshot_eq, State.modTenAt_latent, State.raise_latent]

/-- Every CW that was set is clear. -/
theorem State.byte_clearCws {us : List PUnit} (h : ∀ u ∈ us, s.leafSound u.leafAt) (a : Nat) :
    (s.clearCws us).byte a = if us.any (fun u => u.leafAt == a) then s.byte a &&& 0x7F else s.byte a := by
  refine ((foldl_cw (on := false) (p := fun _ => true) (fun s u => ?_) us fun u hu _ => h u hu).2 a).trans ?_
  · rfl
  · simp [cwByte]

theorem State.byte_failSnapshot (a : Nat) : (s.failSnapshot t reason).byte a = (s.clearCws (s.tenAt t).prop.units).byte a :=
  congrArg (fun m => mget memDefault m a) (s.failSnapshot_mem t reason)

/-- Without units no byte changes. -/
theorem State.byte_failSnapshot_nil (h : (s.tenAt t).prop.units = []) (a : Nat) : (s.failSnapshot t reason).byte a = s.byte a := by
  rw [State.byte_failSnapshot, h]
  rfl

end

end Sys2Proof.Machine

/-! SUPPORT. Propolis armed (13_collective R304, R305). -/

namespace Sys2Proof.Machine

/-! ### What a walk of the leaves depends on -/

section
variable {s u : State}

theorem State.byte_of_mem (h : u.mem = s.mem) (a : Nat) : u.byte a = s.byte a := congrArg (fun m => mget memDefault m a) h

theorem State.readMem_of_mem (h : u.mem = s.mem) (a n : Nat) : u.readMem a n = s.readMem a n := by
  induction n generalizing a with
  | zero => rfl
  | succ n ih => rw [State.readMem, State.readMem, State.byte_of_mem h, ih]

theorem State.leavesFrom_of_mem (h : u.mem = s.mem) (ws : List (Nat × Nat × Nat)) (fuel level node va : Nat) :
    u.leavesFrom ws fuel level node va = s.leavesFrom ws fuel level node va := by
  induction fuel generalizing level node va with
  | zero => rfl
  | succ n ih => simp only [State.leavesFrom, State.readMem_of_mem h, ih]

/-- The SN units under a root are those of memory, the windows and the device. -/
theorem State.snUnits_congr {t : Nat} (hm : u.mem = s.mem) (hw : (u.tenAt t).wins = (s.tenAt t).wins) (hg : u.mgr = s.mgr) (root : Word) :
    u.snUnits t root = s.snUnits t root := by
  have hopen (pa : Nat) : u.windowOpen t pa = s.windowOpen t pa := by
    unfold State.windowOpen
    rw [hw]
  simp only [State.snUnits, State.leavesFrom_of_mem hm, hw, hg, hopen]

theorem State.areaIn_congr (hg : u.mgr = s.mgr) (ws : List (Nat × Nat × Nat)) (parea : Word) : u.areaIn ws parea = s.areaIn ws parea := by
  unfold State.areaIn
  rw [hg]

end

/-- A unit found for a snapshot has no copy yet. -/
theorem State.image_snUnits {s : State} {t : Nat} {root : Word} {y : PUnit} (h : y ∈ s.snUnits t root) : y.image = none := by
  obtain ⟨l, -, hl⟩ := List.mem_flatMap.1 h
  split at hl
  · cases hl
  · split at hl
    · cases hl
    · obtain ⟨i, -, rfl⟩ := List.mem_map.1 hl
      rfl

/-! ### Units noted -/

/-- A unit of a page under a root is another one of the same. -/
def PUnit.same (z y : PUnit) : Prop := z.unit = y.unit ∧ z.page = y.page ∧ z.root = y.root

/-- One unit noted among those that are there already. -/
def noteUnit (l : List PUnit) (u : PUnit) : List PUnit :=
  if l.any fun x => x.unit == u.unit && x.page == u.page && x.root == u.root then l
  else l ++ [{ u with image := (l.find? fun x => x.unit == u.unit && x.image.isSome).bind PUnit.image }]

theorem Propolis.units_note (p : Propolis) (us : List PUnit) : (p.note us).units = us.foldl noteUnit p.units := rfl

/-- Without a copy among them, a unit is there or is added as it is. -/
theorem noteUnit_cases {l : List PUnit} {u : PUnit} (hl : ∀ z ∈ l, z.image = none) (hu : u.image = none) :
    (noteUnit l u = l ∧ ∃ z ∈ l, z.same u) ∨ noteUnit l u = l ++ [u] := by
  unfold noteUnit
  split
  · rename_i h
    obtain ⟨z, hz, hsame⟩ := List.any_eq_true.1 h
    simp only [Bool.and_eq_true, beq_iff_eq] at hsame
    exact .inl ⟨rfl, z, hz, hsame.1.1, hsame.1.2, hsame.2⟩
  · have hf : l.find? (fun x => x.unit == u.unit && x.image.isSome) = none := by
      refine List.find?_eq_none.2 fun z hz h => ?_
      simp [hl z hz] at h
    rw [hf]
    exact .inr (by rw [Option.bind_none, ← hu])

/-- Units without a copy noted among others without one: each of them is there, and every unit is one of either. -/
theorem foldl_noteUnit {us l : List PUnit} (hl : ∀ z ∈ l, z.image = none) (hus : ∀ u ∈ us, u.image = none) :
    (∀ z ∈ l, z ∈ us.foldl noteUnit l) ∧ (∀ u ∈ us, ∃ z ∈ us.foldl noteUnit l, z.same u)
      ∧ ∀ z ∈ us.foldl noteUnit l, z ∈ l ∨ z ∈ us := by
  induction us generalizing l with
  | nil => exact ⟨fun _ h => h, fun _ h => absurd h List.not_mem_nil, fun _ h => .inl h⟩
  | cons u r ih =>
    have hu := hus u List.mem_cons_self
    have hr := fun v hv => hus v (List.mem_cons_of_mem _ hv)
    rw [List.foldl_cons]
    rcases noteUnit_cases hl hu with ⟨e, z, hz, hzu⟩ | e <;> rw [e]
    · obtain ⟨hkeep, hthere, hfrom⟩ := ih hl hr
      refine ⟨hkeep, fun v hv => ?_, fun v hv => (hfrom v hv).imp_right (List.mem_cons_of_mem _)⟩
      rcases List.mem_cons.1 hv with rfl | hv
      · exact ⟨z, hkeep z hz, hzu⟩
      · exact hthere v hv
    · have hl' : ∀ z ∈ l ++ [u], z.image = none := by
        intro z hz
        rcases List.mem_append.1 hz with hz | hz
        · exact hl z hz
        · exact List.mem_singleton.1 hz ▸ hu
      obtain ⟨hkeep, hthere, hfrom⟩ := ih hl' hr
      refine ⟨fun z hz => hkeep z (List.mem_append_left _ hz), fun v hv => ?_, fun v hv => ?_⟩
      · rcases List.mem_cons.1 hv with rfl | hv
        · exact ⟨v, hkeep v (List.mem_append_right _ (List.mem_singleton_self v)), rfl, rfl, rfl⟩
        · exact hthere v hv
      · rcases hfrom v hv with hv | hv
        · exact (List.mem_append.1 hv).imp_right fun hv => by rw [List.mem_singleton.1 hv]; exact List.mem_cons_self
        · exact .inr (List.mem_cons_of_mem _ hv)

/-! ### PARM written -/

/-- A tenancy's block with PARM written. -/
def Ten.parmed (v : Word) (x : Ten) : Ten := { x with prop := { x.prop with arm := v.getLsbD 63, step := v.extractLsb' 0 48 } }
/-- A block whose Propolis has latched N and the area, with nothing copied or drained. -/
def Ten.latched (x : Ten) : Ten := { x with prop := { x.prop with
  n := x.prop.step, area := x.prop.parea, reason := 0, copied := 0, drained := 0, units := [], uncut := [] } }

section
variable (s : State) (n : Nat) (v : Word)

theorem State.writeReg_parm : s.writeReg n 0x200 8 v = s.writeParm n v := by
  simp [State.writeReg]

theorem State.writeParm_clear (h : v.getLsbD 63 = false) : s.writeParm n v = s.modTenAt n (Ten.parmed v) := by
  unfold State.writeParm
  rw [h]
  simp only [Bool.not_false, if_true]
  unfold Ten.parmed
  rw [h]

theorem State.writeParm_busy (h : v.getLsbD 63 = true)
    (hst : ¬ ((s.tenAt n).prop.st = 0 ∨ (s.tenAt n).prop.st = 4 ∨ (s.tenAt n).prop.st = 5)) : s.writeParm n v = s := by
  unfold State.writeParm
  dsimp only
  rw [h, if_neg (by decide), if_neg hst]

theorem State.writeParm_free (h : v.getLsbD 63 = true)
    (hst : (s.tenAt n).prop.st = 0 ∨ (s.tenAt n).prop.st = 4 ∨ (s.tenAt n).prop.st = 5) :
    s.writeParm n v = (s.modTenAt n (Ten.parmed v)).arm n := by
  unfold State.writeParm
  dsimp only
  rw [if_neg (by rw [h]; decide), if_pos hst]
  rfl

/-- A hart of a tenancy is past a step (R305). -/
def State.pastStep (c : BitVec 48) : Bool := (s.hartsOf n).any fun h => decide (c.toNat < (s.hartAt h.1 h.2).cfg.cstep.toNat)

/-- The units that arming notes. -/
def State.armUnits : List PUnit := (s.launchesOf n).flatMap fun l => s.snUnits n l.ptroot

/-- Arming: a bad area, a hart past N, or the units noted. -/
theorem State.arm_eq : s.arm n = if s.areaGood n (s.tenAt n).prop.parea then
      if s.pastStep n (s.tenAt n).prop.step then (s.modTenAt n Ten.latched).failSnapshot n 1
      else (s.modTenAt n Ten.latched).modTenAt n fun x => { x with prop := { x.prop.note (s.armUnits n) with st := 1, uncut := s.hartsOf n } }
    else (s.modTenAt n Ten.latched).failSnapshot n 4 := by
  have hmod : (s.modTenAt n fun x => { x with prop := { x.prop with
      n := (s.tenAt n).prop.step, area := (s.tenAt n).prop.parea, reason := 0, copied := 0, drained := 0, units := [], uncut := [] } })
      = s.modTenAt n Ten.latched := rfl
  have hw : ((s.modTenAt n Ten.latched).tenAt n).wins = (s.tenAt n).wins := by
    rw [State.tenAt_modTenAt_same]
    rfl
  have harea : (s.modTenAt n Ten.latched).areaGood n (s.tenAt n).prop.parea = s.areaGood n (s.tenAt n).prop.parea := by
    unfold State.areaGood
    rw [hw]
    rfl
  have hunits : ((s.modTenAt n Ten.latched).launchesOf n).flatMap (fun l => (s.modTenAt n Ten.latched).snUnits n l.ptroot) = s.armUnits n := by
    simp only [State.snUnits_congr (s := s) (u := s.modTenAt n Ten.latched) rfl hw rfl]
    rfl
  unfold State.arm
  dsimp only
  rw [hmod, harea, hunits]
  cases s.areaGood n (s.tenAt n).prop.parea with
  | false => rfl
  | true => rfl

end

end Sys2Proof.Machine

/-! SUPPORT. A unit copied to the snapshot area before a store past the cut (13_collective R306, R307). -/

namespace Sys2Proof.Machine

/-! ### A unit's bytes put in the place of another unit -/

/-- A listing filtered by its keys. -/
theorem mget_filter_key {α : Type} (d : α) (q : Nat → Bool) (m : List (Nat × α)) (k : Nat) :
    mget d (m.filter fun c => q c.1) k = if q k then mget d m k else d := by
  induction m with
  | nil => simp [mget]
  | cons c r ih =>
    obtain ⟨j, w⟩ := c
    rw [List.filter_cons]
    dsimp only
    by_cases hk : k = j
    · subst hk
      cases hq : q k with
      | false => rw [if_neg (by decide), ih, hq, if_neg (by decide), if_neg (by decide)]
      | true => simp [mget]
    · rw [mget, if_neg hk, ← ih]
      split
      · rw [mget, if_neg hk]
      · rfl

/-- A key below all that are listed is not listed. -/
theorem mget_of_lt {α : Type} (d : α) {m : List (Nat × α)} {k : Nat} (h : ∀ p ∈ m, k < p.1) : mget d m k = d := by
  induction m with
  | nil => rfl
  | cons c r ih =>
    rw [mget, if_neg (h c List.mem_cons_self).ne]
    exact ih fun p hp => h p (List.mem_cons_of_mem _ hp)

/-- The listed bytes of unit `w` put into unit `u`. -/
theorem mget_fill {u w : Nat} {img : List (Nat × Byte)} (hwf : mwf memDefault img = true) (hw : ∀ c ∈ img, c.1 / 65536 = w)
    (m : List (Nat × Byte)) (a : Nat) :
    mget memDefault (img.foldl (fun m c => mput memDefault m (65536 * u + c.1 % 65536) c.2) m) a
      = if a / 65536 = u then mget (mget memDefault m a) img (65536 * w + a % 65536) else mget memDefault m a := by
  induction img generalizing m with
  | nil => simp [mget]
  | cons c r ih =>
    obtain ⟨j, v⟩ := c
    obtain ⟨-, hlt, hr⟩ := (mwf_cons _ _ _ _).1 hwf
    have hj : j / 65536 = w := hw (j, v) List.mem_cons_self
    rw [List.foldl_cons, ih hr fun c hc => hw c (List.mem_cons_of_mem _ hc)]
    dsimp only
    by_cases ha : a = 65536 * u + j % 65536
    · have hkey : 65536 * w + a % 65536 = j := by omega
      rw [if_pos (by omega), if_pos (by omega), hkey, mget, if_pos rfl, ← ha, mget_mput_same]
      exact mget_of_lt _ hlt
    · rw [mget_mput_ne _ _ _ _ _ ha]
      by_cases hu : a / 65536 = u
      · rw [if_pos hu, if_pos hu, mget, if_neg (by omega)]
      · rw [if_neg hu, if_neg hu]

section
variable (s : State)

/-- A unit that is filled holds the bytes of the other unit, and every other byte stays. -/
theorem State.byte_fillUnit {src : State} (hok : src.memOk) (u w a : Nat) :
    (s.fillUnit u (src.unitImage w)).byte a = if a / 65536 = u then src.byte (65536 * w + a % 65536) else s.byte a := by
  have himg : ∀ c ∈ src.unitImage w, c.1 / 65536 = w := fun c hc => by simpa using (List.mem_filter.1 hc).2
  refine (mget_fill (mwf_filter _ _ _ hok) himg _ a).trans ?_
  rw [mget_filter_key _ (fun k => k / 65536 != u), mget_filter_key _ (fun k => k / 65536 == w)]
  by_cases hu : a / 65536 = u
  · have hd : (a / 65536 != u) = false := by simp [hu]
    have hk : ((65536 * w + a % 65536) / 65536 == w) = true := by
      rw [beq_iff_eq]
      omega
    rw [if_pos hu, if_pos hu, hd, hk, if_pos rfl]
    rfl
  · rw [if_neg hu, if_neg hu, if_pos (by simpa using hu)]
    rfl

/-! ### The copy -/

/-- CW set in the leaves that are to hold stores to a unit back. -/
def State.lockUnit (u : Nat) (us : List PUnit) : State :=
  us.foldl (fun s x => if x.unit = u ∧ !x.drained then s.lockLeaf x.leafAt else s) s

theorem State.lockUnit_tens (u : Nat) (us : List PUnit) : (s.lockUnit u us).tens = s.tens := by
  refine foldl_keeps (fun v : State => v.tens = s.tens) _ (fun v y hv => ?_) us s rfl
  split
  · exact ((congrArg State.tens (v.sansMem_setCw y.leafAt true) :)).trans hv
  · exact hv

/-- CW is set in the leaves not yet drained that map the unit. -/
theorem State.byte_lockUnit {u : Nat} {us : List PUnit} (h : ∀ y ∈ us, s.leafSound y.leafAt) (a : Nat) :
    (s.lockUnit u us).byte a = if us.any (fun y => y.unit == u && !y.drained && y.leafAt == a) then s.byte a ||| 0x80 else s.byte a := by
  refine (foldl_cw (on := true) (p := fun y => y.unit == u && !y.drained) (fun s y => ?_) us fun y hy _ => h y hy).2 a
  simp only [Bool.and_eq_true, beq_iff_eq, if_true]

/-- A block whose Propolis makes a store wait. -/
def Ten.waiting (x : Ten) : Ten := { x with prop := { x.prop with waits := true } }
/-- A block whose Propolis has copied a unit to the next place. -/
def Ten.tookCopy (u slot : Nat) (x : Ten) : Ten := { x with prop := { x.prop with
  copied := x.prop.copied + 1
  units := x.prop.units.map fun y => if y.unit = u ∧ y.image = none ∧ !y.drained then { y with image := some slot } else y } }

variable (t u : Nat)

/-- A full area fails the snapshot while a hart is to cut. -/
theorem State.copyUnit_full (hf : (s.tenAt t).prop.full = true) (hu : (s.tenAt t).prop.uncut ≠ []) : s.copyUnit t u = s.failSnapshot t 2 := by
  unfold State.copyUnit
  dsimp only
  rw [hf, if_pos (by simpa using hu)]

/-- A full area makes the store wait after the last cut. -/
theorem State.copyUnit_waits (hf : (s.tenAt t).prop.full = true) (hu : (s.tenAt t).prop.uncut = []) :
    s.copyUnit t u = s.modTenAt t Ten.waiting := by
  unfold State.copyUnit
  dsimp only
  rw [hf, hu, if_neg (by decide), if_pos rfl]
  rfl

/-- With room the unit goes to the next place of the area. -/
theorem State.copyUnit_room (hf : (s.tenAt t).prop.full = false) :
    s.copyUnit t u = ((s.lockUnit u (s.tenAt t).prop.units).fillUnit ((s.tenAt t).prop.slotUnit (s.tenAt t).prop.copied.toNat)
      (s.unitImage u)).modTenAt t (Ten.tookCopy u (s.tenAt t).prop.copied.toNat) := by
  unfold State.copyUnit
  dsimp only
  rw [hf, Bool.false_and, if_neg (by decide), if_neg (by decide)]
  rfl

theorem State.tenAt_copyUnit_room (hf : (s.tenAt t).prop.full = false) (o : Nat) :
    (s.copyUnit t u).tenAt o = if o = t then (s.tenAt t).tookCopy u (s.tenAt t).prop.copied.toNat else s.tenAt o := by
  have hten (o : Nat) : ((s.lockUnit u (s.tenAt t).prop.units).fillUnit ((s.tenAt t).prop.slotUnit (s.tenAt t).prop.copied.toNat)
      (s.unitImage u)).tenAt o = s.tenAt o := congrArg (fun m => mget Ten.init m o) (s.lockUnit_tens u _)
  rw [s.copyUnit_room t u hf]
  split
  · next h => rw [h, State.tenAt_modTenAt_same, hten]
  · next h => rw [State.tenAt_modTenAt_ne _ _ _ _ h, hten]

/-- The copy holds the unit's bytes, and CW is set in the leaves that map the unit. -/
theorem State.byte_copyUnit_room (hf : (s.tenAt t).prop.full = false) (hok : s.memOk)
    (h : ∀ y ∈ (s.tenAt t).prop.units, s.leafSound y.leafAt) (a : Nat) :
    (s.copyUnit t u).byte a = if a / 65536 = (s.tenAt t).prop.slotUnit (s.tenAt t).prop.copied.toNat then s.byte (65536 * u + a % 65536)
      else if (s.tenAt t).prop.units.any (fun y => y.unit == u && !y.drained && y.leafAt == a) then s.byte a ||| 0x80 else s.byte a := by
  rw [s.copyUnit_room t u hf, ← s.byte_lockUnit h]
  exact State.byte_fillUnit _ hok _ _ _

/-- Making a store wait makes the state wait. -/
theorem State.storeWaits_waiting : (s.modTenAt t Ten.waiting).storeWaits = true :=
  List.any_eq_true.2 ⟨(t, (s.tenAt t).waiting), mem_mset_same _ _ _, rfl⟩

end

end Sys2Proof.Machine

/-! SUPPORT. Stores past the cut (13_collective R306, R307): which unit they copy, and what waits for a drain. -/

namespace Sys2Proof.Machine

/-! ### What Propolis does before a store -/

/-- What one tenancy's Propolis does before a store. -/
def State.tenBefore (step : Option Word) (pa : Nat) (v m : Byte) (s : State) (t : Nat) : State :=
  let pr := (s.tenAt t).prop
  if pr.st = 1 ∨ pr.st = 2 ∨ pr.st = 3 then
    match pr.units.find? fun x => x.unit == pa / 65536 && !x.drained with
    | none => s
    | some x =>
      if afterCut step pr.n then (if x.image = none then s.copyUnit t x.unit else s)
      else match x.image with
        | none => s
        | some i => s.mixImage pr pa v m i
  else s

section
variable {s : State} {step : Option Word} {pa : Nat} {v m : Byte} {t : Nat} {z : PUnit}

theorem State.beforeStore_eq (s : State) (step : Option Word) (pa : Nat) (v m : Byte) :
    s.beforeStore step pa v m = s.tens.foldl (fun s p => State.tenBefore step pa v m s p.1) s := rfl

/-- No snapshot of the tenancy is under way. -/
theorem State.tenBefore_idle (h : ¬ ((s.tenAt t).prop.st = 1 ∨ (s.tenAt t).prop.st = 2 ∨ (s.tenAt t).prop.st = 3)) :
    State.tenBefore step pa v m s t = s := if_neg h

/-- The unit that a store past the cut reaches is copied, unless it has a copy. -/
theorem State.tenBefore_past (hst : (s.tenAt t).prop.st = 1 ∨ (s.tenAt t).prop.st = 2 ∨ (s.tenAt t).prop.st = 3)
    (hz : ((s.tenAt t).prop.units.find? fun x => x.unit == pa / 65536 && !x.drained) = some z)
    (hcut : afterCut step (s.tenAt t).prop.n = true) :
    State.tenBefore step pa v m s t = if z.image = none then s.copyUnit t z.unit else s := by
  unfold State.tenBefore
  dsimp only
  rw [if_pos hst, hz]
  dsimp only
  rw [if_pos hcut]

theorem State.modTenAt_waiting_twice (s : State) (t : Nat) :
    (s.modTenAt t Ten.waiting).modTenAt t Ten.waiting = s.modTenAt t Ten.waiting := by
  have htwo : (s.modTenAt t Ten.waiting).modTenAt t Ten.waiting
      = { s with tens := mset (mset s.tens t (s.tenAt t).waiting) t ((s.modTenAt t Ten.waiting).tenAt t).waiting } := rfl
  rw [htwo, mset_mset, s.tenAt_modTenAt_same t Ten.waiting]
  rfl

/-- A copy taken, a snapshot that has failed and a store that waits each stand where the same store is looked at again. -/
theorem State.tenBefore_copyUnit (hst : (s.tenAt t).prop.st = 1 ∨ (s.tenAt t).prop.st = 2 ∨ (s.tenAt t).prop.st = 3)
    (hz : ((s.tenAt t).prop.units.find? fun x => x.unit == pa / 65536 && !x.drained) = some z) (himg : z.image = none)
    (hcut : afterCut step (s.tenAt t).prop.n = true) :
    State.tenBefore step pa v m (s.copyUnit t z.unit) t = s.copyUnit t z.unit := by
  cases hf : (s.tenAt t).prop.full with
  | false =>
    have hten := s.tenAt_copyUnit_room t z.unit hf t
    rw [if_pos rfl] at hten
    have hz' : (((s.copyUnit t z.unit).tenAt t).prop.units.find? fun x => x.unit == pa / 65536 && !x.drained)
        = some { z with image := some (s.tenAt t).prop.copied.toNat } := by
      rw [hten]
      refine (List.find?_map).trans ?_
      have hp : ((fun x : PUnit => x.unit == pa / 65536 && !x.drained) ∘ fun y : PUnit =>
          if y.unit = z.unit ∧ y.image = none ∧ !y.drained then { y with image := some (s.tenAt t).prop.copied.toNat } else y)
          = fun x : PUnit => x.unit == pa / 65536 && !x.drained := by
        funext y
        dsimp only [Function.comp]
        split <;> rfl
      have hdr : (!z.drained) = true := by
        have := List.find?_some hz
        simp only [Bool.and_eq_true] at this
        exact this.2
      rw [hp, hz, Option.map_some, if_pos ⟨rfl, himg, hdr⟩]
    rw [State.tenBefore_past (z := { z with image := some (s.tenAt t).prop.copied.toNat }) (by rw [hten]; exact hst) hz' (by rw [hten]; exact hcut)]
    exact if_neg (Option.some_ne_none _)
  | true =>
    by_cases hu : (s.tenAt t).prop.uncut = []
    · rw [s.copyUnit_waits t z.unit hf hu]
      have hten := s.tenAt_modTenAt_same t Ten.waiting
      rw [State.tenBefore_past (z := z) (by rw [hten]; exact hst) (by rw [hten]; exact hz) (by rw [hten]; exact hcut), if_pos himg,
        State.copyUnit_waits _ _ _ (by rw [hten]; exact hf) (by rw [hten]; exact hu), State.modTenAt_waiting_twice]
    · rw [s.copyUnit_full t z.unit hf hu]
      refine State.tenBefore_idle ?_
      rw [State.tenAt_failSnapshot_same]
      dsimp only
      decide

/-- Other blocks stay where a unit is copied. -/
theorem State.tenAt_copyUnit_ne (s : State) (t u : Nat) {o : Nat} (h : o ≠ t) : (s.copyUnit t u).tenAt o = s.tenAt o := by
  cases hf : (s.tenAt t).prop.full with
  | false => rw [s.tenAt_copyUnit_room t u hf, if_neg h]
  | true =>
    by_cases hu : (s.tenAt t).prop.uncut = []
    · rw [s.copyUnit_waits t u hf hu, State.tenAt_modTenAt_ne _ _ _ _ h]
    · rw [s.copyUnit_full t u hf hu, State.tenAt_failSnapshot_ne _ _ _ h]

/-- What is not listed reads as the default. -/
theorem mem_keys_of_ne {α : Type} {d : α} {m : List (Nat × α)} {k : Nat} (h : mget d m k ≠ d) : ∃ p ∈ m, p.1 = k := by
  induction m with
  | nil => exact absurd rfl h
  | cons c r ih =>
    by_cases hk : k = c.1
    · exact ⟨c, List.mem_cons_self, hk.symm⟩
    · rw [mget, if_neg hk] at h
      obtain ⟨p, hp, e⟩ := ih h
      exact ⟨p, List.mem_cons_of_mem _ hp, e⟩

/-- A fold that changes the state at one key only, and there once, makes that change where the key is among those it meets. -/
theorem foldl_once {f : State → Nat → State} {s u : State} {n : Nat} (hn : f s n = u) (hu : ∀ k, f u k = u) (hs : ∀ k, k ≠ n → f s k = s)
    {l : List (Nat × Ten)} (hl : ∃ p ∈ l, p.1 = n) : l.foldl (fun s p => f s p.1) s = u := by
  have hstay (l : List (Nat × Ten)) : l.foldl (fun s p => f s p.1) u = u := foldl_keeps (fun w => w = u) _ (fun w p hw => hw ▸ hu p.1) l u rfl
  induction l with
  | nil => exact absurd hl (by simp)
  | cons p r ih =>
    rw [List.foldl_cons]
    by_cases hp : p.1 = n
    · rw [hp, hn, hstay]
    · rw [hs _ hp]
      refine ih ?_
      obtain ⟨q, hq, e⟩ := hl
      rcases List.mem_cons.1 hq with rfl | hq
      · exact absurd e hp
      · exact ⟨q, hq, e⟩

/-- A store past the cut of the one snapshot that runs copies the unit it reaches. -/
theorem State.beforeStore_past (hst : (s.tenAt t).prop.st = 2 ∨ (s.tenAt t).prop.st = 3)
    (hother : ∀ o, o ≠ t → (s.tenAt o).prop.st ∉ [1, 2, 3])
    (hz : ((s.tenAt t).prop.units.find? fun x => x.unit == pa / 65536 && !x.drained) = some z) (himg : z.image = none)
    (hcut : ∀ c, step = some c → (s.tenAt t).prop.n.toNat < c.toNat) :
    s.beforeStore step pa v m = s.copyUnit t z.unit := by
  have hcut' : afterCut step (s.tenAt t).prop.n = true := by
    cases step with
    | none => rfl
    | some c => exact decide_eq_true (hcut c rfl)
  have hidle (o : Nat) (ho : o ≠ t) : ¬ ((s.tenAt o).prop.st = 1 ∨ (s.tenAt o).prop.st = 2 ∨ (s.tenAt o).prop.st = 3) := by
    simpa using hother o ho
  rw [State.beforeStore_eq]
  refine foldl_once (n := t) ?_ (fun k => ?_) (fun k hk => State.tenBefore_idle (hidle k hk)) (mem_keys_of_ne (d := Ten.init) ?_)
  · rw [State.tenBefore_past (.inr hst) hz hcut', if_pos himg]
  · by_cases hk : k = t
    · rw [hk]
      exact State.tenBefore_copyUnit (.inr hst) hz himg hcut'
    · exact State.tenBefore_idle (by rw [State.tenAt_copyUnit_ne _ _ _ hk]; exact hidle k hk)
  · intro e
    have e' : s.tenAt t = Ten.init := e
    rw [e'] at hst
    revert hst
    decide

end

/-! ### A unit copied ahead -/

section
variable (s : State) (t : BitVec 6) (i : BitVec 32)

/-- A store past the cut that waits in a buffer for a unit. -/
theorem State.storeAwaits_iff (n : BitVec 48) (v : Nat) : s.storeAwaits n v = true ↔ ∃ c ∈ s.cores, ∃ h ∈ c.2.harts, ∃ b ∈ h.2.sbuf,
    n.toNat < b.step.toNat ∧ ∃ pa, b.loc = .mem pa ∧ (pa / 65536 = v ∨ (pa + b.n - 1) / 65536 = v) := by
  unfold State.storeAwaits
  simp only [List.any_eq_true, Bool.and_eq_true, afterCut, decide_eq_true_eq]
  refine exists_congr fun c => and_congr_right fun _ => exists_congr fun h => and_congr_right fun _ => exists_congr fun b =>
    and_congr_right fun _ => and_congr_right fun _ => ?_
  cases b.loc <;> simp

/-- A unit without a copy, not drained, that a store past the cut waits for, is copied; another one is not. -/
theorem execPropolisUnitCopy_eq {z : PUnit} (hz : (s.tenAt t.toNat).prop.units[i.toNat]? = some z) :
    exec (.propolisUnitCopy t i) s = .next (if ((s.tenAt t.toNat).prop.st = 2 ∨ (s.tenAt t.toNat).prop.st = 3) ∧ z.image = none
      ∧ z.drained = false ∧ s.storeAwaits (s.tenAt t.toNat).prop.n z.unit = true
      ∧ ¬ ((s.tenAt t.toNat).prop.full = true ∧ (s.tenAt t.toNat).prop.uncut = []) then s.copyUnit t.toNat z.unit else s) := by
  have hexec : exec (.propolisUnitCopy t i) s = execPropolisUnitCopy t i s := rfl
  rw [hexec]
  unfold execPropolisUnitCopy
  dsimp only
  rw [hz]
  dsimp only
  congr 1
  refine if_congr ?_ rfl rfl
  simp only [Bool.not_eq_true', List.isEmpty_eq_false_iff, not_and_or, Bool.not_eq_true, ne_eq]

theorem execPropolisUnitCopy_none (hz : (s.tenAt t.toNat).prop.units[i.toNat]? = none) : exec (.propolisUnitCopy t i) s = .next s := by
  have hexec : exec (.propolisUnitCopy t i) s = execPropolisUnitCopy t i s := rfl
  rw [hexec]
  unfold execPropolisUnitCopy
  dsimp only
  rw [hz]

end

/-! ### What waits for a drain -/

/-- A turn whose work makes a store wait leaves what it found. -/
theorem takeTurn_storeWaits {w u : State} {o : Turn} (h : turnWork o (o.start w) = .next u) (hu : u.storeWaits = true) :
    takeTurn o w = .next (o.start w) := by
  have hw : waitsForDrain (turnWork o (o.start w)) = true := by
    rw [h]
    exact hu
  rw [takeTurn_eq, if_pos hw]

/-- The card at the head is passed over where its store waits, whichever operation's event is asked for. -/
theorem cardEvent_waits {s : State} {st : BitVec 4} {ten : Nat} {c : Card} {k : BitVec 8} (hn : (s.stackAt st.toNat).next = some (ten, c))
    (hw : (runCard st.toNat ten c c.count s).storeWaits = true) :
    cardEvent k st s = .next (if c.op = k then s.modStackAt st.toNat fun e => { e with last := ten } else s) := by
  unfold cardEvent
  rw [hn]
  dsimp only [State.orPassed]
  rw [hw, if_pos rfl]

end Sys2Proof.Machine

/-! SUPPORT. The last cut, the drain and its refusal (13_collective R307, R308). -/

namespace Sys2Proof.Machine

section
variable (s : State) (t : Nat)

/-! ### The last cut -/

/-- CW set in the leaf of every unit without a copy. -/
def State.lockUncopied (us : List PUnit) : State := us.foldl (fun s u => if u.image = none then s.lockLeaf u.leafAt else s) s

theorem State.lockUncopied_tens (us : List PUnit) : (s.lockUncopied us).tens = s.tens := by
  refine foldl_keeps (fun v : State => v.tens = s.tens) _ (fun v y hv => ?_) us s rfl
  split
  · exact ((congrArg State.tens (v.sansMem_setCw y.leafAt true) :)).trans hv
  · exact hv

theorem State.byte_lockUncopied {us : List PUnit} (h : ∀ y ∈ us, s.leafSound y.leafAt) (a : Nat) :
    (s.lockUncopied us).byte a = if us.any (fun y => y.image == none && y.leafAt == a) then s.byte a ||| 0x80 else s.byte a := by
  refine (foldl_cw (on := true) (p := fun y => y.image == none) (fun s y => ?_) us fun y hy _ => h y hy).2 a
  simp only [beq_iff_eq, if_true]

/-- A block whose Propolis drains. -/
def Ten.draining (x : Ten) : Ten := { x with prop := { x.prop with st := 3 } }

/-- Every hart has cut, and every store before the cut is performed. -/
def State.cutDone : Prop := ((s.tenAt t).prop.st = 1 ∨ (s.tenAt t).prop.st = 2) ∧ (s.tenAt t).prop.uncut = []
  ∧ s.preCutLeft t (s.tenAt t).prop.n = false

theorem execPropolisLastCut_not (b : BitVec 6) (h : ¬ s.cutDone b.toNat) : exec (.propolisLastCut b) s = .next s := by
  have hexec : exec (.propolisLastCut b) s = execPropolisLastCut b s := rfl
  rw [hexec]
  unfold execPropolisLastCut
  dsimp only
  refine if_neg fun hc => h ?_
  simpa [State.cutDone] using hc

theorem execPropolisLastCut_done (b : BitVec 6) (h : s.cutDone b.toNat) :
    exec (.propolisLastCut b) s = .next ((s.lockUncopied (s.tenAt b.toNat).prop.units).modTenAt b.toNat Ten.draining) := by
  have hexec : exec (.propolisLastCut b) s = execPropolisLastCut b s := rfl
  rw [hexec]
  unfold execPropolisLastCut
  dsimp only
  refine (if_pos ?_).trans rfl
  simpa [State.cutDone] using h

theorem State.tenAt_lastCut (us : List PUnit) : ((s.lockUncopied us).modTenAt t Ten.draining).tenAt t = (s.tenAt t).draining := by
  rw [State.tenAt_modTenAt_same]
  exact congrArg (fun m => (mget Ten.init m t).draining) (s.lockUncopied_tens us)

/-! ### The drain -/

/-- A block whose Propolis has drained one unit more. -/
def Ten.drainedTo (us : List PUnit) (x : Ten) : Ten := { x with prop := { x.prop with units := us, drained := x.prop.drained + 1 } }
/-- A block whose snapshot is done. -/
def Ten.snapDone (x : Ten) : Ten := { x with prop := { x.prop with st := 4, units := [] } }

/-- The drain ended. -/
def State.endDrain : State := (s.raise t 1).modTenAt t Ten.snapDone
/-- CW cleared in the leaf of a unit where every unit of that leaf is drained. -/
def State.freeLeaf (us : List PUnit) (y : PUnit) : State :=
  if us.all fun x => x.leafAt != y.leafAt || x.drained then s.setCw y.leafAt false else s
/-- One unit drained. -/
def State.drainOne (y : PUnit) (us : List PUnit) : State :=
  (State.freeLeaf { s with drains := s.drains ++ [s.drainRecord (s.tenAt t).prop y] } us y).modTenAt t (Ten.drainedTo us)

/-- The next unit that is not drained is drained, where there is one. -/
def State.drainNext : State :=
  match (s.tenAt t).prop.units.findIdx? fun u => !u.drained with
  | none => s
  | some i =>
    match (s.tenAt t).prop.units[i]? with
    | none => s
    | some u => s.drainOne t u ((s.tenAt t).prop.units.set i { u with drained := true, image := none })

/-- PROPOLIS_DRAIN_UNIT: while the drain can go on the next unit is drained, and after the last one the drain ends. -/
theorem execPropolisDrainUnit_eq (b : BitVec 6) : exec (.propolisDrainUnit b) s =
    if (s.tenAt b.toNat).prop.st ≠ 3 ∨ !s.reachable (s.tenAt b.toNat).prop.destDev then .next s
    else if ((s.drainNext b.toNat).tenAt b.toNat).prop.units.all PUnit.drained then .next ((s.drainNext b.toNat).endDrain b.toNat)
    else .next (s.drainNext b.toNat) := rfl

/-- A drain whose destination is not there waits. -/
theorem execPropolisDrainUnit_waits (b : BitVec 6)
    (h : (s.tenAt b.toNat).prop.st ≠ 3 ∨ s.reachable (s.tenAt b.toNat).prop.destDev = false) :
    exec (.propolisDrainUnit b) s = .next s := by
  rw [execPropolisDrainUnit_eq]
  exact if_pos (h.imp id fun hr => by rw [hr]; rfl)

theorem execPropolisDrainUnit_runs (b : BitVec 6) (hst : (s.tenAt b.toNat).prop.st = 3)
    (hr : s.reachable (s.tenAt b.toNat).prop.destDev = true) : exec (.propolisDrainUnit b) s =
      .next (if ((s.drainNext b.toNat).tenAt b.toNat).prop.units.all PUnit.drained then (s.drainNext b.toNat).endDrain b.toNat
        else s.drainNext b.toNat) := by
  rw [execPropolisDrainUnit_eq, if_neg (by simp [hst, hr])]
  exact (apply_ite Host.Outcome.next _ _ _).symm

/-- With every unit drained there is no next one. -/
theorem State.drainNext_none (hall : ∀ z ∈ (s.tenAt t).prop.units, z.drained = true) : s.drainNext t = s := by
  have hfind : ((s.tenAt t).prop.units.findIdx? fun u => !u.drained) = none :=
    List.findIdx?_eq_none_iff.2 fun z hz => by rw [hall z hz]; rfl
  unfold State.drainNext
  rw [hfind]

/-- The first unit that is not drained is the next one. -/
theorem findIdx?_undrained {l r : List PUnit} {y : PUnit} (hl : ∀ z ∈ l, z.drained = true) (hy : y.drained = false) :
    ((l ++ y :: r).findIdx? fun u => !u.drained) = some l.length := by
  have hn : (l.findIdx? fun u => !u.drained) = none := List.findIdx?_eq_none_iff.2 fun z hz => by rw [hl z hz]; rfl
  rw [List.findIdx?_append, hn, List.findIdx?_cons, hy]
  simp

theorem State.drainNext_some {l r : List PUnit} {y : PUnit} (hus : (s.tenAt t).prop.units = l ++ y :: r) (hl : ∀ z ∈ l, z.drained = true)
    (hy : y.drained = false) : s.drainNext t = s.drainOne t y (l ++ { y with drained := true, image := none } :: r) := by
  have hset : (l ++ y :: r).set l.length { y with drained := true, image := none } = l ++ { y with drained := true, image := none } :: r := by
    rw [List.set_append_right _ _ (Nat.le_refl _), Nat.sub_self, List.set_cons_zero]
  have hget : (l ++ y :: r)[l.length]? = some y := by simp
  unfold State.drainNext
  rw [hus, findIdx?_undrained hl hy]
  dsimp only
  rw [hget]
  dsimp only
  rw [hset]

theorem State.tenAt_freeLeaf (us : List PUnit) (y : PUnit) (o : Nat) : (s.freeLeaf us y).tenAt o = s.tenAt o := by
  unfold State.freeLeaf
  split
  · exact (congrArg (fun u : State => u.tenAt o) (s.sansMem_setCw y.leafAt false) :)
  · rfl

theorem State.drains_freeLeaf (us : List PUnit) (y : PUnit) : (s.freeLeaf us y).drains = s.drains := by
  unfold State.freeLeaf
  split
  · exact (congrArg State.drains (s.sansMem_setCw y.leafAt false) :)
  · rfl

theorem State.byte_freeLeaf {us : List PUnit} {y : PUnit} (h : s.leafSound y.leafAt) (a : Nat) :
    (s.freeLeaf us y).byte a = if a = y.leafAt ∧ us.all (fun z => z.leafAt != y.leafAt || z.drained) then s.byte a &&& 0x7F else s.byte a := by
  unfold State.freeLeaf
  split
  · next hall => rw [s.byte_setCw h false a]; simp only [hall, and_true]; rfl
  · next hall => simp only [hall, and_false, if_false, Bool.false_eq_true]

/-- What a drained unit leaves: the block, the record, and CW. -/
theorem State.tenAt_drainOne (y : PUnit) (us : List PUnit) : (s.drainOne t y us).tenAt t = (s.tenAt t).drainedTo us := by
  rw [State.drainOne, State.tenAt_modTenAt_same, State.tenAt_freeLeaf]
  rfl

theorem State.drains_drainOne (y : PUnit) (us : List PUnit) :
    (s.drainOne t y us).drains = s.drains ++ [s.drainRecord (s.tenAt t).prop y] := State.drains_freeLeaf _ _ _

theorem State.byte_drainOne {y : PUnit} {us : List PUnit} (h : s.leafSound y.leafAt) (a : Nat) : (s.drainOne t y us).byte a =
    if a = y.leafAt ∧ us.all (fun z => z.leafAt != y.leafAt || z.drained) then s.byte a &&& 0x7F else s.byte a :=
  State.byte_freeLeaf (s := { s with drains := s.drains ++ [s.drainRecord (s.tenAt t).prop y] }) h a

/-- What the end of a drain leaves. -/
theorem State.tenAt_endDrain : (s.endDrain t).tenAt t = ((s.tenAt t).raised 1).snapDone := by
  rw [State.endDrain, State.tenAt_modTenAt_same, State.tenAt_raise_same]

theorem State.drains_endDrain : (s.endDrain t).drains = s.drains := s.raise_drains t 1
theorem State.byte_endDrain (a : Nat) : (s.endDrain t).byte a = s.byte a := s.byte_raise t 1 a

/-! ### A drain refused -/

theorem execPropolisDrainRefused_not (b : BitVec 6) (h : (s.tenAt b.toNat).prop.st ≠ 3) : exec (.propolisDrainRefused b) s = .next s :=
  congrArg Host.Outcome.next (if_neg h)

theorem execPropolisDrainRefused_drain (b : BitVec 6) (h : (s.tenAt b.toNat).prop.st = 3) :
    exec (.propolisDrainRefused b) s = .next (s.failSnapshot b.toNat 3) := congrArg Host.Outcome.next (if_pos h)

/-- A leaf in a line with an error that no mark records keeps its byte, and its line is marked (R174). -/
theorem State.setCw_error {leaf : Nat} (h : smem s.latent (lineOf leaf) = true) (on : Bool) : s.setCw leaf on = s.markLine (lineOf leaf) := by
  unfold State.setCw State.patchByte
  rw [h, if_pos rfl]

end

end Sys2Proof.Machine

/-! SUPPORT. Propolis' events as the obligation O58 states them (13_collective R304-R308). -/

namespace Sys2Proof.Machine

section
variable (s : State) (n : Nat)

/-- A snapshot has failed with a reason: nothing is left of it, and its interrupt bit is set. -/
def State.Failed (u : State) (reason : BitVec 5) : Prop := (u.tenAt n).prop.st = 5 ∧ (u.tenAt n).prop.reason = reason
  ∧ (u.tenAt n).prop.units = [] ∧ (u.tenAt n).intstat = (s.tenAt n).intstat ||| 2

theorem State.failed_failSnapshot {w : State} (h : (w.tenAt n).intstat = (s.tenAt n).intstat) (reason : BitVec 5) :
    s.Failed n (w.failSnapshot n reason) reason := by
  unfold State.Failed
  rw [w.tenAt_failSnapshot_same n reason]
  exact ⟨rfl, rfl, rfl, by rw [h]⟩

/-- Every CW that the snapshot had set is clear. -/
theorem State.uncw_failSnapshot (reason : BitVec 5) (h : ∀ y ∈ (s.tenAt n).prop.units, s.leafSound y.leafAt) (a : Nat) :
    (s.failSnapshot n reason).byte a = if (s.tenAt n).prop.units.any (fun y => y.leafAt == a) then s.byte a &&& 0x7F else s.byte a :=
  (s.byte_failSnapshot n reason a).trans (s.byte_clearCws h a)

/-! ### Arming -/

/-- The state in which Propolis has latched what PARM says. -/
def State.latchParm (v : Word) : State := (s.modTenAt n (Ten.parmed v)).modTenAt n Ten.latched
/-- A block whose snapshot is armed, with the units noted and the harts that are to cut. -/
def Ten.armedWith (us : List PUnit) (hs : List (Nat × Nat)) (x : Ten) : Ten := { x with prop := { x.prop.note us with st := 1, uncut := hs } }

theorem State.tenAt_latchParm (v : Word) : (s.latchParm n v).tenAt n = ((s.tenAt n).parmed v).latched := by
  rw [State.latchParm, State.tenAt_modTenAt_same, State.tenAt_modTenAt_same]

theorem State.writeParm_arms {v : Word} (h : v.getLsbD 63 = true)
    (hst : (s.tenAt n).prop.st = 0 ∨ (s.tenAt n).prop.st = 4 ∨ (s.tenAt n).prop.st = 5) :
    s.writeParm n v = if s.areaGood n (s.tenAt n).prop.parea then
        if s.pastStep n (v.extractLsb' 0 48) then (s.latchParm n v).failSnapshot n 1
        else (s.latchParm n v).modTenAt n (Ten.armedWith (s.armUnits n) (s.hartsOf n))
      else (s.latchParm n v).failSnapshot n 4 := by
  have hten : (s.modTenAt n (Ten.parmed v)).tenAt n = (s.tenAt n).parmed v := s.tenAt_modTenAt_same n (Ten.parmed v)
  have hwins : ((s.modTenAt n (Ten.parmed v)).tenAt n).wins = (s.tenAt n).wins := by
    rw [hten]
    rfl
  have harea : (s.modTenAt n (Ten.parmed v)).areaGood n (s.tenAt n).prop.parea = s.areaGood n (s.tenAt n).prop.parea := by
    unfold State.areaGood
    rw [hwins]
    exact State.areaIn_congr rfl _ _
  have hunits : (s.modTenAt n (Ten.parmed v)).armUnits n = s.armUnits n := by
    unfold State.armUnits
    simp only [State.snUnits_congr (s := s) (u := s.modTenAt n (Ten.parmed v)) rfl hwins rfl]
    rfl
  rw [s.writeParm_free n v h hst, State.arm_eq, hten]
  have hparea : ((s.tenAt n).parmed v).prop.parea = (s.tenAt n).prop.parea := rfl
  rw [hparea, harea, hunits]
  rfl

/-- A snapshot that fails as it is armed changes no byte. -/
theorem State.byte_latchParm_fails (v : Word) (reason : BitVec 5) (a : Nat) :
    ((s.latchParm n v).failSnapshot n reason).byte a = s.byte a :=
  State.byte_failSnapshot_nil _ _ _ (by rw [s.tenAt_latchParm n v]; rfl) a

/-- The units noted are the SN units of the tenancy's launches. -/
theorem State.units_armedWith (v : Word) :
    (∀ l ∈ s.launchesOf n, ∀ y ∈ s.snUnits n l.ptroot,
      ∃ z ∈ ((((s.tenAt n).parmed v).latched).armedWith (s.armUnits n) (s.hartsOf n)).prop.units, z.unit = y.unit ∧ z.page = y.page ∧ z.root = y.root)
    ∧ ∀ z ∈ ((((s.tenAt n).parmed v).latched).armedWith (s.armUnits n) (s.hartsOf n)).prop.units,
        ∃ l ∈ s.launchesOf n, z ∈ s.snUnits n l.ptroot := by
  have hus : ∀ u ∈ s.armUnits n, u.image = none := fun u hu => by
    obtain ⟨l, -, hl⟩ := List.mem_flatMap.1 hu
    exact State.image_snUnits hl
  obtain ⟨-, hthere, hfrom⟩ := foldl_noteUnit (us := s.armUnits n) (l := []) (fun _ h => absurd h List.not_mem_nil) hus
  refine ⟨fun l hl y hy => hthere y (List.mem_flatMap.2 ⟨l, hl, hy⟩), fun z hz => ?_⟩
  exact List.mem_flatMap.1 ((hfrom z hz).resolve_left List.not_mem_nil)

theorem State.pastStep_iff (c : BitVec 48) :
    s.pastStep n c = true ↔ ∃ h ∈ s.hartsOf n, c.toNat < (s.hartAt h.1 h.2).cfg.cstep.toNat := by
  simp only [State.pastStep, List.any_eq_true, decide_eq_true_eq]

end

section
variable (s : State) (t : BitVec 6)

theorem exec_propolisArm (v : Word) : exec (.propolisArm t v) s = .next (s.writeParm t.toNat v) :=
  congrArg Host.Outcome.next (s.writeReg_parm t.toNat v)

/-- PARM with ARM 0: only ARM and N change. -/
theorem propolisArm_clear {v : Word} (h : v.getLsbD 63 = false) : ∃ u, exec (.propolisArm t v) s = .next u ∧ (∀ a, u.byte a = s.byte a)
    ∧ u.tenAt t.toNat = { s.tenAt t.toNat with prop := { (s.tenAt t.toNat).prop with arm := false, step := v.extractLsb' 0 48 } }
    ∧ (∀ o, o ≠ t.toNat → u.tenAt o = s.tenAt o) ∧ u.cores = s.cores := by
  refine ⟨_, exec_propolisArm s t v, ?_⟩
  rw [s.writeParm_clear _ _ h]
  refine ⟨fun a => rfl, ?_, fun o ho => State.tenAt_modTenAt_ne _ _ _ _ ho, rfl⟩
  rw [State.tenAt_modTenAt_same, Ten.parmed, h]

/-- PARM with ARM 1 where no snapshot runs: the snapshot fails, or its units are noted. -/
theorem propolisArm_free {v : Word} (h : v.getLsbD 63 = true)
    (hst : (s.tenAt t.toNat).prop.st = 0 ∨ (s.tenAt t.toNat).prop.st = 4 ∨ (s.tenAt t.toNat).prop.st = 5) :
    ∃ u, exec (.propolisArm t v) s = .next u ∧ (∀ a, u.byte a = s.byte a) ∧ (u.tenAt t.toNat).prop.n = v.extractLsb' 0 48
      ∧ (u.tenAt t.toNat).prop.area = (s.tenAt t.toNat).prop.parea ∧ (u.tenAt t.toNat).prop.arm = true
      ∧ (s.areaGood t.toNat (s.tenAt t.toNat).prop.parea = false → s.Failed t.toNat u 4)
      ∧ (s.areaGood t.toNat (s.tenAt t.toNat).prop.parea = true →
          (∃ h ∈ s.hartsOf t.toNat, (v.extractLsb' 0 48).toNat < (s.hartAt h.1 h.2).cfg.cstep.toNat) → s.Failed t.toNat u 1)
      ∧ (s.areaGood t.toNat (s.tenAt t.toNat).prop.parea = true →
          ¬ (∃ h ∈ s.hartsOf t.toNat, (v.extractLsb' 0 48).toNat < (s.hartAt h.1 h.2).cfg.cstep.toNat) →
          (u.tenAt t.toNat).prop.st = 1 ∧ (u.tenAt t.toNat).prop.reason = 0
            ∧ (u.tenAt t.toNat).prop.uncut = s.hartsOf t.toNat ∧ (u.tenAt t.toNat).prop.copied = 0 ∧ (u.tenAt t.toNat).prop.drained = 0
            ∧ (∀ l ∈ s.launchesOf t.toNat, ∀ y ∈ s.snUnits t.toNat l.ptroot, ∃ z ∈ (u.tenAt t.toNat).prop.units,
                z.unit = y.unit ∧ z.page = y.page ∧ z.root = y.root)
            ∧ ∀ z ∈ (u.tenAt t.toNat).prop.units, ∃ l ∈ s.launchesOf t.toNat, z ∈ s.snUnits t.toNat l.ptroot) := by
  refine ⟨_, exec_propolisArm s t v, ?_⟩
  have hlatch := s.tenAt_latchParm t.toNat v
  have hint : ((s.latchParm t.toNat v).tenAt t.toNat).intstat = (s.tenAt t.toNat).intstat := by
    rw [hlatch]
    rfl
  have hfail (reason : BitVec 5) := State.failed_failSnapshot s t.toNat hint reason
  rw [s.writeParm_arms t.toNat h hst, ← State.pastStep_iff]
  cases s.areaGood t.toNat (s.tenAt t.toNat).prop.parea with
  | false =>
    rw [if_neg (by decide)]
    refine ⟨s.byte_latchParm_fails t.toNat v 4, ?_, ?_, ?_, fun _ => hfail 4, fun h => absurd h (by decide), fun h => absurd h (by decide)⟩ <;>
      rw [State.tenAt_failSnapshot_same, hlatch]
    · rfl
    · rfl
    · exact h
  | true =>
    rw [if_pos rfl]
    cases s.pastStep t.toNat (v.extractLsb' 0 48) with
    | true =>
      rw [if_pos rfl]
      refine ⟨s.byte_latchParm_fails t.toNat v 1, ?_, ?_, ?_, fun h => absurd h (by decide), fun _ _ => hfail 1, fun _ h => absurd rfl h⟩ <;>
        rw [State.tenAt_failSnapshot_same, hlatch]
      · rfl
      · rfl
      · exact h
    | false =>
      rw [if_neg (by decide)]
      have hten : ((s.latchParm t.toNat v).modTenAt t.toNat (Ten.armedWith (s.armUnits t.toNat) (s.hartsOf t.toNat))).tenAt t.toNat
          = (((s.tenAt t.toNat).parmed v).latched).armedWith (s.armUnits t.toNat) (s.hartsOf t.toNat) := by
        rw [State.tenAt_modTenAt_same, hlatch]
      rw [hten]
      obtain ⟨hthere, hfrom⟩ := s.units_armedWith t.toNat v
      exact ⟨fun _ => rfl, rfl, rfl, h, fun h => absurd h (by decide), fun _ h => absurd h (by decide), fun _ _ => ⟨rfl, rfl, rfl, rfl, rfl, hthere, hfrom⟩⟩

/-! ### The copy -/

/-- With room the copy and CW are set, and the snapshot goes on. -/
theorem copyUnit_with_room {i : Nat} {z : PUnit} (hz : (s.tenAt t.toNat).prop.units[i]? = some z) (himg : z.image = none)
    (hdr : z.drained = false) (hf : (s.tenAt t.toNat).prop.full = false) (hok : s.memOk) :
    ((s.copyUnit t.toNat z.unit).tenAt t.toNat).prop.units[i]? = some { z with image := some (s.tenAt t.toNat).prop.copied.toNat }
      ∧ ((s.copyUnit t.toNat z.unit).tenAt t.toNat).prop.st = (s.tenAt t.toNat).prop.st
      ∧ ((s.copyUnit t.toNat z.unit).tenAt t.toNat).prop.copied = (s.tenAt t.toNat).prop.copied + 1
      ∧ ((∀ y ∈ (s.tenAt t.toNat).prop.units, s.leafSound y.leafAt) → ∀ a, (s.copyUnit t.toNat z.unit).byte a =
        if a / 65536 = (s.tenAt t.toNat).prop.slotUnit (s.tenAt t.toNat).prop.copied.toNat then s.byte (65536 * z.unit + a % 65536)
        else if (s.tenAt t.toNat).prop.units.any (fun y => y.unit == z.unit && !y.drained && y.leafAt == a) then s.byte a ||| 0x80
        else s.byte a) := by
  have hten := s.tenAt_copyUnit_room t.toNat z.unit hf t.toNat
  rw [if_pos rfl] at hten
  rw [hten]
  refine ⟨?_, rfl, rfl, fun h a => s.byte_copyUnit_room t.toNat z.unit hf hok h a⟩
  refine (List.getElem?_map).trans ?_
  rw [hz, Option.map_some, if_pos ⟨rfl, himg, by rw [hdr]; rfl⟩]

/-! ### The last cut and the drain -/

theorem propolisLastCut_done (h : s.cutDone t.toNat) : ∃ u, exec (.propolisLastCut t) s = .next u
    ∧ u.tenAt t.toNat = { s.tenAt t.toNat with prop := { (s.tenAt t.toNat).prop with st := 3 } }
    ∧ ((∀ y ∈ (s.tenAt t.toNat).prop.units, s.leafSound y.leafAt) → ∀ a, u.byte a =
        if (s.tenAt t.toNat).prop.units.any (fun y => y.image == none && y.leafAt == a) then s.byte a ||| 0x80 else s.byte a) :=
  ⟨_, execPropolisLastCut_done s t h, State.tenAt_lastCut s t.toNat _, fun hs a => s.byte_lockUncopied hs a⟩

/-- The record of a unit, with its image from the area or from its own place. -/
theorem State.drainRecord_eq (p : Propolis) (y : PUnit) : s.drainRecord p y
    = Drain.mk (p.pdest + BitVec.ofNat 64 (65600 * p.drained.toNat)) (BitVec.ofNat 64 (65536 * y.page)) y.root
      (p.n.setWidth 64) ((s.mem.filter fun b => b.1 / 65536 == (match y.image with
        | some slot => p.slotUnit slot
        | none => y.unit)).map fun b => (b.1 % 65536, b.2)) := by
  unfold State.drainRecord
  rw [Nat.mul_comm p.drained.toNat, Nat.mul_comm y.page]
  cases y.image <;> rfl

theorem propolisDrainUnit_next (hst : (s.tenAt t.toNat).prop.st = 3) (hr : s.reachable (s.tenAt t.toNat).prop.destDev = true)
    {l r : List PUnit} {y : PUnit} (hus : (s.tenAt t.toNat).prop.units = l ++ y :: r) (hl : ∀ z ∈ l, z.drained = true) (hy : y.drained = false)
    {us : List PUnit} (hus' : us = l ++ { y with drained := true, image := none } :: r) :
    ∃ u, exec (.propolisDrainUnit t) s = .next u
      ∧ u.drains = s.drains ++ [s.drainRecord (s.tenAt t.toNat).prop y]
      ∧ (u.tenAt t.toNat).prop.drained = (s.tenAt t.toNat).prop.drained + 1
      ∧ (us.all (fun z => z.drained) = false → (u.tenAt t.toNat).prop.st = 3 ∧ (u.tenAt t.toNat).prop.units = us)
      ∧ (us.all (fun z => z.drained) = true → (u.tenAt t.toNat).prop.st = 4 ∧ (u.tenAt t.toNat).prop.units = []
          ∧ (u.tenAt t.toNat).intstat = (s.tenAt t.toNat).intstat ||| 2)
      ∧ (s.leafSound y.leafAt → ∀ a, u.byte a =
          if a = y.leafAt ∧ us.all (fun z => z.leafAt != y.leafAt || z.drained) then s.byte a &&& 0x7F else s.byte a) := by
  refine ⟨_, execPropolisDrainUnit_runs s t hst hr, ?_⟩
  rw [s.drainNext_some t.toNat hus hl hy, ← hus', State.tenAt_drainOne]
  have hall : ((s.tenAt t.toNat).drainedTo us).prop.units.all PUnit.drained = us.all fun z => z.drained := rfl
  rw [hall]
  cases us.all fun z => z.drained with
  | false =>
    rw [if_neg (by decide), State.tenAt_drainOne, State.drains_drainOne]
    exact ⟨rfl, rfl, fun _ => ⟨hst, rfl⟩, fun h => absurd h (by decide), fun h a => s.byte_drainOne t.toNat h a⟩
  | true =>
    rw [if_pos rfl, State.tenAt_endDrain, State.tenAt_drainOne, State.drains_endDrain, State.drains_drainOne]
    exact ⟨rfl, rfl, fun h => absurd h (by decide), fun _ => ⟨rfl, rfl, rfl⟩, fun h a => (State.byte_endDrain _ _ a).trans (s.byte_drainOne t.toNat h a)⟩

theorem propolisDrainUnit_all (hst : (s.tenAt t.toNat).prop.st = 3) (hr : s.reachable (s.tenAt t.toNat).prop.destDev = true)
    (hall : ∀ z ∈ (s.tenAt t.toNat).prop.units, z.drained = true) :
    ∃ u, exec (.propolisDrainUnit t) s = .next u ∧ (∀ a, u.byte a = s.byte a) ∧ u.drains = s.drains ∧ (u.tenAt t.toNat).prop.st = 4
      ∧ (u.tenAt t.toNat).intstat = (s.tenAt t.toNat).intstat ||| 2 := by
  refine ⟨_, execPropolisDrainUnit_runs s t hst hr, ?_⟩
  rw [s.drainNext_none t.toNat hall, if_pos (List.all_eq_true.2 hall), State.tenAt_endDrain]
  exact ⟨s.byte_endDrain t.toNat, s.drains_endDrain t.toNat, rfl, rfl⟩

/-- A refused drain clears the one leaf's CW, or marks its line where that has an error that no mark records. -/
theorem propolisDrainRefused_error {y : PUnit} (hst : (s.tenAt t.toNat).prop.st = 3) (hus : (s.tenAt t.toNat).prop.units = [y])
    (he : smem s.latent (lineOf y.leafAt) = true) : ∃ u, exec (.propolisDrainRefused t) s = .next u ∧ s.Failed t.toNat u 3
      ∧ (∀ a, u.byte a = s.byte a) ∧ u.marks = sadd s.marks (lineOf y.leafAt) ∧ u.latent = sdel s.latent (lineOf y.leafAt) := by
  have hcw : s.clearCws (s.tenAt t.toNat).prop.units = s.markLine (lineOf y.leafAt) := by
    rw [hus]
    exact s.setCw_error he false
  refine ⟨_, execPropolisDrainRefused_drain s t hst, State.failed_failSnapshot s t.toNat rfl 3, fun a => ?_, ?_, ?_⟩
  · rw [State.byte_failSnapshot, hcw]
    rfl
  · rw [State.failSnapshot_marks, hcw]
    rfl
  · rw [State.failSnapshot_latent, hcw]
    rfl

end

/-- The next card, asked for as the event of its operation, waits where its store does; a card of no operation is passed. -/
theorem card_waits {s : State} {st : BitVec 4} {ten : Nat} {c : Card} (hn : (s.stackAt st.toNat).next = some (ten, c))
    (hw : (runCard st.toNat ten c c.count s).storeWaits = true) :
    exec (if c.op = 1 then .ired st else if c.op = 2 then .rcopy st else .rfill st) s
      = .next (if c.op.toNat ∈ [1, 2, 3] then s.modStackAt st.toNat fun e => { e with last := ten } else s) := by
  have hop (k : BitVec 8) : c.op = k ↔ c.op.toNat = k.toNat := BitVec.toNat_inj.symm
  by_cases h1 : c.op = 1
  · rw [if_pos h1, if_pos (by rw [h1]; decide)]
    exact (cardEvent_waits hn hw).trans (by rw [if_pos h1])
  · by_cases h2 : c.op = 2
    · rw [if_neg h1, if_pos h2, if_pos (by rw [h2]; decide)]
      exact (cardEvent_waits hn hw).trans (by rw [if_pos h2])
    · rw [if_neg h1, if_neg h2]
      refine (cardEvent_waits (k := 3) hn hw).trans (congrArg Host.Outcome.next (if_congr ?_ rfl rfl))
      have h1' : c.op.toNat ≠ 1 := fun e => h1 ((hop 1).2 e)
      have h2' : c.op.toNat ≠ 2 := fun e => h2 ((hop 2).2 e)
      rw [List.mem_cons, List.mem_cons, List.mem_singleton, or_iff_right h1', or_iff_right h2']
      exact hop 3

end Sys2Proof.Machine

/-! SUPPORT. Completion words, the launch queue's check, completion, and the windows that hold a snapshot (05_harts R104-R108,
R114, 15_device R357). -/

namespace Sys2Proof.Machine

/-! ### Completion words (05_harts R108) -/

/-- What a completion word leaves of memory: its bytes and D of its leaf, or nothing where it has no place. -/
def State.DoneIs (s u : State) (n : Nat) (ws : List (Nat × Nat × Nat)) (root va : Word) (v : Nat) : Prop :=
  match s.doneAt n ws root va with
  | none => ∀ a, u.byte a = s.byte a
  | some (l, tr) => (∀ i < 8, u.byte (tr.pa + i) = BitVec.ofNat 8 (v / 256 ^ i))
    ∧ ∀ pa, pa < tr.pa ∨ tr.pa + 8 ≤ pa → u.byte pa = if pa = l.at_ then s.byte pa ||| 0x20 else s.byte pa

section
variable (s : State) (n : Nat) (ws : List (Nat × Nat × Nat)) (root va : Word) (v : Nat)

/-- What a walk that met an error marks changes no byte and nothing else. -/
theorem State.markDone_sameButMem : SameButMem s (s.markDone ws root va) := by
  unfold State.markDone
  split <;> exact ⟨fun _ _ _ => rfl, rfl⟩

theorem State.byte_markDone (a : Nat) : (s.markDone ws root va).byte a = s.byte a := by
  unfold State.markDone
  split <;> rfl

theorem State.cores_markDone : (s.markDone ws root va).cores = s.cores := by
  unfold State.markDone
  split <;> rfl

theorem SameButMem.tens {t : State} (h : SameButMem s t) : t.tens = s.tens := (congrArg State.tens h.rest :)
theorem SameButMem.launches {t : State} (h : SameButMem s t) : t.launches = s.launches := (congrArg State.launches h.rest :)
theorem SameButMem.tenAt {t : State} (h : SameButMem s t) (o : Nat) : t.tenAt o = s.tenAt o := congrArg (fun m => mget Ten.init m o) h.tens

/-- Eight bytes of memory written alone. -/
theorem State.writeAll_word (hs : s.NoSnapshot) (hl : s.latent = []) (ctx : StoreCtx) (pa : Nat) :
    SameButMem s (s.writeAll ctx [Acc.ofNat (.mem pa) 8 v]) ∧ ∀ a, (s.writeAll ctx [Acc.ofNat (.mem pa) 8 v]).byte a = overlay pa (bytesOf 8 v) s.byte a := by
  have hno (l : Nat) : smem s.latent l = false := by
    rw [hl]
    rfl
  have hw : s.writeAll ctx [Acc.ofNat (.mem pa) 8 v] = s.putBytes ctx pa (wholeBytes (bytesOf 8 v)) := by
    rw [State.writeAll_short s ctx _ v (Nat.le_refl 8)]
    exact State.writeMem_whole hs ctx (bytesOf 8 v) (hno _) (hno _)
  rw [hw]
  obtain ⟨hm, hb⟩ := State.putBytes_whole hs ctx pa (bytesOf 8 v)
  exact ⟨hm.sameButMem, hb⟩

/-- With no snapshot and no unrecorded error only memory changes, as the completion word says. -/
theorem State.writeDone_is (he : s.NoErrors) (hs : s.NoSnapshot) :
    SameButMem s (s.writeDone n ws root va v) ∧ s.DoneIs (s.writeDone n ws root va v) n ws root va v := by
  unfold State.writeDone State.DoneIs
  cases s.doneAt n ws root va with
  | none => exact ⟨s.markDone_sameButMem ws root va, s.byte_markDone ws root va⟩
  | some p =>
    obtain ⟨l, tr⟩ := p
    dsimp only
    obtain ⟨hm, -, hb, hl, -⟩ := s.dirtySet_setDirtyBit l.at_
    have hlat : s.latent = [] := he.1
    have htakes : s.takesDirty l.at_ = true := by
      rw [State.takesDirty, hlat]
      exact Bool.or_true _
    have hs' : (s.setDirtyBit l.at_).NoSnapshot := by
      unfold State.NoSnapshot
      rw [hm.tens]
      exact hs
    obtain ⟨hm', hb'⟩ := State.writeAll_word (s.setDirtyBit l.at_) v hs' ((hl htakes).2.trans hlat)
      { through := s.writesThrough (BitVec.ofNat 6 n) tr.cls, step := none } tr.pa
    refine ⟨hm.trans hm', fun i hi => (hb' _).trans ?_, fun pa hpa => (hb' pa).trans ?_⟩
    · have hlen : tr.pa ≤ tr.pa + i ∧ tr.pa + i < tr.pa + (bytesOf 8 v).length := by
        rw [length_bytesOf]
        omega
      rw [overlay, if_pos hlen, Nat.add_sub_cancel_left]
      simp only [bytesOf, List.getD_eq_getElem?_getD, List.getElem?_map, List.getElem?_range hi, Option.map_some, Option.getD_some,
        Nat.shiftRight_eq_div_pow, Nat.pow_mul]
    · have hlen : ¬ (tr.pa ≤ pa ∧ pa < tr.pa + (bytesOf 8 v).length) := by
        rw [length_bytesOf]
        omega
      rw [overlay, if_neg hlen, hb]
      simp only [htakes, and_true]

end

/-! ### The first failing reason (05_harts R104) -/

/-- The rows of the table in order, each with its reason. -/
def Desc.rows (d : Desc) (held : Nat) : List (Bool × Nat) :=
  [(decide ((d.w 0).toNat % 4 ≠ 0), 5), (decide (d.f 1 0 8 ∉ [1, 2, 4, 8]), 1), (decide (d.f 1 8 8 ∉ [8, 16, 32]), 2),
   (decide (d.f 1 18 6 ≠ 0), 6), (decide (d.f 1 24 8 ≠ 0), 6),
   (decide (d.f 1 32 16 = 0) || decide (held < d.f 1 32 16), 3), (decide (d.f 1 48 16 ≠ 0), 6),
   (decide (8192 < d.f 2 0 16 + d.f 1 0 8 * d.f 2 16 16), 4), (decide (d.f 2 32 32 ≠ 0), 6), (decide ((d.w 4).toNat % 8 ≠ 0), 7),
   (decide (d.w 14 ≠ 0 ∨ d.w 15 ≠ 0), 6)]

/-- The first row of a table that holds. -/
theorem find?_row {p : Prop} [Decidable p] (n : Nat) (r : List (Bool × Nat)) :
    ((((decide p, n) :: r).find? fun q => q.1).map Prod.snd) = if p then some n else (r.find? fun q => q.1).map Prod.snd := by
  by_cases h : p <;> simp [h]

theorem Desc.reason_eq (d : Desc) (held : Nat) : d.reason held = ((d.rows held).find? fun p => p.1).map Prod.snd := by
  have hor (p q : Prop) [Decidable p] [Decidable q] : (decide p || decide q) = decide (p ∨ q) := (Bool.decide_or p q).symm
  have hin (l : List Nat) (x : Nat) : (!l.contains x) = true ↔ x ∉ l := by simp
  unfold Desc.rows Desc.reason
  simp only [hor, find?_row, hin, ite_or (P := d.f 1 18 6 ≠ 0)]
  rfl

/-! ### The windows that hold a snapshot (15_device R357) -/

theorem State.snapshotIn_iff (s : State) (n : Nat) (ws : List (Nat × Nat × Nat)) : s.snapshotIn n ws = true ↔
    ((s.tenAt n).prop.st ∈ [1, 2, 3] → s.areaIn ws (s.tenAt n).prop.area = true
      ∧ ∀ y ∈ (s.tenAt n).prop.units, y.drained = true ∨ (inWindows ws (65536 * y.unit) = true ∧ inWindows ws y.leafAt = true)) := by
  unfold State.snapshotIn
  simp only [Bool.or_eq_true, Bool.and_eq_true, decide_eq_true_eq, List.all_eq_true, List.mem_cons, List.not_mem_nil, or_false]
  tauto

/-! ### The queue checked (05_harts R104, R105) -/

section
variable (s : State) (t : BitVec 6)

/-- Nothing is checked in a module that does not run, with an empty queue, or twice. -/
theorem execLaunchCheck_not (h : s.mgr.state ≠ 1 ∨ (s.tenAt t.toNat).lq = [] ∨ (s.tenAt t.toNat).checked = true) :
    exec (.launchCheck t) s = .next s := by
  have hexec : exec (.launchCheck t) s = execLaunchCheck t s := rfl
  rw [hexec]
  unfold execLaunchCheck
  dsimp only
  split
  · rfl
  · next hrun =>
    split
    · next hq hc =>
      rcases h with h | h | h
      · exact absurd h hrun
      · rw [hq] at h
        cases h
      · rw [hc] at h
        cases h
    · rfl

/-- A block without the head of its queue. -/
def Ten.popped (x : Ten) : Ten := { x with lq := x.lq.drop 1, checked := false }

/-- What the check of the descriptor at the head of a queue leaves. -/
def State.checkHead (n : Nat) (d : Desc) : State :=
  match s.doneAt n (s.tenAt n).openWins d.ptroot (d.w 5), d.reason (8 * (s.groupsOf n).length) with
  | none, _ => (((s.markDone (s.tenAt n).openWins d.ptroot (d.w 5)).popLaunch n).modTenAt n fun x => { x with erraddr := d.src }).raise n 0
  | some _, some k => (s.writeDone n (s.tenAt n).openWins d.ptroot (d.w 5) (256 * k + 2)).popLaunch n
  | some _, none => s.modTenAt n fun x => { x with checked := true }

variable {d : Desc} {r : List Desc} (hrun : s.mgr.state = 1) (hq : (s.tenAt t.toNat).lq = d :: r) (hc : (s.tenAt t.toNat).checked = false)
include hrun hq hc

theorem execLaunchCheck_eq : exec (.launchCheck t) s = .next (s.checkHead t.toNat d) := by
  have hexec : exec (.launchCheck t) s = execLaunchCheck t s := rfl
  rw [hexec]
  unfold execLaunchCheck
  dsimp only
  rw [if_neg (not_not_intro hrun), hq, hc]
  rfl

/-- With DONE unusable ERRADDR and the error interrupt tell of the launch. -/
theorem launchCheck_noPlace (hd : s.doneAt t.toNat (s.tenAt t.toNat).openWins d.ptroot (d.w 5) = none) :
    ∃ u, exec (.launchCheck t) s = .next u ∧ (∀ a, u.byte a = s.byte a)
      ∧ u.tenAt t.toNat = { s.tenAt t.toNat with lq := r, checked := false, erraddr := d.src, intstat := (s.tenAt t.toNat).intstat ||| 1 }
      ∧ (∀ o, o ≠ t.toNat → u.tenAt o = s.tenAt o) ∧ u.cores = s.cores := by
  refine ⟨_, execLaunchCheck_eq s t hrun hq hc, ?_⟩
  unfold State.checkHead
  rw [hd]
  dsimp only
  have hmark := s.markDone_sameButMem (s.tenAt t.toNat).openWins d.ptroot (d.w 5)
  refine ⟨fun a => (State.byte_raise _ _ _ a).trans (s.byte_markDone _ _ _ a), ?_, fun o ho => ?_, ?_⟩
  · rw [State.tenAt_raise_same, State.tenAt_modTenAt_same, State.popLaunch, State.tenAt_modTenAt_same, hmark.tenAt, hq]
    rfl
  · rw [State.tenAt_raise_ne _ _ _ ho, State.tenAt_modTenAt_ne _ _ _ _ ho, State.popLaunch, State.tenAt_modTenAt_ne _ _ _ _ ho, hmark.tenAt]
  · rw [State.raise_cores]
    exact s.cores_markDone _ _ _

/-- A descriptor with a fault is refused in its completion word. -/
theorem launchCheck_refused (he : s.NoErrors) (hs : s.NoSnapshot)
    (hd : s.doneAt t.toNat (s.tenAt t.toNat).openWins d.ptroot (d.w 5) ≠ none) {p : Bool × Nat}
    (hp : (d.rows (8 * (s.groupsOf t.toNat).length)).find? (fun p => p.1) = some p) :
    ∃ u, exec (.launchCheck t) s = .next u ∧ (u.tenAt t.toNat).lq = r ∧ (u.tenAt t.toNat).checked = false
      ∧ s.DoneIs u t.toNat (s.tenAt t.toNat).openWins d.ptroot (d.w 5) (256 * p.2 + 2) := by
  obtain ⟨q, hq'⟩ := Option.ne_none_iff_exists'.1 hd
  have hr : d.reason (8 * (s.groupsOf t.toNat).length) = some p.2 := by rw [Desc.reason_eq, hp]; rfl
  refine ⟨_, execLaunchCheck_eq s t hrun hq hc, ?_⟩
  unfold State.checkHead
  rw [hq', hr]
  dsimp only
  obtain ⟨hm, hdone⟩ := s.writeDone_is t.toNat (s.tenAt t.toNat).openWins d.ptroot (d.w 5) (256 * p.2 + 2) he hs
  have hten := State.tenAt_modTenAt_same (s.writeDone t.toNat (s.tenAt t.toNat).openWins d.ptroot (d.w 5) (256 * p.2 + 2)) t.toNat Ten.popped
  rw [hm.tenAt] at hten
  refine ⟨(congrArg Ten.lq hten :).trans ?_, (congrArg Ten.checked hten :), hdone⟩
  rw [Ten.popped, hq]
  rfl

/-- A descriptor without one is passed. -/
theorem launchCheck_passes (hd : s.doneAt t.toNat (s.tenAt t.toNat).openWins d.ptroot (d.w 5) ≠ none)
    (hp : (d.rows (8 * (s.groupsOf t.toNat).length)).find? (fun p => p.1) = none) :
    ∃ u, exec (.launchCheck t) s = .next u ∧ (∀ a, u.byte a = s.byte a) ∧ u.tenAt t.toNat = { s.tenAt t.toNat with checked := true }
      ∧ (∀ o, o ≠ t.toNat → u.tenAt o = s.tenAt o) ∧ u.cores = s.cores := by
  obtain ⟨q, hq'⟩ := Option.ne_none_iff_exists'.1 hd
  have hr : d.reason (8 * (s.groupsOf t.toNat).length) = none := by rw [Desc.reason_eq, hp]; rfl
  refine ⟨_, execLaunchCheck_eq s t hrun hq hc, ?_⟩
  unfold State.checkHead
  rw [hq', hr]
  exact ⟨fun a => rfl, State.tenAt_modTenAt_same _ _ _, fun o ho => State.tenAt_modTenAt_ne _ _ _ _ ho, rfl⟩

end

/-! ### Completion (05_harts R106, R108) -/

section
variable (s : State) (i : BitVec 16)

theorem execLaunchComplete_not (h : ∀ l, s.launches[i.toNat]? = some l → l.left ≠ 0) : exec (.launchComplete i) s = .next s := by
  have hexec : exec (.launchComplete i) s = execLaunchComplete i s := rfl
  rw [hexec]
  unfold execLaunchComplete
  split
  · rfl
  · next l hl => exact if_pos (h l hl)

/-- A launch whose last hart has exited goes, and its completion word holds the number of its harts. -/
theorem launchComplete_ends {t : BitVec 6} {l : Launch} (hl : s.launches[i.toNat]? = some l) (h0 : l.left = 0) (ht : l.ten = t)
    (he : s.NoErrors) (hs : s.NoSnapshot) : ∃ u, exec (.launchComplete i) s = .next u
      ∧ u.launches = s.launches.filter (fun o => o.id != l.id)
      ∧ s.DoneIs u t.toNat (s.tenAt t.toNat).wins l.ptroot l.done (2 ^ 32 * (l.h * l.cores.length) + 1) ∧ u.tens = s.tens := by
  subst ht
  have hexec : exec (.launchComplete i) s = execLaunchComplete i s := rfl
  obtain ⟨hm, hdone⟩ := State.writeDone_is { s with launches := s.launches.filter fun o => o.id != l.id } l.ten.toNat
    (s.tenAt l.ten.toNat).wins l.ptroot l.done (2 ^ 32 * (l.h * l.cores.length) + 1) he hs
  refine ⟨_, ?_, hm.launches, hdone, hm.tens⟩
  rw [hexec]
  unfold execLaunchComplete
  rw [hl]
  exact if_neg (not_not_intro h0)

/-! ### Power (05_harts R114) -/

/-- A core changed alone. -/
theorem State.modCoreAt_only (c : Nat) (f : Core → Core) : (s.modCoreAt c f).coreAt c = f (s.coreAt c)
    ∧ (∀ o, o ≠ c → (s.modCoreAt c f).coreAt o = s.coreAt o) ∧ { s.modCoreAt c f with cores := [] } = { s with cores := [] } :=
  ⟨mget_mset_same _ _ _ _, fun _ ho => mget_mset_ne _ _ _ _ _ ho, rfl⟩

theorem exec_vgrantWrite (c : BitVec 7) (g : BitVec 4) : exec (.vgrantWrite c g) s
    = .next (if 1 ≤ g.toNat ∧ g.toNat ≤ 8 then s.modCoreAt c.toNat fun y => { y with vgrant := g } else s) := rfl

end

end Sys2Proof.Machine

/-! SUPPORT. LAUNCH_PLACE: windows settled, cores taken, harts placed (05_harts R106, R107, 15_device R357). -/

namespace Sys2Proof.Machine

/-! ### The cores of a tenancy (15_device R356) -/

/-- No core of a tenancy is listed twice. -/
theorem State.nodup_coresOf (s : State) (n : Nat) : (s.coresOf n).Nodup := by
  have hg : (s.groupsOf n).Nodup := List.nodup_range.filter _
  refine List.nodup_flatMap.2 ⟨fun g _ => List.nodup_range.map fun _ _ h => Nat.add_left_cancel h, hg.imp fun {g g'} hne => ?_⟩
  intro c hc hc'
  obtain ⟨i, hi, rfl⟩ := List.mem_map.1 hc
  obtain ⟨j, hj, e⟩ := List.mem_map.1 hc'
  rw [List.mem_range] at hi hj
  omega

/-! ### Changes of the cores alone -/

/-- A state without its cores. -/
def State.sansCores (s : State) : State := { s with cores := [] }
/-- A state without its tenancies' blocks. -/
def State.sansTens (s : State) : State := { s with tens := [] }

theorem State.sansCores_foldl {β : Type} (c : β → Nat) (f : β → Core → Core) (l : List β) (s : State) :
    (l.foldl (fun (s : State) b => s.modCoreAt (c b) (f b)) s).sansCores = s.sansCores :=
  foldl_keeps (fun u : State => u.sansCores = s.sansCores) (fun (s : State) b => s.modCoreAt (c b) (f b)) (fun _ _ h => h) l s rfl

/-- Cores changed in turn, each with its place in the list: those of the list change as they are to, and no other does. -/
theorem coreAt_foldl_modCoreAt (f : Nat → Core → Core) {cs : List Nat} (hnd : cs.Nodup) (k : Nat) (s : State) :
    (∀ o, o ∉ cs → ((cs.zipIdx k).foldl (fun s p => s.modCoreAt p.1 (f p.2)) s).coreAt o = s.coreAt o)
    ∧ ∀ j < cs.length, ((cs.zipIdx k).foldl (fun s p => s.modCoreAt p.1 (f p.2)) s).coreAt (cs.getD j 0)
        = f (k + j) (s.coreAt (cs.getD j 0)) := by
  induction cs generalizing k s with
  | nil => exact ⟨fun _ _ => rfl, fun j hj => absurd hj (Nat.not_lt_zero j)⟩
  | cons c r ih =>
    obtain ⟨hc, hr⟩ := List.nodup_cons.1 hnd
    obtain ⟨hout, hin⟩ := ih hr (k + 1) (s.modCoreAt c (f k))
    rw [List.zipIdx_cons, List.foldl_cons]
    refine ⟨fun o ho => ?_, fun j hj => ?_⟩
    · rw [List.mem_cons, not_or] at ho
      rw [hout o ho.2, State.coreAt_modCoreAt_ne _ _ _ _ ho.1]
    · cases j with
      | zero => rw [List.getD_cons_zero, hout c hc, State.coreAt_modCoreAt_same, Nat.add_zero]
      | succ j =>
        have hj' : j < r.length := Nat.lt_of_succ_lt_succ hj
        have hne : r.getD j 0 ≠ c := fun e => hc (by
          rw [← e, List.getD_eq_getElem r 0 hj']
          exact List.getElem_mem hj')
        rw [List.getD_cons_succ, hin j hj', State.coreAt_modCoreAt_ne _ _ _ _ hne, Nat.add_right_comm k 1 j, Nat.add_assoc]

/-! ### Windows settled (15_device R357) -/

/-- A core without its cached translations. -/
def Core.sansTlb (y : Core) : Core := { y with tlb := [] }
/-- A block whose written windows are in effect. -/
def Ten.settled (x : Ten) : Ten := { x with wins := x.openWins, winSet := false }

section
variable (s : State) (n : Nat)

/-- The cached translations of some cores dropped. -/
def State.dropTlbs (cs : List Nat) : State := cs.foldl (fun (s : State) c => s.modCoreAt c Core.sansTlb) s

theorem State.dropTlbs_rest (cs : List Nat) : (s.dropTlbs cs).sansCores = s.sansCores :=
  State.sansCores_foldl (fun c => c) (fun _ => Core.sansTlb) cs s

theorem State.dropTlbs_coreAt (cs : List Nat) (o : Nat) : ((s.dropTlbs cs).coreAt o).sansTlb = (s.coreAt o).sansTlb := by
  refine foldl_keeps (fun u : State => (u.coreAt o).sansTlb = (s.coreAt o).sansTlb) _ (fun u c h => ?_) cs s rfl
  by_cases ho : o = c
  · rw [ho, State.coreAt_modCoreAt_same, ← ho]
    exact h
  · rw [State.coreAt_modCoreAt_ne _ _ _ _ ho]
    exact h

/-- The snapshot that the written windows would not hold fails; another stays. -/
def State.keepHeld : State := if s.snapshotIn n (s.tenAt n).openWins then s else s.failSnapshot n 4

theorem State.settleWindows_eq : s.settleWindows n = if (s.tenAt n).winSet then
    ((s.keepHeld n).modTenAt n Ten.settled).dropTlbs ((s.keepHeld n).coresOf n) else s := rfl

theorem State.keepHeld_cores : (s.keepHeld n).cores = s.cores := by
  unfold State.keepHeld
  split
  · rfl
  · exact s.failSnapshot_cores n 4

theorem State.keepHeld_launches : (s.keepHeld n).launches = s.launches := by
  unfold State.keepHeld
  split
  · rfl
  · exact s.failSnapshot_launches n 4

/-- Of the cores only the cached translations may go. -/
theorem State.settleWindows_coreAt (o : Nat) : ((s.settleWindows n).coreAt o).sansTlb = (s.coreAt o).sansTlb := by
  rw [State.settleWindows_eq]
  split
  · rw [State.dropTlbs_coreAt]
    exact congrArg (fun m => (mget Core.init m o).sansTlb) (s.keepHeld_cores n)
  · rfl

theorem State.settleWindows_launches : (s.settleWindows n).launches = s.launches := by
  rw [State.settleWindows_eq]
  split
  · exact ((congrArg State.launches (State.dropTlbs_rest _ _) :)).trans (s.keepHeld_launches n)
  · rfl

/-- The block with the windows in effect, and with its snapshot failed where they do not hold it. -/
theorem State.settleWindows_tenAt : (s.settleWindows n).tenAt n = if (s.tenAt n).winSet then ((s.keepHeld n).tenAt n).settled else s.tenAt n := by
  rw [State.settleWindows_eq]
  split
  · refine Eq.trans ?_ ((s.keepHeld n).tenAt_modTenAt_same n Ten.settled)
    exact congrArg (fun m => mget Ten.init m n) ((congrArg State.tens (State.dropTlbs_rest _ _) :))
  · rfl

theorem State.settleWindows_byte (a : Nat) : (s.settleWindows n).byte a = if (s.tenAt n).winSet then (s.keepHeld n).byte a else s.byte a := by
  rw [State.settleWindows_eq]
  split
  · exact congrArg (fun m => mget memDefault m a) ((congrArg State.mem (State.dropTlbs_rest _ _) :))
  · rfl

end

/-! ### A launch placed (05_harts R106, R107) -/

section
variable (s : State) (t : BitVec 6) (d : Desc) (cs : List Nat)

/-- The state with one request more numbered. -/
def State.counted : State := { s with nextId := s.nextId + 1 }
/-- The harts of a core of a launch in order. -/
def State.newHarts (j : Nat) : List Hart :=
  (List.range d.h).map fun k => placedHart d t s.nextId j k (s.tenAt t.toNat).trapvec (s.tenAt t.toNat).session
/-- The state with a launch's cores taken. -/
def State.takeCores : State :=
  cs.zipIdx.foldl (fun (u : State) p => u.modCoreAt p.1 fun y => y.take s.nextId (s.newHarts t d p.2))
    (s.counted.settleWindows t.toNat)
/-- The launch of a descriptor on its cores. -/
def State.placedLaunch : Launch :=
  { id := s.nextId, ten := t, h := d.h, cores := cs, tags := cs.map fun c => (c, ((s.takeCores t d cs).coreAt c).ltag), left := d.h * cs.length
    prio := BitVec.ofNat 2 (d.f 1 16 2), ptroot := d.ptroot, groups := d.w 4, done := d.w 5, farms := [] }
/-- The state with the launch listed. -/
def State.withLaunch : State := { s.takeCores t d cs with launches := (s.takeCores t d cs).launches ++ [s.placedLaunch t d cs] }
/-- A block whose armed snapshot takes a launch's units and harts in. -/
def Ten.takesIn (us : List PUnit) (hs : List (Nat × Nat)) (x : Ten) : Ten :=
  { x with prop := { x.prop.note us with uncut := x.prop.uncut ++ hs } }

theorem State.placeLaunch_eq : s.placeLaunch t d cs = if ((s.withLaunch t d cs).tenAt t.toNat).prop.st = 1 ∨ ((s.withLaunch t d cs).tenAt t.toNat).prop.st = 2 then
      (s.withLaunch t d cs).modTenAt t.toNat (Ten.takesIn ((s.withLaunch t d cs).snUnits t.toNat d.ptroot)
        (cs.flatMap fun c => (List.range d.h).map fun k => (c, k)))
    else s.withLaunch t d cs := rfl

theorem State.takeCores_rest : (s.takeCores t d cs).sansCores = (s.counted.settleWindows t.toNat).sansCores :=
  State.sansCores_foldl (fun p : Nat × Nat => p.1) (fun p y => y.take s.nextId (s.newHarts t d p.2)) _ _

/-- What a placement leaves of all but the tenancies' blocks is what listing the launch leaves. -/
theorem State.placeLaunch_sansTens : (s.placeLaunch t d cs).sansTens = (s.withLaunch t d cs).sansTens := by
  rw [State.placeLaunch_eq]
  split <;> rfl

theorem State.placeLaunch_coreAt (o : Nat) : (s.placeLaunch t d cs).coreAt o = (s.takeCores t d cs).coreAt o :=
  (congrArg (fun u : State => u.coreAt o) (s.placeLaunch_sansTens t d cs) :)

theorem State.placeLaunch_launches : (s.placeLaunch t d cs).launches = s.launches ++ [s.placedLaunch t d cs] := by
  refine ((congrArg State.launches (s.placeLaunch_sansTens t d cs) :)).trans ?_
  have h : (s.takeCores t d cs).launches = s.launches :=
    ((congrArg State.launches (s.takeCores_rest t d cs) :)).trans (State.settleWindows_launches _ _)
  exact congrArg (· ++ [s.placedLaunch t d cs]) h

theorem State.placeLaunch_byte (a : Nat) : (s.placeLaunch t d cs).byte a = (s.counted.settleWindows t.toNat).byte a := by
  refine ((congrArg (fun u : State => u.byte a) (s.placeLaunch_sansTens t d cs) :)).trans ?_
  exact (congrArg (fun u : State => u.byte a) (s.takeCores_rest t d cs) :)

/-- Of the tenancy's block only what an armed snapshot takes in differs from what the settled windows leave. -/
theorem State.placeLaunch_tenAt : ∃ p, (s.placeLaunch t d cs).tenAt t.toNat = { (s.counted.settleWindows t.toNat).tenAt t.toNat with prop := p }
    ∧ (((s.counted.settleWindows t.toNat).tenAt t.toNat).prop.st ∉ [1, 2] → p = ((s.counted.settleWindows t.toNat).tenAt t.toNat).prop) := by
  have hten : (s.withLaunch t d cs).tenAt t.toNat = (s.counted.settleWindows t.toNat).tenAt t.toNat :=
    (congrArg (fun u : State => u.tenAt t.toNat) (s.takeCores_rest t d cs) :)
  rw [State.placeLaunch_eq, hten]
  split
  · next h =>
    rw [State.tenAt_modTenAt_same, hten]
    exact ⟨_, rfl, fun hn => absurd h (by simpa using hn)⟩
  · rw [hten]
    exact ⟨_, rfl, fun _ => rfl⟩

end

/-! ### The cores and harts of a placed launch -/

/-- A list numbered from `k` on as a listing. -/
theorem mget_zipIdx {α : Type} (d : α) (l : List α) (k i : Nat) :
    mget d ((l.zipIdx k).map fun p => (p.2, p.1)) (k + i) = l.getD i d := by
  induction l generalizing k i with
  | nil => rfl
  | cons a r ih =>
    rw [List.zipIdx_cons, List.map_cons, mget]
    cases i with
    | zero => exact if_pos rfl
    | succ i =>
      rw [if_neg (show k + (i + 1) ≠ k by omega), List.getD_cons_succ, ← ih (k + 1) i, Nat.add_right_comm k 1 i, Nat.add_assoc]

theorem Core.hartAt_take (y : Core) (id : Nat) (f : Nat → Hart) {n h : Nat} (hh : h < n) :
    (y.take id ((List.range n).map f)).hartAt h = f h := by
  have e := mget_zipIdx Hart.init ((List.range n).map f) 0 h
  rw [Nat.zero_add] at e
  refine e.trans ?_
  simp [hh]

/-- What a core that takes a launch holds. -/
theorem Core.take_holds (y : Core) (id : Nat) (hs : List Hart) : (y.take id hs).launch = some id ∧ (y.take id hs).ltag = y.ltag + 1
    ∧ (∀ e < 64, (y.take id hs).routes[e]?.getD 0 = 0) ∧ (∀ g, (y.take id hs).frame g = Frame.init) ∧ (y.take id hs).lost = 0
    ∧ (y.take id hs).stale = 0 ∧ (y.take id hs).late = 0 ∧ (∀ q, ((y.take id hs).chan q).cwp = 0 ∧ ((y.take id hs).chan q).cmds = [])
    ∧ (y.take id hs).lm = y.lm := by
  refine ⟨rfl, rfl, fun e he => ?_, fun g => ?_, rfl, rfl, rfl, fun q => ?_, rfl⟩
  · simp [Core.take, he]
  · simp [Core.frame, Core.take]
  · simp [Core.chan, Core.take]

/-- What a placed hart starts with. -/
theorem placedHart_holds (d : Desc) (t : BitVec 6) (id j k : Nat) (stvec : Word) (dbg : Bool) :
    (placedHart d t id j k stvec dbg).pc = d.w 0
    ∧ ∀ r : BitVec 5, (placedHart d t id j k stvec dbg).rd r = if 3 ≤ r.toNat ∧ r.toNat ≤ 10 then d.w (r.toNat + 3) else 0 := by
  refine ⟨rfl, fun r => ?_⟩
  unfold Hart.rd
  by_cases hr : r = 0
  · subst hr
    rfl
  · rw [if_neg hr]
    simp [placedHart]

section
variable (s : State) (t : BitVec 6) (d : Desc) {cs : List Nat} (hnd : cs.Nodup)
include hnd

/-- A core that is not taken keeps its harts and its launch. -/
theorem State.placeLaunch_other {o : Nat} (ho : o ∉ cs) :
    ((s.placeLaunch t d cs).coreAt o).harts = (s.coreAt o).harts ∧ ((s.placeLaunch t d cs).coreAt o).launch = (s.coreAt o).launch := by
  have hsettle := s.counted.settleWindows_coreAt t.toNat o
  rw [State.placeLaunch_coreAt, State.takeCores, (coreAt_foldl_modCoreAt (fun j y => y.take s.nextId (s.newHarts t d j)) hnd 0 _).1 o ho]
  exact ⟨(congrArg Core.harts hsettle :), (congrArg Core.launch hsettle :)⟩

/-- The core at a place of the list takes the launch as that core of it. -/
theorem State.placeLaunch_core {j : Nat} (hj : j < cs.length) : ∃ y : Core, (s.placeLaunch t d cs).coreAt (cs.getD j 0) = y.take s.nextId (s.newHarts t d j)
    ∧ y.sansTlb = (s.coreAt (cs.getD j 0)).sansTlb := by
  refine ⟨(s.counted.settleWindows t.toNat).coreAt (cs.getD j 0), ?_, s.counted.settleWindows_coreAt t.toNat _⟩
  rw [State.placeLaunch_coreAt, State.takeCores, (coreAt_foldl_modCoreAt (fun j y => y.take s.nextId (s.newHarts t d j)) hnd 0 _).2 j hj, Nat.zero_add]

end

end Sys2Proof.Machine

/-! SUPPORT. LAUNCH_PLACE as the obligation O58 states it (05_harts R106, R107). -/

namespace Sys2Proof.Machine

/-- A block whose snapshot has failed. -/
def Ten.fallen (reason : BitVec 5) (x : Ten) : Ten := { x with
  intstat := x.intstat ||| 2
  prop := { x.prop with st := 5, reason := reason, units := [], uncut := [] } }

section
variable (s : State) (n : Nat)

theorem State.snapshotIn_congr {u : State} (hp : (u.tenAt n).prop = (s.tenAt n).prop) (hg : u.mgr = s.mgr) (ws : List (Nat × Nat × Nat)) :
    u.snapshotIn n ws = s.snapshotIn n ws := by
  unfold State.snapshotIn
  rw [hp]
  simp only [State.areaIn_congr hg]

/-- The state in which the head of a queue has left it and its launch has its number. -/
def State.taken : State := (s.popLaunch n).counted

theorem State.tenAt_taken : (s.taken n).tenAt n = (s.tenAt n).popped := s.tenAt_modTenAt_same n Ten.popped

theorem State.snapshotIn_taken (ws : List (Nat × Nat × Nat)) : (s.taken n).snapshotIn n ws = s.snapshotIn n ws :=
  State.snapshotIn_congr s n (u := s.taken n) (by rw [s.tenAt_taken]; rfl) rfl ws

theorem State.keepHeld_taken : (s.taken n).keepHeld n
    = if s.snapshotIn n (s.tenAt n).openWins then s.taken n else (s.taken n).failSnapshot n 4 := by
  unfold State.keepHeld
  rw [s.snapshotIn_taken, s.tenAt_taken]
  rfl

theorem State.tenAt_keepHeld_taken : ((s.taken n).keepHeld n).tenAt n
    = if s.snapshotIn n (s.tenAt n).openWins then (s.tenAt n).popped else (s.tenAt n).popped.fallen 4 := by
  rw [State.keepHeld_taken]
  split
  · exact s.tenAt_taken n
  · rw [State.tenAt_failSnapshot_same, s.tenAt_taken]
    rfl

/-- The block once the windows are settled. -/
theorem State.tenAt_settle_taken : ((s.taken n).settleWindows n).tenAt n = if (s.tenAt n).winSet then
      (if s.snapshotIn n (s.tenAt n).openWins then (s.tenAt n).popped else (s.tenAt n).popped.fallen 4).settled
    else (s.tenAt n).popped := by
  have hset : ((s.tenAt n).popped).winSet = (s.tenAt n).winSet := rfl
  rw [State.settleWindows_tenAt, State.tenAt_keepHeld_taken, s.tenAt_taken, hset]

/-- No byte changes where the windows hold the snapshot. -/
theorem State.byte_settle_held (h : (s.tenAt n).winSet = false ∨ s.snapshotIn n (s.tenAt n).openWins = true) (a : Nat) :
    ((s.taken n).settleWindows n).byte a = s.byte a := by
  have hset : ((s.tenAt n).popped).winSet = (s.tenAt n).winSet := rfl
  rw [State.settleWindows_byte, s.tenAt_taken, hset, State.keepHeld_taken]
  rcases h with h | h
  · rw [h]
    rfl
  · rw [h, if_pos rfl]
    split <;> rfl

/-- A snapshot that the windows no longer hold fails, and every CW that is set goes. -/
theorem State.byte_settle_gone (h : (s.tenAt n).winSet = true) (hin : s.snapshotIn n (s.tenAt n).openWins = false)
    (hs : ∀ y ∈ (s.tenAt n).prop.units, s.leafSound y.leafAt) (a : Nat) : ((s.taken n).settleWindows n).byte a
      = if (s.tenAt n).prop.units.any (fun y => y.leafAt == a) then s.byte a &&& 0x7F else s.byte a := by
  have hset : ((s.tenAt n).popped).winSet = (s.tenAt n).winSet := rfl
  have hunits : ((s.taken n).tenAt n).prop.units = (s.tenAt n).prop.units := by
    rw [s.tenAt_taken]
    rfl
  rw [State.settleWindows_byte, s.tenAt_taken, hset, h, if_pos rfl, State.keepHeld_taken, hin, if_neg (by decide), ← hunits]
  exact State.uncw_failSnapshot (s.taken n) n 4 (by rw [hunits]; exact hs) a

end

section
variable (s : State) (t : BitVec 6)

/-- The idle cores of a tenancy in its own order. -/
def State.idleCores (n : Nat) : List Nat :=
  ((s.groupsOf n).flatMap fun g => (List.range 8).map (8 * g + ·)).filter fun c => (s.coreAt c).launch == none

theorem State.idleCores_eq (n : Nat) : (s.coresOf n).filter s.idleCore = s.idleCores n :=
  List.filter_congr fun c _ => by
    unfold State.idleCore
    cases (s.coreAt c).launch <;> rfl

theorem execLaunchPlace_not (h : s.mgr.state ≠ 1 ∨ (s.tenAt t.toNat).lq = [] ∨ (s.tenAt t.toNat).checked = false) :
    exec (.launchPlace t) s = .next s := by
  have hexec : exec (.launchPlace t) s = execLaunchPlace t s := rfl
  rw [hexec]
  unfold execLaunchPlace
  dsimp only
  split
  · rfl
  · next hrun =>
    split
    · next hq hc =>
      rcases h with h | h | h
      · exact absurd h hrun
      · rw [hq] at h
        cases h
      · rw [hc] at h
        cases h
    · rfl

variable {d : Desc} {r : List Desc} (hrun : s.mgr.state = 1) (hq : (s.tenAt t.toNat).lq = d :: r) (hc : (s.tenAt t.toNat).checked = true)
include hrun hq hc

theorem execLaunchPlace_eq : exec (.launchPlace t) s = .next (if ((s.idleCores t.toNat).take d.cores).length < d.cores then s
    else (s.popLaunch t.toNat).placeLaunch t d ((s.idleCores t.toNat).take d.cores)) := by
  have hexec : exec (.launchPlace t) s = execLaunchPlace t s := rfl
  rw [hexec]
  unfold execLaunchPlace
  dsimp only
  rw [if_neg (not_not_intro hrun), hq, hc, State.idleCores_eq]

/-- With too few idle cores the launch stays in its queue. -/
theorem launchPlace_waits (h : (s.idleCores t.toNat).length < d.cores) : exec (.launchPlace t) s = .next s := by
  rw [execLaunchPlace_eq s t hrun hq hc, if_pos (by rw [List.length_take]; omega)]

theorem launchPlace_goes (h : d.cores ≤ (s.idleCores t.toNat).length) : exec (.launchPlace t) s
    = .next ((s.popLaunch t.toNat).placeLaunch t d ((s.idleCores t.toNat).take d.cores)) := by
  rw [execLaunchPlace_eq s t hrun hq hc, if_neg (by rw [List.length_take]; omega)]

end

section
variable (s : State) (t : BitVec 6) (d : Desc) (cs : List Nat)

/-- A launch placed from the head of a tenancy's queue. -/
def State.placedFrom : State := (s.popLaunch t.toNat).placeLaunch t d cs

/-- The block but for what an armed snapshot takes in. -/
theorem State.tenAt_placedFrom : ∃ p, (s.placedFrom t d cs).tenAt t.toNat = { ((s.taken t.toNat).settleWindows t.toNat).tenAt t.toNat with prop := p }
    ∧ ((((s.taken t.toNat).settleWindows t.toNat).tenAt t.toNat).prop.st ∉ [1, 2] → p = (((s.taken t.toNat).settleWindows t.toNat).tenAt t.toNat).prop) :=
  (s.popLaunch t.toNat).placeLaunch_tenAt t d cs

theorem State.placedFrom_block : ((s.placedFrom t d cs).tenAt t.toNat).lq = (s.tenAt t.toNat).lq.drop 1
    ∧ ((s.placedFrom t d cs).tenAt t.toNat).checked = false
    ∧ ((s.placedFrom t d cs).tenAt t.toNat).wins = (if (s.tenAt t.toNat).winSet then (s.tenAt t.toNat).openWins else (s.tenAt t.toNat).wins)
    ∧ ((s.placedFrom t d cs).tenAt t.toNat).winSet = false := by
  obtain ⟨p, hp, -⟩ := s.tenAt_placedFrom t d cs
  rw [hp, State.tenAt_settle_taken]
  cases hw : (s.tenAt t.toNat).winSet with
  | false => exact ⟨rfl, rfl, rfl, hw⟩
  | true => cases s.snapshotIn t.toNat (s.tenAt t.toNat).openWins <;> exact ⟨rfl, rfl, rfl, rfl⟩

/-- Windows that hold the snapshot, or are not written: no byte changes, and a snapshot that is not armed stays. -/
theorem State.placedFrom_held (h : (s.tenAt t.toNat).winSet = false ∨ s.snapshotIn t.toNat (s.tenAt t.toNat).openWins = true) :
    (∀ a, (s.placedFrom t d cs).byte a = s.byte a)
      ∧ ((s.tenAt t.toNat).prop.st ∉ [1, 2] → ((s.placedFrom t d cs).tenAt t.toNat).prop = (s.tenAt t.toNat).prop) := by
  refine ⟨fun a => ((s.popLaunch t.toNat).placeLaunch_byte t d cs a).trans (s.byte_settle_held t.toNat h a), fun hst => ?_⟩
  have hprop : (((s.taken t.toNat).settleWindows t.toNat).tenAt t.toNat).prop = (s.tenAt t.toNat).prop := by
    rw [State.tenAt_settle_taken]
    rcases h with h | h
    · rw [h]
      rfl
    · rw [h, if_pos rfl]
      split <;> rfl
  obtain ⟨p, hp, hkeep⟩ := s.tenAt_placedFrom t d cs
  rw [hp]
  rw [hprop] at hkeep
  exact hkeep hst

/-- Windows that no longer hold the snapshot fail it with REASON 4. -/
theorem State.placedFrom_gone (h : (s.tenAt t.toNat).winSet = true) (hin : s.snapshotIn t.toNat (s.tenAt t.toNat).openWins = false) :
    s.Failed t.toNat (s.placedFrom t d cs) 4 ∧ ((∀ y ∈ (s.tenAt t.toNat).prop.units, s.leafSound y.leafAt) → ∀ a, (s.placedFrom t d cs).byte a
      = if (s.tenAt t.toNat).prop.units.any (fun y => y.leafAt == a) then s.byte a &&& 0x7F else s.byte a) := by
  refine ⟨?_, fun hs a => ((s.popLaunch t.toNat).placeLaunch_byte t d cs a).trans (s.byte_settle_gone t.toNat h hin hs a)⟩
  have hten : ((s.taken t.toNat).settleWindows t.toNat).tenAt t.toNat = ((s.tenAt t.toNat).popped.fallen 4).settled := by
    rw [State.tenAt_settle_taken, h, if_pos rfl, hin, if_neg (by decide)]
  obtain ⟨p, hp, hkeep⟩ := s.tenAt_placedFrom t d cs
  unfold State.Failed
  rw [hten] at hp hkeep
  have hp' : p = ((s.tenAt t.toNat).popped.fallen 4).settled.prop := hkeep (show (5 : BitVec 3) ∉ [1, 2] by decide)
  rw [hp, hp']
  exact ⟨rfl, rfl, rfl, rfl⟩

/-- The launch that a placement lists. -/
theorem State.placedFrom_launches : ∃ l, (s.placedFrom t d cs).launches = s.launches ++ [l] ∧ l.id = s.nextId ∧ l.ten = t ∧ l.cores = cs
    ∧ l.left = d.h * cs.length ∧ l.groups = d.w 4 ∧ l.done = d.w 5 ∧ l.farms = []
    ∧ l.tags = cs.map fun c => (c, ((s.placedFrom t d cs).coreAt c).ltag) := by
  refine ⟨_, (s.popLaunch t.toNat).placeLaunch_launches t d cs, rfl, rfl, rfl, rfl, rfl, rfl, rfl, ?_⟩
  exact List.map_congr_left fun c _ => congrArg (fun y : Core => (c, y.ltag)) ((s.popLaunch t.toNat).placeLaunch_coreAt t d cs c).symm

variable {cs} (hnd : cs.Nodup)
include hnd

theorem State.placedFrom_other {o : Nat} (ho : o ∉ cs) :
    ((s.placedFrom t d cs).coreAt o).harts = (s.coreAt o).harts ∧ ((s.placedFrom t d cs).coreAt o).launch = (s.coreAt o).launch :=
  (s.popLaunch t.toNat).placeLaunch_other t d hnd ho

theorem State.placedFrom_core {j : Nat} (hj : j < cs.length) : ∃ y : Core,
    (s.placedFrom t d cs).coreAt (cs.getD j 0) = y.take s.nextId ((List.range d.h).map fun k =>
      placedHart d t s.nextId j k (s.tenAt t.toNat).trapvec (s.tenAt t.toNat).session)
    ∧ y.sansTlb = (s.coreAt (cs.getD j 0)).sansTlb := by
  obtain ⟨y, hy, hsame⟩ := (s.popLaunch t.toNat).placeLaunch_core t d hnd hj
  refine ⟨y, hy.trans ?_, hsame⟩
  unfold State.newHarts State.popLaunch
  rw [State.tenAt_modTenAt_same]
  rfl

/-- A core of the launch once it is placed. -/
theorem State.placedFrom_coreHolds {j : Nat} (hj : j < cs.length) :
    let p := cs.getD j 0
    let y := (s.placedFrom t d cs).coreAt p
    y.launch = some s.nextId ∧ y.ltag = (s.coreAt p).ltag + 1 ∧ (∀ e < 64, y.routes[e]?.getD 0 = 0) ∧ (∀ g, y.frame g = Frame.init)
      ∧ y.lost = 0 ∧ y.stale = 0 ∧ y.late = 0 ∧ (∀ q, (y.chan q).cwp = 0 ∧ (y.chan q).cmds = []) ∧ y.lm = (s.coreAt p).lm := by
  obtain ⟨y, hy, hsame⟩ := s.placedFrom_core t d hnd hj
  dsimp only
  rw [hy]
  obtain ⟨hla, hta, hro, hfr, hlo, hst, hle, hch, hlm⟩ := y.take_holds s.nextId ((List.range d.h).map fun k =>
    placedHart d t s.nextId j k (s.tenAt t.toNat).trapvec (s.tenAt t.toNat).session)
  exact ⟨hla, hta.trans (congrArg (fun x : Core => x.ltag + 1) hsame :), hro, hfr, hlo, hst, hle, hch, hlm.trans (congrArg Core.lm hsame :)⟩

/-- A hart of the launch once it is placed. -/
theorem State.placedFrom_hartAt {j h : Nat} (hj : j < cs.length) (hh : h < d.h) : (s.placedFrom t d cs).hartAt (cs.getD j 0) h
    = placedHart d t s.nextId j h (s.tenAt t.toNat).trapvec (s.tenAt t.toNat).session := by
  obtain ⟨y, hy, -⟩ := s.placedFrom_core t d hnd hj
  rw [State.hartAt, hy, Core.hartAt_take _ _ _ hh]

end

end Sys2Proof.Machine

/-! SUPPORT. HLAUNCH: the words read, what program level may not choose, and the queue (05_harts R122). -/

namespace Sys2Proof.Machine

/-! ### The descriptor's words -/

/-- Sixteen words read as sound scalar loads. -/
theorem State.readWords_ok (s : State) (n : Nat) {va : Word} {P : Nat → Part}
    (h : ∀ j < n, s.checkScalar .load 8 (va + BitVec.ofNat 64 (8 * j)) = .ok (P j) ∧ s.Sound (P j)) :
    s.readWords n va = .ok ((List.range n).map fun j => BitVec.ofNat 64 (s.readLoc (P j).loc 8)) := by
  induction n generalizing va P with
  | zero => rfl
  | succ n ih =>
    obtain ⟨hcheck, hreg, hmark, herr⟩ := h 0 (Nat.succ_pos n)
    rw [Nat.mul_zero, show va + BitVec.ofNat 64 0 = va from BitVec.add_zero va] at hcheck
    have hrest := ih (va := va + 8) (P := fun j => P (j + 1)) fun j hj => by
      rw [BitVec.add_assoc, show (8 : Word) + BitVec.ofNat 64 (8 * j) = BitVec.ofNat 64 (8 * (j + 1)) by
        rw [Nat.mul_succ, Nat.add_comm, BitVec.ofNat_add]
        rfl]
      exact h (j + 1) (Nat.succ_lt_succ hj)
    have hread : s.checkRead [P 0] = none := by
      unfold State.checkRead
      simp [hmark, herr]
    have hpart : s.readPart (P 0) 8 = s.readLoc (P 0).loc 8 := by
      unfold State.readPart
      cases hl : (P 0).loc with
      | reg t off => rw [hl] at hreg; cases hreg
      | mem a => rfl
      | lm c a => rfl
    rw [State.readWords, hcheck]
    dsimp only
    rw [hread]
    dsimp only
    rw [hrest, hpart, List.range_succ_eq_map, List.map_cons, List.map_map]
    rfl

/-- The field of a word's two bits [17:16] replaced. -/
theorem replace_prio (w : Word) (p : BitVec 2) :
    (w &&& ~~~((3 : Word) <<< 16)) ||| (p.setWidth 64 <<< 16) = w.extractLsb' 18 46 ++ p ++ w.extractLsb' 0 16 := by
  have h3 (i : Nat) : (3 : Word).getLsbD i = decide (i < 2) := by
    rw [show (3 : Word) = (BitVec.allOnes 2).setWidth 64 from rfl, BitVec.getLsbD_setWidth, BitVec.getLsbD_allOnes]
    by_cases hi : i < 2
    · simp [hi, show i < 64 by omega]
    · simp [hi]
  refine BitVec.eq_of_getLsbD_eq fun i hi => ?_
  simp only [BitVec.getLsbD_or, BitVec.getLsbD_and, BitVec.getLsbD_not, BitVec.getLsbD_shiftLeft, BitVec.getLsbD_setWidth, h3,
    BitVec.getLsbD_append, BitVec.getLsbD_extractLsb', hi, decide_true, Bool.true_and]
  by_cases h16 : i < 16
  · simp [h16]
  · by_cases h18 : i < 18
    · have hlo : i - 16 < 2 := by omega
      simp [h16, hlo, show i - 16 < 64 by omega]
    · have hp : p.getLsbD (i - 16) = false := BitVec.getLsbD_of_ge _ _ (by omega)
      simp [h16, show ¬ i - 16 < 2 by omega, hp, show i - 16 - 2 < 46 by omega, show 18 + (i - 16 - 2) = i by omega]

/-- The words of a descriptor. -/
theorem toList_descOf (ws : List Word) (src : Word) : (descOf ws src).words.toList = (List.range 16).map fun j => ws.getD j 0 := by
  rw [descOf, Vector.toList_ofFn, List.ofFn_eq_map, ← List.map_coe_finRange_eq_range, List.map_map]
  rfl

/-- A word of a descriptor as HLAUNCH puts it: PTROOT and PRIO are bounded at program level. -/
def launchWord (k : Hart) (word : Nat → Word) (j : Nat) : Word :=
  if k.trap.system then word j else if j = 3 then k.ptroot
  else if j = 1 then (word 1).extractLsb' 18 46
    ++ (if ((word 1).extractLsb' 16 2).toNat ≤ k.place.prio.toNat then (word 1).extractLsb' 16 2 else k.place.prio) ++ (word 1).extractLsb' 0 16
  else word j

/-- One entry of a list replaced. -/
theorem getD_set (l : List Word) {i : Nat} (v : Word) (hi : i < l.length) (j : Nat) : (l.set i v).getD j 0 = if j = i then v else l.getD j 0 := by
  rw [List.getD_eq_getElem?_getD, List.getElem?_set, List.getD_eq_getElem?_getD]
  by_cases hij : i = j
  · subst hij
    simp [hi]
  · rw [if_neg hij, if_neg (Ne.symm hij)]

theorem getD_hlaunchWords (k : Hart) (word : Nat → Word) {j : Nat} (hj : j < 16) :
    (hlaunchWords k k.place.prio ((List.range 16).map word)).getD j 0 = launchWord k word j := by
  have hget (i : Nat) (hi : i < 16) : ((List.range 16).map word).getD i 0 = word i := by simp [hi]
  have hlen : ((List.range 16).map word).length = 16 := by simp
  generalize hws : (List.range 16).map word = ws at hget hlen
  have hlow (p : BitVec 2) : (if p.ule k.place.prio then p else k.place.prio) = if p.toNat ≤ k.place.prio.toNat then p else k.place.prio :=
    if_congr (by rw [BitVec.ule, decide_eq_true_iff]) rfl rfl
  unfold hlaunchWords launchWord
  cases k.trap.system with
  | true => exact hget j hj
  | false =>
    rw [if_neg Bool.false_ne_true, if_neg Bool.false_ne_true]
    dsimp only
    rw [replace_prio, hlow, hget 1 (by decide), getD_set _ _ (by rw [List.length_set, hlen]; decide), getD_set _ _ (by rw [hlen]; decide), hget j hj]
    by_cases h1 : j = 1
    · rw [if_pos h1, if_neg (show ¬ j = 3 by omega), if_pos h1]
    · rw [if_neg h1, if_neg h1]

/-! ### The instruction -/

section
variable {s : State} {d a : BitVec 5}

theorem exec_hlaunch_misaligned (h : (s.rd a).toNat % 128 ≠ 0) : exec (.hlaunch d a) s = trap 0x08 (s.rd a) s := if_pos h

/-- HLAUNCH waits, begun, for the stores before it. -/
theorem exec_hlaunch_waits (h : (s.rd a).toNat % 128 = 0) (hvs : s.hart.vec.vs ≠ 0) (hbusy : s.memoryQueued = true ∨ s.hart.sbuf ≠ []) :
    exec (.hlaunch d a) s = .next s.begin := by
  have hexec : exec (.hlaunch d a) s = execHlaunch d a s := rfl
  have hvs' : s.begin.hart.vec.vs ≠ 0 := by
    rw [State.begin, State.hart_modHart]
    exact hvs
  rw [hexec]
  unfold execHlaunch waitFor
  dsimp only
  rw [if_neg (not_not_intro h)]
  cases hm : s.memoryQueued with
  | true => rw [if_pos rfl, if_neg hvs']
  | false =>
    have hsb : s.hart.sbuf ≠ [] := hbusy.resolve_left (by rw [hm]; decide)
    rw [if_neg (by decide), if_pos (by simpa using hsb)]

/-- The descriptor that HLAUNCH appends. -/
def State.launchDesc (s : State) (a : BitVec 5) (P : Nat → Part) : Desc :=
  descOf (hlaunchWords s.hart s.hart.place.prio ((List.range 16).map fun j => BitVec.ofNat 64 (s.readLoc (P j).loc 8))) (s.rd a)

/-- The state in which the descriptor has been offered to the queue, and whether that took it. -/
def State.offered (s : State) (a : BitVec 5) (P : Nat → Part) : Bool × State :=
  (s.touch s.cc s.hart (s.rd a)).push s.hart.place.ten.toNat (s.launchDesc a P)

theorem exec_hlaunch_goes {P : Nat → Part} (h : (s.rd a).toNat % 128 = 0) (hm : s.memoryQueued = false) (hsb : s.hart.sbuf = [])
    (hP : ∀ j < 16, s.checkScalar .load 8 (s.rd a + BitVec.ofNat 64 (8 * j)) = .ok (P j) ∧ s.Sound (P j)) :
    exec (.hlaunch d a) s = finish d (if (s.offered a P).1 then 0 else 1) (s.offered a P).2 := by
  have hexec : exec (.hlaunch d a) s = execHlaunch d a s := rfl
  rw [hexec]
  unfold execHlaunch waitFor
  dsimp only
  rw [if_neg (not_not_intro h), hm, if_neg (by decide), hsb, if_neg (by decide), s.readWords_ok 16 hP]
  dsimp only
  rw [State.hart_touch]
  rfl

/-- The state with the descriptor offered: the hart, the bytes and the queue. -/
theorem State.offered_holds (s : State) (a : BitVec 5) (P : Nat → Part) (hq : s.Quiet) :
    (s.offered a P).2.Quiet ∧ (s.offered a P).2.hart = s.hart ∧ (∀ b, (s.offered a P).2.byte b = s.byte b)
    ∧ (64 ≤ (s.tenAt s.hart.place.ten.toNat).lq.length → (s.offered a P).1 = false ∧ (s.offered a P).2.tens = s.tens)
    ∧ (¬ 64 ≤ (s.tenAt s.hart.place.ten.toNat).lq.length → (s.offered a P).1 = true ∧ (s.offered a P).2.tenAt s.hart.place.ten.toNat
        = { s.tenAt s.hart.place.ten.toNat with lq := (s.tenAt s.hart.place.ten.toNat).lq ++ [s.launchDesc a P] }) := by
  have htouch := s.sameButTlb_touch s.cc s.hart (s.rd a)
  have hhart : (s.touch s.cc s.hart (s.rd a)).hart = s.hart := s.hart_touch _ _ _
  have htens : (s.touch s.cc s.hart (s.rd a)).tens = s.tens := (congrArg State.tens htouch.rest :)
  have hten : (s.touch s.cc s.hart (s.rd a)).tenAt s.hart.place.ten.toNat = s.tenAt s.hart.place.ten.toNat :=
    congrArg (fun m => mget Ten.init m s.hart.place.ten.toNat) htens
  have hquiet : (s.touch s.cc s.hart (s.rd a)).Quiet := htouch.quiet hq (by rw [hhart]; exact hq.2)
  unfold State.offered State.push
  rw [hten]
  by_cases hfull : 64 ≤ (s.tenAt s.hart.place.ten.toNat).lq.length
  · rw [if_pos hfull]
    exact ⟨hquiet, hhart, htouch.bytes, fun _ => ⟨rfl, htens⟩, fun h => absurd hfull h⟩
  · rw [if_neg hfull]
    refine ⟨hquiet, hhart, htouch.bytes, fun h => absurd h hfull, fun _ => ⟨rfl, ?_⟩⟩
    rw [State.tenAt_modTenAt_same, hten]

/-- HLAUNCH appends its descriptor, or says that 64 wait. -/
theorem hlaunch_appends {P : Nat → Part} (h : (s.rd a).toNat % 128 = 0) (hm : s.memoryQueued = false) (hsb : s.hart.sbuf = []) (hq : s.Quiet)
    (hP : ∀ j < 16, s.checkScalar .load 8 (s.rd a + BitVec.ofNat 64 (8 * j)) = .ok (P j) ∧ s.Sound (P j)) :
    ∃ u, exec (.hlaunch d a) s = .next u
      ∧ (∀ r, u.rd r = if r = 0 then 0 else if r = d then (if 64 ≤ (s.tenAt s.hart.place.ten.toNat).lq.length then 1 else 0) else s.rd r)
      ∧ u.hart = { s.hart.retire s.nextPc with sregs := u.hart.sregs } ∧ (∀ b, u.byte b = s.byte b)
      ∧ (64 ≤ (s.tenAt s.hart.place.ten.toNat).lq.length → u.tens = s.tens)
      ∧ (¬ 64 ≤ (s.tenAt s.hart.place.ten.toNat).lq.length → u.tenAt s.hart.place.ten.toNat
        = { s.tenAt s.hart.place.ten.toNat with lq := (s.tenAt s.hart.place.ten.toNat).lq ++ [s.launchDesc a P] }) := by
  obtain ⟨hquiet, hhart, hbytes, hfull, hroom⟩ := s.offered_holds a P hq
  obtain ⟨u, hu, hsame, hrd, hend⟩ := finish_sets (s.offered a P).2 d (if (s.offered a P).1 then 0 else 1) hquiet
  have htens : u.tens = (s.offered a P).2.tens := (congrArg State.tens hsame.rest :)
  have hval : (if (s.offered a P).1 then 0 else 1 : Word) = if 64 ≤ (s.tenAt s.hart.place.ten.toNat).lq.length then 1 else 0 := by
    by_cases hf : 64 ≤ (s.tenAt s.hart.place.ten.toNat).lq.length
    · rw [(hfull hf).1, if_pos hf]
      rfl
    · rw [(hroom hf).1, if_neg hf]
      rfl
  have hsrd (r : BitVec 5) : (s.offered a P).2.rd r = s.rd r := congrArg (fun k : Hart => k.rd r) hhart
  have hpc : (s.offered a P).2.nextPc = s.nextPc := congrArg (fun k : Hart => k.pc + 4) hhart
  refine ⟨u, (exec_hlaunch_goes h hm hsb hP).trans hu, fun r => ?_, ?_, fun b => (hsame.bytes b).trans (hbytes b), fun hf => htens.trans (hfull hf).2,
    fun hf => (congrArg (fun m => mget Ten.init m _) htens).trans (hroom hf).2⟩
  · rw [hrd, hval, hsrd]
  · rw [hend, hhart, hpc]
    rfl

end

end Sys2Proof.Machine

/-! The family "Harts": O58. -/

namespace Sys2Proof

open Machine

/-- Settles O58: each instruction and event by the lemmas about it, from HLAUNCH's words to Propolis' refused drain. -/
theorem launchesAndSnapshots : Obligations.LaunchesAndSnapshots := by
  unfold Obligations.LaunchesAndSnapshots
  intro s t n x only bytes done calm held gone
  refine ⟨fun d a P => ?hlaunch, ?check, execLaunchCheck_not s t, s.snapshotIn_iff n, execLaunchPlace_not s t, ?place, execLaunchComplete_not s,
    fun i l hl h0 ht hcalm => launchComplete_ends s i hl h0 ht hcalm.1 hcalm.2, fun c g half => ?power, ?prop⟩
  case hlaunch =>
    intro k va ten
    refine ⟨fun hmis hcalm => ?_, exec_hlaunch_waits, s.memoryQueued_eq_false_iff, fun hal hm hsb hq hP => ?_⟩
    · rw [exec_hlaunch_misaligned hmis]
      exact trap_traps s _ _ hcalm
    · intro word prio low put full
      obtain ⟨u, hu, hrd, hend, hbytes, hfull, hroom⟩ := hlaunch_appends (d := d) hal hm hsb hq hP
      refine ⟨u, hu, hrd, hend, hbytes, hfull, fun hf => ⟨s.launchDesc a P, hroom hf, rfl, ?_⟩⟩
      refine (toList_descOf _ _).trans (List.map_congr_left fun j hj => ?_)
      exact getD_hlaunchWords s.hart word (List.mem_range.1 hj)
  case check =>
    intro c r hrun hq hc hcalm w f reasons place
    exact ⟨launchCheck_noPlace s t hrun hq hc, fun hd p hp => launchCheck_refused s t hrun hq hc hcalm.1 hcalm.2 hd hp,
      launchCheck_passes s t hrun hq hc⟩
  case place =>
    intro c r hrun hq hc w f idle
    refine ⟨launchPlace_waits s t hrun hq hc, fun hle => ?_⟩
    have hlen : (idle.take (f 1 32 16)).length = f 1 32 16 := by
      rw [List.length_take]
      exact Nat.min_eq_left hle
    have hnd : (idle.take (f 1 32 16)).Nodup :=
      ((s.nodup_coresOf n).filter (fun c => (s.coreAt c).launch == none)).sublist (List.take_sublist _ _)
    obtain ⟨l, hl, hid, hten, hcores, hleft, hgroups, hdone, hfarms, htags⟩ := s.placedFrom_launches t c (idle.take (f 1 32 16))
    obtain ⟨hlq, hchecked, hwins, hset⟩ := s.placedFrom_block t c (idle.take (f 1 32 16))
    refine ⟨s.placedFrom t c (idle.take (f 1 32 16)), l, launchPlace_goes s t hrun hq hc hle, s.placedFrom_held t c _, fun hw hin => ?gone,
      hlq.trans (by rw [hq]; rfl), hchecked, hwins, hset, hl, hid, hten, hcores, hleft.trans (by rw [hlen]; rfl), hgroups, hdone, hfarms,
      fun o ho => s.placedFrom_other t c hnd (hcores ▸ ho), fun j hj => ?core⟩
    case gone =>
      obtain ⟨⟨hst, hreason, hunits, hint⟩, hbytes⟩ := s.placedFrom_gone t c (idle.take (f 1 32 16)) hw hin
      exact ⟨hst, hreason, hunits, hint, hbytes⟩
    case core =>
      have hj' : j < (idle.take (f 1 32 16)).length := by rwa [hlen]
      have hmem : (idle.take (f 1 32 16)).getD j 0 ∈ idle.take (f 1 32 16) := by
        rw [List.getD_eq_getElem _ 0 hj']
        exact List.getElem_mem hj'
      intro p y
      have hp : p = (idle.take (f 1 32 16)).getD j 0 := congrArg (fun cs : List Nat => cs.getD j 0) hcores
      obtain ⟨hla, hta, hro, hfr, hlo, hst, hle, hch, hlm⟩ := s.placedFrom_coreHolds t c hnd hj'
      rw [← hp] at hla hta hro hfr hlo hst hle hch hlm hmem
      refine ⟨by rw [hid]; exact hla, hta, htags ▸ List.mem_map.2 ⟨p, hmem, rfl⟩, hro, hfr, hlo, hst, hle, hch, hlm, fun h hh => ?_⟩
      intro k
      have hk : k = placedHart c t s.nextId j h x.trapvec x.session := by
        rw [← s.placedFrom_hartAt t c hnd hj' hh, ← hp]
      obtain ⟨hpc, hrd⟩ := placedHart_holds c t s.nextId j h x.trapvec x.session
      rw [hk]
      exact ⟨hpc, hrd, rfl, rfl, rfl, rfl, rfl, rfl, rfl, rfl, rfl, rfl, rfl, rfl, rfl, rfl, by rw [hid]; rfl⟩
  case power =>
    refine ⟨fun hlo hhi => ⟨_, (exec_vgrantWrite s c g).trans (congrArg Host.Outcome.next (if_pos ⟨hlo, hhi⟩)), s.modCoreAt_only _ _⟩,
      fun h => (exec_vgrantWrite s c g).trans (congrArg Host.Outcome.next (if_neg (by omega))), _, rfl, s.modCoreAt_only _ _⟩
  case prop =>
    refine ⟨fun v => ?arm, fun i => ?copy, fun w o u h hu => takeTurn_storeWaits h hu, fun st ten c hn hw => card_waits hn hw, ?last, fun h => ?drainNot, ?drain, ?drainAll, ?refNot, ?ref, ?refErr⟩
    case arm =>
      exact ⟨propolisArm_clear s t, fun hv hst => (exec_propolisArm s t v).trans (by rw [s.writeParm_busy _ v hv hst]), propolisArm_free s t⟩
    case copy =>
      intro cw full
      have hfull : full ↔ x.prop.full = true := decide_eq_true_iff.symm
      refine ⟨s.storeAwaits_iff x.prop.n, fun h => ?_, fun z hz hst himg hdr => ⟨fun hother step pa v m hfind hcut => ?_, fun hf hu => ?_,
        fun hf hu => ?_, fun hw hnot => ?_, fun hf hok => ?_⟩⟩
      · cases hz : x.prop.units[i.toNat]? with
        | none => exact execPropolisUnitCopy_none s t i hz
        | some z =>
          refine (execPropolisUnitCopy_eq s t i hz).trans (congrArg Host.Outcome.next (if_neg ?_))
          rw [← hfull]
          exact h z hz
      · exact State.beforeStore_past hst hother hfind himg hcut
      · rw [s.copyUnit_full n z.unit (hfull.1 hf) hu]
        exact ⟨State.failed_failSnapshot s n rfl 2, fun hs a => s.uncw_failSnapshot n 2 hs a⟩
      · rw [s.copyUnit_waits n z.unit (hfull.1 hf) hu]
        exact s.storeWaits_waiting n
      · refine (execPropolisUnitCopy_eq s t i hz).trans (congrArg Host.Outcome.next (if_pos ⟨hst, himg, hdr, hw, ?_⟩))
        rwa [← hfull]
      · have hf' : x.prop.full = false := by rwa [← Bool.not_eq_true, ← hfull]
        exact ⟨_, rfl, copyUnit_with_room s t hz himg hdr hf' hok⟩
    case last => exact ⟨execPropolisLastCut_not s t, propolisLastCut_done s t⟩
    case drainNot => exact execPropolisDrainUnit_waits s t h
    case drain =>
      intro hst hr l y r hus hl hy units
      obtain ⟨u, hu, hrec, hrest⟩ := propolisDrainUnit_next s t hst hr hus hl hy (us := units) rfl
      exact ⟨u, hu, hrec.trans (by rw [s.drainRecord_eq]; rfl), hrest⟩
    case drainAll => exact propolisDrainUnit_all s t
    case refNot => exact execPropolisDrainRefused_not s t
    case ref =>
      exact fun hst => ⟨_, execPropolisDrainRefused_drain s t hst, State.failed_failSnapshot s n rfl 3, fun hs a => s.uncw_failSnapshot n 3 hs a⟩
    case refErr => exact fun y hst hus he => propolisDrainRefused_error s t hst hus he

end Sys2Proof

/-! SUPPORT. A vector word captured and dispatched as a convoy of its own (02_stream R50 to R55): what lets it through the checks,
and that it then runs from its first element to its last. -/

namespace Sys2Proof.Machine

/-! ### The checks (02_stream R55) -/

/-- What the checks of 02_stream R55 ask of a word that is a convoy alone. -/
structure VMeaning.Passes (m : VMeaning) (k : Hart) (x : Entry) : Prop where
  slots : m.slots.Nodup
  alone : m.alone = true → m.c = false
  ring  : m.ring = false
  bad02 : m.bad02 = false
  early : m.early = none
  fits  : ∀ g ∈ m.grps, g.bad05 k x.cfg = false ∧ g.bad06 k x.cfg = false
  bad05 : m.bad05 = false
  typed : x.ill = false
  bad04 : m.bad04 = false
  free  : ∀ r ∈ m.maskW, k.isBound r = false
  late  : m.late = none

section
variable {m : VMeaning} {k : Hart} {x : Entry}

theorem slotCount_le_one (h : m.slots.Nodup) (t : Slot) : slotCount [(x, m)] t ≤ 1 := by
  simpa [slotCount] using List.nodup_iff_count_le_one.mp h t

/-- A word alone breaks no rule of convoys. -/
theorem VMeaning.Passes.breaks03 (h : m.Passes k x) : breaks03 k [] (x, m) = false := by
  have hp := slotCount_le_one (x := x) h.slots .p
  have hp1 := slotCount_le_one (x := x) h.slots .p1
  have hk := slotCount_le_one (x := x) h.slots .k
  have hx := slotCount_le_one (x := x) h.slots .x
  have hl := slotCount_le_one (x := x) h.slots .l
  have hs := slotCount_le_one (x := x) h.slots .s
  have ha : (m.alone && m.c) = false := by
    cases hm : m.alone
    · rfl
    · simp [h.alone hm]
  have hsteps : ([(x, m)].filter fun b : CWord => b.2.steps).length ≤ 1 := List.length_filter_le _ _
  simp only [Machine.breaks03, List.nil_append, List.any_nil, List.any_cons, h.ring, List.length_singleton, List.isEmpty_nil,
    Bool.not_true, Bool.or_false, ha, Bool.and_false, Bool.false_and, Bool.or_eq_false_iff, decide_eq_false_iff_not]
  omega

theorem VMeaning.Passes.convoyCheck (h : m.Passes k x) : convoyCheck k [(x, m)] = none := by
  have h06 : m.is06 k x.cfg = false := by
    simpa [VMeaning.is06] using fun g hg => (h.fits g hg).2
  have h05 : m.is05 k x = false := by
    simpa [VMeaning.is05, h.bad05, h.typed] using fun g hg => (h.fits g hg).1
  have hbound : (m.maskW.find? fun r => k.isBound r) = none := by
    simpa using h.free
  simp [Machine.convoyCheck, find03, h.bad02, h.breaks03, h.early, h06, h05, h.bad04, hbound]

theorem VMeaning.Passes.dispatchCheck (h : m.Passes k x) : dispatchCheck k [(x, m)] = none := by
  simp [Machine.dispatchCheck, h.convoyCheck, h.late]

/-! ### The run -/

/-- No element reads a marked chunk of a mask. -/
theorem maskMark_none {n : Nat} (h : ∀ e < n, m.markAt k e = false) : maskMark m k 0 n = none := by
  unfold maskMark
  split
  · rfl
  · simpa using h

end

theorem le_roundUp {u n : Nat} (hu : 0 < u) : n ≤ roundUp u n := by
  have h := Nat.div_add_mod (n + u - 1) u
  have hm := Nat.mod_lt (n + u - 1) hu
  rw [roundUp, Nat.mul_comm]
  omega

/-- A word alone that meets no mark runs whole in the one part of its convoy. -/
theorem runPart_alone {s t : State} {m : VMeaning} {stop : Nat} (hlen : m.len ≤ 2 ^ 32) (hstop : 2 ^ 32 ≤ stop)
    (hmark : maskMark m s.hart 0 m.len = none) (hrun : m.run s 0 m.len = .ok t) (hnone : m.len = 0 → m.whole = true ∨ t = s) :
    runPart s.hart s stop [(m, 0)] = .done t := by
  have hgo : m.go s 0 m.len = .ok t := by
    unfold VMeaning.go
    simp only [ite_self, hmark]
    split
    · exact hrun
    · next h =>
      simp only [not_or, not_and, not_lt, Nat.le_zero] at h
      rw [(hnone h.1).resolve_left fun hw => h.2 hw h.1]
  have hhi : min 4294967296 (min m.len stop) = m.len := by omega
  simp [runPart, passOne, heldStore, hhi, hgo]

theorem runConvoy_alone {s t : State} {x : Entry} {m : VMeaning} (hfeeds : m.feeds = false) (hunit : m.unit = 1) (hchunk : m.chunk = 1)
    (hlen : m.len ≤ 2 ^ 32)
    (hmark : maskMark m s.hart 0 m.len = none) (hrun : m.run s 0 m.len = .ok t) (hnone : m.len = 0 → m.whole = true ∨ t = s) :
    runConvoy s [(x, m)] [] (2 ^ 32) = .done t := by
  have hword : feedWords s.hart [(x, m)] [] = [(m, 0)] := by
    have hm : { m with feeds := false } = m := by rw [← hfeeds]
    simp [feedWords, hm]
  have hpart {stop : Nat} (hstop : 2 ^ 32 ≤ stop) := runPart_alone hlen hstop hmark hrun hnone
  have hepg : 0 < convoyEpg s.hart [m] := Nat.lt_of_lt_of_le Nat.one_pos (Nat.le_max_left _ _)
  unfold runConvoy
  simp only [hword, List.map_cons, List.map_nil, List.foldl_cons, List.foldl_nil, hunit, hchunk, Nat.lcm_one_right, splitConvoy,
    runParts, List.any_cons, List.any_nil, hfeeds, Bool.or_false, Bool.false_eq_true, if_false]
  split
  · rw [hpart le_rfl]
  · rw [hpart (le_roundUp hepg)]

/-- A word that passes the checks and meets no mark completes with its whole run. -/
theorem runSingle_done {s t : State} {vm : VM} {r f : BitVec 5} {m : VMeaning} (hm : vm (s.capture r f) s = m)
    (hon : s.hart.vec.vs ≠ 0) (h : m.Passes s.hart (s.capture r f)) (hfeeds : m.feeds = false) (hunit : m.unit = 1)
    (hchunk : m.chunk = 1) (hlen : m.len ≤ 2 ^ 32) (hmark : ∀ e < m.len, m.markAt s.hart e = false)
    (hrun : m.run s 0 m.len = .ok t) (hnone : m.len = 0 → m.whole = true ∨ t = s) : runSingle vm r f s = .next t := by
  unfold runSingle
  simp only [if_neg hon, hm, h.dispatchCheck,
    runConvoy_alone hfeeds hunit hchunk hlen (maskMark_none hmark) hrun hnone]

end Sys2Proof.Machine

/-! SUPPORT. Words that do one element after another (06_varith R130), and the bits of masks that they write (R129, R148). -/

namespace Sys2Proof.Machine

/-! ### Elements in order -/

/-- A fold over the first numbers, with what holds before each of them. -/
theorem foldl_range_keeps {g : State → Nat → State} (P : Nat → State → Prop) {s : State} {n : Nat} (h0 : P 0 s)
    (hstep : ∀ e < n, ∀ u, P e u → P (e + 1) (g u e)) : P n ((List.range n).foldl g s) := by
  induction n with
  | zero => exact h0
  | succ n ih =>
    rw [List.range_succ, List.foldl_append]
    exact hstep n (Nat.lt_succ_self n) _ (ih fun e he => hstep e (Nat.lt_succ_of_lt he))

/-- A loop whose elements all succeed is the fold of what they do. -/
theorem elems_eq_foldl {f : Nat → State → Except (BitVec 8 × Word × State) State} {g : State → Nat → State}
    (P : Nat → State → Prop) {s : State} {n : Nat} (h0 : P 0 s)
    (hstep : ∀ e < n, ∀ u, P e u → f e u = .ok (g u e) ∧ P (e + 1) (g u e)) :
    elems f s 0 n = .ok ((List.range n).foldl g s) := by
  have loop (i : Nat) : ∀ lo u, lo + i = n → P lo u → elemLoop f i lo u = .ok ((List.range' lo i).foldl g u) := by
    induction i with
    | zero => exact fun _ _ _ _ => rfl
    | succ i ih =>
      intro lo u hlo hu
      obtain ⟨hf, hp⟩ := hstep lo (by omega) u hu
      rw [elemLoop, hf]
      exact ih (lo + 1) (g u lo) (by omega) hp
  rw [List.range_eq_range']
  exact loop n 0 s (by omega) h0

/-! ### Bits of masks (R129) -/

/-- A bit of a word put. -/
theorem getLsbD_putBit (x : Word) {i j : Nat} (hi : i < 64) (b : Bool) :
    (if b then x ||| (1 : Word) <<< j else x &&& ~~~((1 : Word) <<< j)).getLsbD i = if i = j then b else x.getLsbD i := by
  have hbit : ((1 : Word) <<< j).getLsbD i = decide (i = j) := by
    rw [show (1 : Word) = 1#64 from rfl, BitVec.getLsbD_shiftLeft, BitVec.getLsbD_one, Bool.eq_iff_iff]
    simp only [Bool.and_eq_true, decide_eq_true_eq, Bool.not_eq_true', decide_eq_false_iff_not]
    omega
  cases b
  · rw [if_neg Bool.false_ne_true, BitVec.getLsbD_and, BitVec.getLsbD_not, hbit]
    by_cases h : i = j <;> simp [h, hi]
  · rw [if_pos rfl, BitVec.getLsbD_or, hbit]
    by_cases h : i = j <;> simp [h]

/-- Chunks of the 2^20 bits of masks are apart. -/
theorem maskIndex_inj {m d i j : Nat} (hi : i < 16384) (hj : j < 16384) (h : maskIndex m i = maskIndex d j) : m = d ∧ i = j := by
  unfold maskIndex at h
  omega

/-- One bit of one mask is written. -/
theorem Hart.maskBit_setMaskBit (k : Hart) (d e : Nat) (b : Bool) {m j : Nat} (he : e < 2 ^ 20) (hj : j < 2 ^ 20) :
    (k.setMaskBit d e b).maskBit m j = if m = d ∧ j = e then b else k.maskBit m j := by
  have hstore (x : Word) (i : Nat) : (k.setMaskChunk d (e / 64) x).maskChunk m i
      = mget 0 (mput 0 k.store.masks (maskIndex d (e / 64)) x) (maskIndex m i) := rfl
  unfold Hart.maskBit Hart.setMaskBit
  rw [hstore]
  by_cases hc : m = d ∧ j / 64 = e / 64
  · obtain ⟨rfl, hc⟩ := hc
    have hbit : j % 64 = e % 64 ↔ j = e := by omega
    rw [hc, mget_mput_same, getLsbD_putBit _ (Nat.mod_lt _ (by norm_num))]
    simp only [hbit, true_and]
  · rw [mget_mput_ne, if_neg]
    · rfl
    · rintro ⟨rfl, rfl⟩
      exact hc ⟨rfl, rfl⟩
    · exact fun h => hc (maskIndex_inj (by omega) (by omega) h)

/-- Masks, their bindings, the dirty masks and VS change. -/
theorem Hart.setMaskBit_frame (k : Hart) (d e : Nat) (b : Bool) : k.setMaskBit d e b = { k with
    store := { k.store with masks := (k.setMaskBit d e b).store.masks, binds := (k.setMaskBit d e b).store.binds }
    vec := { k.vec with dirtyM := (k.setMaskBit d e b).vec.dirtyM, vs := (k.setMaskBit d e b).vec.vs } } := rfl

/-- The predicate of an element is one bit of a mask. -/
theorem Hart.active_congr {k l : Hart} {e : Nat} (h : ∀ m : BitVec 3, l.maskBit m.toNat e = k.maskBit m.toNat e)
    (pm : Option (BitVec 3)) : l.active pm e = k.active pm e := by
  cases pm with
  | none => rfl
  | some m => exact h m

/-! ### A word that writes bits of a mask -/

/-- What a word that writes bits `v` of mask `d` at active elements leaves when it has done the first of them. -/
structure BitsPut (s : State) (d : BitVec 3) (act v : Nat → Bool) (e : Nat) (u : State) : Prop where
  same  : SameElse s u
  bits  : ∀ m : BitVec 3, ∀ j < 2 ^ 20, u.hart.maskBit m.toNat j = if m = d ∧ j < e ∧ act j = true then v j else s.hart.maskBit m.toNat j
  frame : u.hart = { s.hart with
    store := { s.hart.store with masks := u.hart.store.masks, binds := u.hart.store.binds }
    vec := { s.hart.vec with dirtyM := u.hart.vec.dirtyM, vs := u.hart.vec.vs } }

section
variable {s u : State} {d : BitVec 3} {act v : Nat → Bool} {e : Nat}

theorem BitsPut.zero : BitsPut s d act v 0 s := ⟨SameElse.refl s, fun _ _ _ => by simp, rfl⟩
/-- The bits of an element not reached are as they stood. -/
theorem BitsPut.later (h : BitsPut s d act v e u) (he : e < 2 ^ 20) (m : BitVec 3) : u.hart.maskBit m.toNat e = s.hart.maskBit m.toNat e := by
  rw [h.bits m e he, if_neg (by omega)]
theorem BitsPut.succ (h : BitsPut s d act v e u) (he : e < 2 ^ 20) :
    BitsPut s d act v (e + 1) (if act e then u.modHart fun k => k.setMaskBit d.toNat e (v e) else u) := by
  have hlast (j : Nat) (hj : j ≠ e) : j < e + 1 ↔ j < e := by omega
  split
  case isTrue hact =>
    refine ⟨h.same.trans (State.sameElse_modHart _ _), fun m j hj => ?_, ?_⟩
    · rw [State.hart_modHart, Hart.maskBit_setMaskBit _ _ _ _ he hj, h.bits m j hj]
      by_cases hje : j = e
      · subst hje
        by_cases hm : m = d <;> simp [hm, hact, BitVec.toNat_inj]
      · simp [hje, hlast j hje]
    · rw [State.hart_modHart, Hart.setMaskBit_frame, h.frame]
  case isFalse hact =>
    refine ⟨h.same, fun m j hj => ?_, h.frame⟩
    rw [h.bits m j hj]
    by_cases hje : j = e
    · subst hje
      simp [hact]
    · simp only [hlast j hje]

end

section
variable {s : State} {h : VHdr} {d : BitVec 3} {srcs : List (BitVec 3)} {op : Hart → Entry → Nat → Bool}

/-- A mask instruction passes the checks where its mask is not bound. -/
theorem maskM_passes {x : Entry} (ht : x.ill = false) (hb : s.hart.isBound d.toNat = false) :
    (maskM h d srcs op x s).Passes s.hart x where
  slots := List.nodup_singleton _
  alone := by simp [maskM]
  ring := rfl
  bad02 := rfl
  early := rfl
  fits := by simp [maskM, VMeaning.grps]
  bad05 := rfl
  typed := ht
  bad04 := rfl
  free := by simpa [maskM] using hb
  late := rfl

/-- No element meets a mark of a mask read under its own predicate. -/
theorem markAt_predicated {m : VMeaning} {k : Hart} {e : Nat} {rs : List Nat} (hpm : m.maskR = rs ++ pmReads m.pm) (hm : m.marksAt = none)
    (hfree : ∀ r ∈ pmReads m.pm, k.maskMarked r (e / 64) = false)
    (hclean : k.active m.pm e = true → ∀ r ∈ rs, k.maskMarked r (e / 64) = false) : m.markAt k e = false := by
  have hreads : ((pmReads m.pm).any fun r => k.maskMarked r (e / 64)) = false := by simpa using hfree
  have hrs : (k.active m.pm e && rs.any fun r => k.maskMarked r (e / 64)) = false := by
    cases ha : k.active m.pm e
    · rfl
    · simpa using hclean ha
  rw [VMeaning.markAt, hm, hpm]
  simp only [List.any_append, hrs, hreads, Bool.or_false]

/-- A mask instruction writes the bits that its operation gives of the masks as they stood. -/
theorem maskWord_puts {i : Instr} {r : BitVec 5} {v : Nat → Bool} (hi : exec i s = runSingle (maskM h d srcs op) r 0 s)
    (hruns : MaskRuns s.hart h.pm srcs) (hb : s.hart.isBound d.toNat = false)
    (hop : ∀ k e, (∀ m : BitVec 3, k.maskBit m.toNat e = s.hart.maskBit m.toNat e) → op k (s.capture r 0) e = v e) :
    let n := s.hart.cfg.vl.toNat
    PutsBits s (exec i s) n h.pm d v ∧ ∃ t, exec i s = .next t ∧ BitsPut s d (s.hart.active h.pm) v n t := by
  intro n
  have hn {e : Nat} (he : e < n) : e < 2 ^ 20 := he.trans_le hruns.short
  have hput := foldl_range_keeps (n := n) (BitsPut s d (s.hart.active h.pm) v) BitsPut.zero fun e he u hu => hu.succ (hn he)
  have hexec : PutsBits s (exec i s) n h.pm d v := by
    rw [PutsBits, hi]
    refine runSingle_done rfl hruns.on (maskM_passes hruns.typed hb) rfl rfl rfl ?_ ?_
      (elems_eq_foldl (n := n) (BitsPut s d (s.hart.active h.pm) v) BitsPut.zero fun e he u hu => ⟨?_, hu.succ (hn he)⟩) ?_
    · exact hruns.short.trans (by norm_num)
    · exact fun e he => markAt_predicated rfl rfl (hruns.free e he) fun ha r hr => by
        obtain ⟨m, hm, rfl⟩ := List.mem_map.mp hr
        exact hruns.clean e he ha m hm
    · rw [Hart.active_congr (hu.later (hn he))]
      split
      · rw [State.modHart_congr u _ (fun k => k.setMaskBit d.toNat e (v e)) (by rw [hop u.hart e (hu.later (hn he))])]
      · rfl
    · intro hz
      rw [show n = 0 from hz]
      exact .inr rfl
  exact ⟨hexec, _, hexec, hput⟩

/-- A scalar register written is all that a word gives. -/
theorem gives_wr (s : State) (r : BitVec 5) (w : Word) : Gives s (.next (s.wr r w)) r w := by
  refine ⟨_, rfl, State.sameElse_modHart _ _, fun j => ?_, ?_⟩
  · rw [State.wr, State.rd_modHart, Hart.rd_wr]
    rfl
  · rw [State.wr, State.hart_modHart]
    unfold Hart.wr
    split <;> rfl

variable {a : BitVec 3} {f : List Nat → Word}

/-- MPOP and MFIRST pass the checks where they end a convoy. -/
theorem maskToScalar_passes {x : Entry} {r : BitVec 5} (ht : x.ill = false) (hc : h.c = false) :
    (maskToScalar h r a f x s).Passes s.hart x where
  slots := List.nodup_singleton _
  alone _ := hc
  ring := rfl
  bad02 := rfl
  early := rfl
  fits := by simp [maskToScalar, VMeaning.grps]
  bad05 := rfl
  typed := ht
  bad04 := rfl
  free := by simp [maskToScalar]
  late := rfl

/-- The numbers that pass a test begin with the least of them. -/
theorem filter_range_first {hit : Nat → Bool} {e n : Nat} (hhit : hit e = true) (hleast : ∀ i < e, hit i = false) (he : e < n) :
    (List.range n).filter hit = e :: ((List.range (n - (e + 1))).map (e + 1 + ·)).filter hit := by
  have hbelow : (List.range e).filter hit = [] := by simpa using hleast
  conv_lhs => rw [← Nat.add_sub_cancel' (Nat.succ_le_of_lt he)]
  rw [Nat.succ_eq_add_one, List.range_add, List.filter_append, List.range_succ, List.filter_append, hbelow, List.filter_singleton, hhit]
  rfl

/-- A mask without marks is read into a scalar. -/
theorem maskToScalar_gives {i : Instr} {r : BitVec 5} {w : Word}
    (hi : exec i s = runSingle (maskToScalar h r a f) 0 0 s) (hc : h.c = false) (hruns : MaskRuns s.hart h.pm [a])
    (hw : f ((List.range s.hart.cfg.vl.toNat).filter fun e => s.hart.active h.pm e && s.hart.maskBit a.toNat e) = w) :
    Gives s (exec i s) r w := by
  have hexec : exec i s = .next (s.wr r w) := by
    rw [hi, ← hw]
    refine runSingle_done rfl hruns.on (maskToScalar_passes hruns.typed hc) rfl rfl rfl ?_ ?_ rfl fun _ => .inl rfl
    · exact hruns.short.trans (by norm_num)
    · exact fun e he => markAt_predicated (rs := [a.toNat]) rfl rfl (hruns.free e he) fun ha => by
        simpa using hruns.clean e he ha a (List.mem_singleton_self a)
  rw [hexec]
  exact gives_wr s r w

end

end Sys2Proof.Machine

/-! The family 06_varith: O36 and O37. Mask instructions. -/

namespace Sys2Proof

open Machine

/-- Settles O36, by the induction over the elements of a mask instruction, of which each reads only its own bits. -/
theorem maskLogicResults : Obligations.MaskLogicResults := by
  intro s h d a b sr k n x puts
  have done {i : Instr} {r : BitVec 5} {srcs : List (BitVec 3)} {op : Hart → Entry → Nat → Bool} (v : Nat → Bool)
      (hi : exec i s = runSingle (maskM h d srcs op) r 0 s)
      (hop : ∀ k e, (∀ m : BitVec 3, k.maskBit m.toNat e = s.hart.maskBit m.toNat e) → op k (s.capture r 0) e = v e) :
      puts i srcs v := by
    intro hruns hb
    obtain ⟨hputs, t, ht, hput⟩ := maskWord_puts hi hruns hb hop
    refine ⟨hputs, t, ht, hput.same, fun e he => ?_, fun m hm e he => ?_, hput.frame⟩
    · exact (hput.bits d e he).trans (by simp only [true_and]; rfl)
    · exact (hput.bits m e he).trans (if_neg fun hc => hm hc.1)
  refine ⟨done _ rfl ?_, done _ rfl ?_, done _ rfl ?_, done _ rfl ?_, done _ rfl ?_, done _ rfl ?_, done _ rfl ?_, done _ rfl ?_,
    done _ rfl ?_⟩
  case refine_1 => exact fun k e hk => congrArg₂ _ (hk a) (hk b)
  case refine_2 => exact fun k e hk => congrArg₂ _ (hk a) (hk b)
  case refine_3 => exact fun k e hk => congrArg₂ _ (hk a) (hk b)
  case refine_4 => exact fun k e hk => congrArg₂ (fun u v => u && !v) (hk a) (hk b)
  case refine_5 => exact fun k e hk => congrArg _ (hk a)
  case refine_6 => exact fun k e hk => rfl
  case refine_7 => exact fun k e hk => rfl
  case refine_8 => exact fun k e hk => decide_eq_true (Nat.zero_le e)
  case refine_9 => exact fun k e hk => decide_eq_false (Nat.not_lt_zero e)

/-- Settles O37: both words read the active elements whose bit is 1, one their number and the other the first of them. -/
theorem maskCounts : Obligations.MaskCounts := by
  intro s h a r k hit hc hruns
  refine ⟨maskToScalar_gives rfl hc hruns ?_, fun e he hhit hleast => maskToScalar_gives rfl hc hruns ?_,
    fun hnone => maskToScalar_gives rfl hc hruns ?_⟩
  · rw [List.countP_eq_length_filter]
  · rw [filter_range_first hhit hleast he]
  · have hnil : (List.range s.hart.cfg.vl.toNat).filter hit = [] := by simpa using hnone
    rw [hnil]
    rfl

end Sys2Proof

/-! SUPPORT. Words that write one element of a register group after another from the elements of others (03_formats R67, R71,
06_varith R130, R137): what of the sources an element written leaves. -/

namespace Sys2Proof.Machine

/-! ### Groups (03_formats R71) -/

/-- A legal hart's registers have chunks. -/
theorem Hart.legal.cpr_pos {k : Hart} (h : k.legal) : 0 < cpr k k.cfg := by
  obtain ⟨hn, hp⟩ := h
  unfold cpr Hart.lanes
  rcases hn with hn | hn | hn <;> rcases hp with hp | hp | hp | hp <;> rw [hn, hp] <;> decide

theorem Hart.legal.cpr_le {k : Hart} (h : k.legal) : cpr k k.cfg ≤ 65536 := by
  obtain ⟨hn, hp⟩ := h
  unfold cpr Hart.lanes
  rcases hn with hn | hn | hn <;> rcases hp with hp | hp | hp | hp <;> rw [hn, hp] <;> decide

section
variable {k : Hart} {c : Cfg} {g d : Grp}

/-- A group of an accepted size has the registers that it needs. -/
theorem Grp.need_le_size (h : g.bad05 k c = false) : g.need k c ≤ g.size k c := by
  simp only [Grp.bad05, Bool.or_eq_false_iff, decide_eq_false_iff_not] at h
  simp only [Grp.size]
  split_ifs <;> omega
theorem Grp.size_le (k : Hart) (c : Cfg) (g : Grp) : g.size k c ≤ 8 := by
  simp only [Grp.size]
  split_ifs <;> omega

/-- The elements of a group lie in the chunks of the registers that they need. -/
theorem Grp.n_le_need (hw : g.w ∈ [32, 16, 8, 6, 4]) (hc : 0 < cpr k c) : g.n ≤ g.need k c * (cpr k c * perChunk g.w) := by
  have hceil {a b : Nat} (hb : 0 < b) : a ≤ max 1 ((a + b - 1) / b) * b := by
    have h := Nat.div_add_mod (a + b - 1) b
    have hm := Nat.mod_lt (a + b - 1) hb
    have hmax : (a + b - 1) / b * b ≤ max 1 ((a + b - 1) / b) * b := Nat.mul_le_mul_right _ (Nat.le_max_right _ _)
    rw [Nat.mul_comm] at h
    omega
  have hbits {w : Nat} (hw : w * perChunk w = 64) : g.n * w ≤ max 1 ((g.n * w + regBits k c - 1) / regBits k c) * regBits k c →
      g.n ≤ max 1 ((g.n * w + regBits k c - 1) / regBits k c) * (cpr k c * perChunk w) := by
    intro h
    have hreg : regBits k c = cpr k c * perChunk w * w := by rw [regBits, ← hw]; ring
    have hpos : 0 < w := Nat.pos_of_ne_zero fun h0 => by simp [h0] at hw
    conv_rhs at h => rw [hreg, ← Nat.mul_assoc, ← hreg]
    exact Nat.le_of_mul_le_mul_right h hpos
  have hreg : 0 < regBits k c := by unfold regBits; omega
  unfold Grp.need
  split
  case isTrue h6 =>
    rw [h6]
    exact hceil (Nat.mul_pos hc (by decide))
  case isFalse h6 =>
    refine hbits ?_ (hceil hreg)
    revert h6 hw
    generalize g.w = w
    revert w
    decide

/-- An element of a group lies in a chunk of its registers. -/
theorem Grp.chunk_lt (h : g.bad05 k c = false) (hw : g.w ∈ [32, 16, 8, 6, 4]) (hc : 0 < cpr k c) {e : Nat} (he : e < g.n) :
    e / perChunk g.w < g.size k c * cpr k c := by
  rw [Nat.div_lt_iff_lt_mul (perChunk_pos hw)]
  calc e < g.n := he
    _ ≤ g.need k c * (cpr k c * perChunk g.w) := Grp.n_le_need hw hc
    _ ≤ g.size k c * (cpr k c * perChunk g.w) := Nat.mul_le_mul_right _ (Grp.need_le_size h)
    _ = _ := by ring

/-- Elements of groups that share no register lie in different chunks. -/
theorem Grp.chunkIndex_ne (hd : d.bad05 k c = false) (hg : g.bad05 k c = false) (hdw : d.w ∈ [32, 16, 8, 6, 4])
    (hgw : g.w ∈ [32, 16, 8, 6, 4]) (hc : 0 < cpr k c) (hmeet : d.meets k c g = false) {e j : Nat} (he : e < d.n) (hj : j < g.n) :
    chunkIndex k c g.base (j / perChunk g.w) ≠ chunkIndex k c d.base (e / perChunk d.w) := by
  have hed := Grp.chunk_lt hd hdw hc he
  have hjg := Grp.chunk_lt hg hgw hc hj
  simp only [Grp.meets, Bool.and_eq_false_iff, decide_eq_false_iff_not, Nat.not_lt] at hmeet
  unfold chunkIndex
  generalize e / perChunk d.w = a at *
  generalize j / perChunk g.w = b at *
  rcases hmeet with h | h
  · have := Nat.mul_le_mul_right (cpr k c) h
    rw [Nat.add_mul] at this
    omega
  · have := Nat.mul_le_mul_right (cpr k c) h
    rw [Nat.add_mul] at this
    omega

/-- The elements of a group of a legal hart are fewer than the 2^32 of a convoy. -/
theorem Grp.n_lt (hk : k.legal) (hg : g.bad05 k k.cfg = false) (hw : g.w ∈ [32, 16, 8, 6, 4]) : g.n ≤ 2 ^ 32 := by
  have hper : perChunk g.w ≤ 16 := by
    revert hw
    generalize g.w = w
    revert w
    decide
  calc g.n ≤ g.need k k.cfg * (cpr k k.cfg * perChunk g.w) := Grp.n_le_need hw hk.cpr_pos
    _ ≤ 8 * (65536 * 16) := Nat.mul_le_mul ((Grp.need_le_size hg).trans (Grp.size_le _ _ _)) (Nat.mul_le_mul hk.cpr_le hper)
    _ ≤ 2 ^ 32 := by norm_num

end

/-! ### What elements written leave -/

/-- What a word that writes elements of a group leaves when it has done the elements below `e`: masks, marks and the placement, and of
the groups `ss` the elements from `e` on. -/
structure Hart.Ahead (k : Hart) (c : Cfg) (ss : List Grp) (e : Nat) (l : Hart) : Prop where
  masks  : l.store.masks = k.store.masks
  poison : l.store.poison = k.store.poison
  place  : l.place = k.place
  elems  : ∀ g ∈ ss, ∀ j, e ≤ j → j < g.n → l.elem c g.base g.w j = k.elem c g.base g.w j

section
variable {k l m : Hart} {c : Cfg} {ss : List Grp} {e : Nat}

theorem Hart.Ahead.refl (k : Hart) (c : Cfg) (ss : List Grp) (e : Nat) : k.Ahead c ss e k := ⟨rfl, rfl, rfl, fun _ _ _ _ _ => rfl⟩
theorem Hart.Ahead.later (h : k.Ahead c ss e l) : k.Ahead c ss (e + 1) l where
  masks := h.masks
  poison := h.poison
  place := h.place
  elems g hg j hj := h.elems g hg j (by omega)
/-- Changes elsewhere in the hart leave it. -/
theorem Hart.Ahead.congr (h : k.Ahead c ss e l) (hs : m.store = l.store) (hp : m.place = l.place) : k.Ahead c ss e m where
  masks := hs ▸ h.masks
  poison := hs ▸ h.poison
  place := hp.trans h.place
  elems g hg j hj hn := (Hart.elem_congr hp (by rw [hs]) c g.base g.w j).trans (h.elems g hg j hj hn)
theorem Hart.Ahead.active (h : k.Ahead c ss e l) (pm : Option (BitVec 3)) (j : Nat) : l.active pm j = k.active pm j :=
  Hart.active_congr (fun m => by simp only [Hart.maskBit, Hart.maskChunk, h.masks]) pm
theorem Hart.Ahead.elemMarked (h : k.Ahead c ss e l) (v w j : Nat) : l.elemMarked c v w j = k.elemMarked c v w j := by
  simp only [Hart.elemMarked, Hart.chunkMarked, h.poison, chunkIndex_congr h.place]

/-- An element written leaves the later elements of the sources, which do not overlap but where they coincide (R137). -/
theorem Hart.Ahead.setElem {d : Grp} (h : k.Ahead c ss e l) (hc : 0 < cpr k c) (hfits : ∀ g ∈ d :: ss, g.bad05 k c = false)
    (hws : ∀ g ∈ d :: ss, g.w ∈ [32, 16, 8, 6, 4]) (hover : overlap137 k c [d] ss = false) (he : e < d.n) (p : Nat) :
    k.Ahead c ss (e + 1) (l.setElem c d.base d.w e p) where
  masks := h.masks
  poison := h.poison
  place := h.place
  elems g hg j hj hn := by
    have hover : (d.meets k c g && !d.same k c g) = false := by
      simp only [overlap137, List.any_cons, List.any_nil, Bool.or_false, List.any_eq_false] at hover
      simpa using hover g hg
    rw [← h.elems g hg j (by omega) hn]
    by_cases hmeet : d.meets k c g = true
    · simp only [hmeet, Bool.true_and, Bool.not_eq_false', Grp.same, Bool.and_eq_true, beq_iff_eq] at hover
      obtain ⟨⟨hbase, -⟩, hw⟩ := hover
      rw [← hbase, ← hw]
      exact Hart.elem_setElem_ne l c d.base e p (hws d List.mem_cons_self) (by omega)
    · have hne := Grp.chunkIndex_ne (hfits d List.mem_cons_self) (hfits g (List.mem_cons_of_mem _ hg)) (hws d List.mem_cons_self)
        (hws g (List.mem_cons_of_mem _ hg)) hc (Bool.eq_false_of_not_eq_true hmeet) he hn
      rw [← chunkIndex_congr h.place, ← chunkIndex_congr h.place] at hne
      rw [Hart.elem_eq, Hart.elem_eq]
      refine congrArg (fun x : Word => x.toNat / _ % _) ?_
      exact mget_mput_ne 0 l.store.chunks _ _ _ hne

end

/-! ### Operands (06_varith R131) -/

theorem readPat_eq (f p : Nat) :
    readPat f p = if f = 0x0D then p % 4 + (if p.testBit 1 then 12 else 0) else if f = 0x0E then p % 4 else if f = 0x0F then p % 2 else p := by
  have hbit : p.testBit 1 = decide (p / 2 % 2 = 1) := by rw [Nat.testBit_eq_decide_div_mod_eq, pow_one]
  unfold readPat
  split
  · rw [if_pos rfl, hbit]
    by_cases h : p / 2 % 2 = 1 <;> simp [h, Nat.add_comm]
  · rfl
  · rfl
  · rw [if_neg ‹_›, if_neg ‹_›, if_neg ‹_›]

section
variable {k l : Hart} {c : Cfg} {n e : Nat}

theorem mem_opndGrps {n v f : Nat} {os : List Opnd} (h : Opnd.vec v f ∈ os) : { base := v, n := n, w := contWidth f } ∈ opndGrps n os :=
  List.mem_filterMap.mpr ⟨_, h, rfl⟩
theorem opndGrps_width {n : Nat} {os : List Opnd} {g : Grp} (h : g ∈ opndGrps n os) : g.w ∈ [32, 16, 8, 6, 4] ∧ g.n = n := by
  obtain ⟨o, -, ho⟩ := List.mem_filterMap.mp h
  cases o with
  | vec v f =>
    cases ho
    exact ⟨contWidth_mem f, rfl⟩
  | const p f => cases ho

/-- An operand without a mark reads as before the word. -/
theorem Opnd.pat_ahead {ss : List Grp} {o : Opnd} (h : k.Ahead c ss e l) (he : e < n) (hss : ∀ g ∈ opndGrps n [o], g ∈ ss)
    (hclean : ∀ g ∈ opndGrps n [o], k.elemMarked c g.base g.w e = false) : o.pat l c e = some (o.readsIn k c e) := by
  cases o with
  | const p f => rfl
  | vec v f =>
    have hg := mem_opndGrps (n := n) (List.mem_singleton_self (Opnd.vec v f))
    have hmark : l.elemMarked c v (contWidth f) e = false := (h.elemMarked _ _ _).trans (hclean _ hg)
    have helem : l.elem c v (contWidth f) e = k.elem c v (contWidth f) e := h.elems _ (hss _ hg) e le_rfl he
    simp only [Opnd.pat, Opnd.readsIn, hmark, helem, readPat_eq, Bool.false_eq_true, if_false]

theorem opndGrps_cons (n : Nat) (o : Opnd) (os : List Opnd) : opndGrps n (o :: os) = opndGrps n [o] ++ opndGrps n os := by
  cases o <;> rfl

theorem opndPats_ahead {ss : List Grp} {os : List Opnd} (h : k.Ahead c ss e l) (he : e < n) (hss : ∀ g ∈ opndGrps n os, g ∈ ss)
    (hclean : ∀ g ∈ opndGrps n os, k.elemMarked c g.base g.w e = false) :
    opndPats l c e os = some (os.map fun o => o.readsIn k c e) := by
  induction os with
  | nil => rfl
  | cons o os ih =>
    rw [opndGrps_cons] at hss hclean
    have hone := Opnd.pat_ahead h he (fun g hg => hss g (List.mem_append_left _ hg)) fun g hg => hclean g (List.mem_append_left _ hg)
    have hrest := ih (fun g hg => hss g (List.mem_append_right _ hg)) fun g hg => hclean g (List.mem_append_right _ hg)
    simp only [opndPats, hone, hrest, List.map_cons]
theorem opndVals_eq (l : Hart) (c : Cfg) (e : Nat) (os : List Opnd) :
    opndVals l c e os = (opndPats l c e os).map fun ps => List.zipWith (fun o p => value o.fmt p) os ps := by
  induction os with
  | nil => rfl
  | cons o os ih =>
    simp only [opndVals, opndPats, ih, Opnd.val]
    cases o.pat l c e <;> cases opndPats l c e os <;> rfl

end

end Sys2Proof.Machine

/-! SUPPORT. The forms of words that round results or write patterns into a register group (06_varith R131, R137, R139, R143): they
complete with what each active element gives of the operands as they stood. -/

namespace Sys2Proof.Machine

/-- A slot with the one of a crossing is taken once. -/
theorem nodup_crossing {slot : Slot} (h : slot ≠ .x) (ds ss : List Grp) : (slot :: crossing ds ss).Nodup := by
  unfold crossing
  split
  · simpa using h
  · exact List.nodup_singleton _

/-- A word that writes one element after another of a group completes with the elements in order. -/
theorem elems_setElem {s : State} {c : Cfg} {act : Nat → Bool} {d : Grp} {ss : List Grp} {wr : Nat → Hart → Hart}
    {f : Nat → State → Except (BitVec 8 × Word × State) State} (hc : 0 < cpr s.hart c)
    (hfits : ∀ g ∈ d :: ss, g.bad05 s.hart c = false) (hws : ∀ g ∈ d :: ss, g.w ∈ [32, 16, 8, 6, 4])
    (hover : overlap137 s.hart c [d] ss = false)
    (hwr : ∀ e l, ∃ (m : Hart) (p : Nat), m.store = l.store ∧ m.place = l.place ∧ wr e l = m.setElem c d.base d.w e p)
    (hf : ∀ e < d.n, ∀ u, s.hart.Ahead c ss e u.hart → f e u = .ok (if act e then u.modHart (wr e) else u)) :
    elems f s 0 d.n = .ok ((List.range d.n).foldl (fun u e => if act e then u.modHart (wr e) else u) s) := by
  refine elems_eq_foldl (fun e u => s.hart.Ahead c ss e u.hart) (Hart.Ahead.refl _ _ _ _) fun e he u hu => ⟨hf e he u hu, ?_⟩
  split
  · obtain ⟨m, p, hs, hp, hw⟩ := hwr e u.hart
    rw [State.hart_modHart, hw]
    exact (hu.congr hs hp).setElem hc hfits hws hover he p
  · exact hu.later

/-- A value rounded into an element is an element written. -/
theorem Hart.putRound_writes (l : Hart) (c : Cfg) (d : Nat) (q : Descr) (e : Nat) (v : Val) : ∃ (m : Hart) (p : Nat),
    m.store = l.store ∧ m.place = l.place ∧ l.putRound c d q e v = m.setElem c d (contWidth q.fd) e p :=
  ⟨l.modVec fun x => { x with seed := (roundEv q.fd q.rm q.sat l.vec.seed v).2 }, _, rfl, rfl, rfl⟩

section
variable {s : State} {x : Entry} {h : VHdr} {d : BitVec 5} {ss : List Grp} {read : Nat → List Grp}

/-- A group among the destination and the vector operands has a container of the formats. -/
theorem grp_width {n : Nat} {os : List Opnd} {g : Grp} (hg : g ∈ x.grp d n :: opndGrps x.vl os) : g.w ∈ [32, 16, 8, 6, 4] := by
  rcases List.mem_cons.mp hg with rfl | hg
  · exact contWidth_mem n
  · exact (opndGrps_width hg).1

section
variable {slot : Slot} {os : List Opnd} {ok : Nat → Bool} {op : Bool → Nat → List Val → Val}

theorem valueM_passes (hruns : Runs s.hart x h.pm [x.grp d x.fmt.fd] (opndGrps x.vl os) read) (hslot : slot ≠ .x)
    (hscl : x.fmt.scl = 0) (hfd : ok x.fmt.fd = true) (hos : ∀ o ∈ os, ok o.fmt = true)
    (hover : overlap137 s.hart x.cfg [x.grp d x.fmt.fd] (opndGrps x.vl os) = false) :
    (valueM h slot d os ok op x s).Passes s.hart x where
  slots := nodup_crossing hslot _ _
  alone := by simp [valueM]
  ring := rfl
  bad02 := rfl
  early := rfl
  fits g hg := hruns.fits g (by
    rw [VMeaning.grps] at hg
    exact List.mem_append.mpr (List.mem_append.mp hg).symm)
  bad05 := by simpa [valueM, hruns.descr, hscl, hfd] using hos
  typed := hruns.typed
  bad04 := hover
  free := by simp [valueM]
  late := rfl

theorem patM_passes {bad : Bool} {op : List Nat → Nat}
    (hruns : Runs s.hart x h.pm [x.grp d x.fmt.fd] (opndGrps x.vl os) read) (hscl : x.fmt.scl = 0) (hbad : bad = false)
    (hover : overlap137 s.hart x.cfg [x.grp d x.fmt.fd] (opndGrps x.vl os) = false) :
    (patM h d os bad op x s).Passes s.hart x where
  slots := nodup_crossing (by decide) _ _
  alone := by simp [patM]
  ring := rfl
  bad02 := rfl
  early := rfl
  fits g hg := hruns.fits g (by
    rw [VMeaning.grps] at hg
    exact List.mem_append.mpr (List.mem_append.mp hg).symm)
  bad05 := by simp [patM, hruns.descr, hscl, hbad]
  typed := hruns.typed
  bad04 := hover
  free := by simp [patM]
  late := rfl

/-- One element: the operands that it picks are read as they stood, and the result is rounded. -/
theorem valueElem_ahead {all : List Opnd} {pick : Nat → State → List Opnd} {u : State} {e : Nat}
    (hu : s.hart.Ahead x.cfg (opndGrps x.vl all) e u.hart) (he : e < x.vl) {os : List Opnd} (hpick : pick e u = os)
    (hsub : ∀ g ∈ opndGrps x.vl os, g ∈ opndGrps x.vl all)
    (hclean : s.hart.active h.pm e = true → ∀ g ∈ opndGrps x.vl os, s.hart.elemMarked x.cfg g.base g.w e = false) :
    valueElem h.pm d x pick op e u = .ok (if s.hart.active h.pm e then
      u.modHart (Hart.putRound · x.cfg d.toNat x.fmt e (op (x.fmt.rm == 2) e (os.map fun o => s.valOf x o e))) else u) := by
  rw [valueElem, hu.active]
  split
  case isTrue hact =>
    have hvals : opndVals u.hart x.cfg e os = some (os.map fun o => s.valOf x o e) := by
      rw [opndVals_eq, opndPats_ahead hu he hsub (hclean hact), Option.map_some, List.zipWith_map_right, List.zipWith_self]
      rfl
    rw [hpick, hvals]
    rfl
  case isFalse => rfl

end

end

section
variable {s : State} {h : VHdr} {d r f : BitVec 5} {i : Instr}

/-- A word of the value or the function class completes, its results rounded. -/
theorem valueM_rounds {slot : Slot} (os : Entry → List Opnd) {ok : Nat → Bool} (op : Entry → Bool → Nat → List Val → Val)
    (hi : exec i s = runSingle (fun x s => valueM h slot d (os x) ok (op x) x s) r f s) (hslot : slot ≠ .x) :
    let x := s.capture r f
    let ss := opndGrps x.vl (os x)
    Runs s.hart x h.pm [x.grp d x.fmt.fd] ss (s.reads h.pm ss) → x.fmt.scl = 0 → ok x.fmt.fd = true →
    (∀ o ∈ os x, ok o.fmt = true) → overlap137 s.hart x.cfg [x.grp d x.fmt.fd] ss = false →
    Rounds s (exec i s) x h.pm d fun e => op x (x.fmt.rm == 2) e ((os x).map fun o => s.valOf x o e) := by
  intro x ss hruns hscl hfd hos hover
  have hfits (g : Grp) (hg : g ∈ x.grp d x.fmt.fd :: ss) : g.bad05 s.hart x.cfg = false := (hruns.fits g hg).1
  rw [Rounds, hi]
  refine runSingle_done rfl hruns.on (valueM_passes hruns hslot hscl hfd hos hover) rfl rfl rfl ?_ ?_
    (elems_setElem (d := x.grp d x.fmt.fd) hruns.legal.cpr_pos hfits (fun g hg => grp_width hg) hover
      (fun e l => l.putRound_writes x.cfg d.toNat x.fmt e _) ?_) ?_
  · exact Grp.n_lt hruns.legal (hfits _ List.mem_cons_self) (contWidth_mem _)
  · exact fun e he => markAt_predicated (List.append_nil _).symm rfl (by simp [valueM, pmReads]) fun _ => hruns.free e he
  · exact fun e he u hu => valueElem_ahead hu he rfl (fun g hg => hg) fun hact g hg => hruns.clean e he g (by rw [State.reads, if_pos hact]; exact hg)
  · intro hz
    rw [show x.vl = 0 from hz]
    exact .inr rfl

/-- VSEL completes, the operand that its mask names rounded at each active element. -/
theorem vsel_rounds {a f : BitVec 5} {b : VSrc} {m : BitVec 3} :
    let x := s.capture (srcReg b) f
    let u : Opnd := .vec a.toNat x.fmt.fa
    let v := bOpnd b x x.fmt.fb
    let pick := fun e => if s.hart.maskBit m.toNat e then u else v
    let ss := opndGrps x.vl [u, v]
    Runs s.hart x h.pm [x.grp d x.fmt.fd] ss (fun e => s.reads h.pm (opndGrps x.vl [pick e]) e) → x.fmt.scl = 0 →
    isValue x.fmt.fd = true → isValue x.fmt.fa = true → isValue x.fmt.fb = true →
    overlap137 s.hart x.cfg [x.grp d x.fmt.fd] ss = false →
    (∀ e < x.vl, s.hart.active h.pm e = true → s.hart.maskMarked m.toNat (e / 64) = false) →
    Rounds s (exec (.vsel h d a b m f) s) x h.pm d fun e => s.valOf x (pick e) e := by
  intro x u v pick ss hruns hscl hfd hfa hfb hover hmask
  have hv : v.fmt = x.fmt.fb := by
    cases b <;> rfl
  have hos : ∀ o ∈ [u, v], isValue o.fmt = true := by
    simpa [hv] using ⟨hfa, hfb⟩
  have hfits (g : Grp) (hg : g ∈ x.grp d x.fmt.fd :: ss) : g.bad05 s.hart x.cfg = false := (hruns.fits g hg).1
  have hbase : (valueM h .p d [u, v] isValue (fun _ _ _ => .nan) x s).Passes s.hart x :=
    valueM_passes hruns (by decide) hscl hfd hos hover
  have hpick (e : Nat) : ∀ g ∈ opndGrps x.vl [pick e], g ∈ ss := by
    intro g hg
    simp only [pick] at hg
    rw [show ss = opndGrps x.vl [u] ++ opndGrps x.vl [v] from opndGrps_cons _ _ _]
    split at hg
    · exact List.mem_append_left _ hg
    · exact List.mem_append_right _ hg
  rw [Rounds, show exec (.vsel h d a b m f) s = runSingle (mVsel h d a b m) (srcReg b) f s from rfl]
  refine runSingle_done rfl hruns.on
    ⟨hbase.slots, hbase.alone, hbase.ring, hbase.bad02, hbase.early, hbase.fits, hbase.bad05, hbase.typed, hbase.bad04, hbase.free,
      hbase.late⟩ rfl rfl rfl ?_ ?_
    (elems_setElem (d := x.grp d x.fmt.fd) hruns.legal.cpr_pos hfits (fun g hg => grp_width hg) hover
      (fun e l => l.putRound_writes x.cfg d.toNat x.fmt e _) ?_) ?_
  · exact Grp.n_lt hruns.legal (hfits _ List.mem_cons_self) (contWidth_mem _)
  · exact fun e he => markAt_predicated (rs := [m.toNat]) rfl rfl (hruns.free e he) fun ha => by simpa using hmask e he ha
  · exact fun e he k hk => valueElem_ahead (all := [u, v]) (os := [pick e]) hk he
      (by simp only [pick, Hart.maskBit, Hart.maskChunk, hk.masks]; rfl) (hpick e)
      fun hact g hg => hruns.clean e he g (by rw [State.reads, if_pos hact]; exact hg)
  · intro hz
    rw [show x.vl = 0 from hz]
    exact .inr rfl

/-- One element of a word on patterns: the run of `patM` by element. -/
def patElem (pm : Option (BitVec 3)) (d : BitVec 5) (x : Entry) (os : List Opnd) (op : List Nat → Nat) (e : Nat) (s : State) :
    Except (BitVec 8 × Word × State) State :=
  if s.hart.active pm e then
    match opndPats s.hart x.cfg e os with
    | none => .error (markMet s)
    | some vs => .ok (s.modHart fun k => k.setElem x.cfg d.toNat (contWidth x.fmt.fd) e (op vs))
  else .ok s
theorem patElem_ahead {x : Entry} {os : List Opnd} {op : List Nat → Nat} {u : State} {e : Nat}
    (hu : s.hart.Ahead x.cfg (opndGrps x.vl os) e u.hart) (he : e < x.vl)
    (hclean : s.hart.active h.pm e = true → ∀ g ∈ opndGrps x.vl os, s.hart.elemMarked x.cfg g.base g.w e = false) :
    patElem h.pm d x os op e u = .ok (if s.hart.active h.pm e then
      u.modHart (fun k => k.setElem x.cfg d.toNat (contWidth x.fmt.fd) e (op (os.map fun o => o.readsIn s.hart x.cfg e))) else u) := by
  rw [patElem, hu.active]
  split
  case isTrue hact => rw [opndPats_ahead hu he (fun g hg => hg) (hclean hact)]
  case isFalse => rfl

/-- A word on patterns completes, a pattern written at each active element. -/
theorem patM_puts (os : Entry → List Opnd) {bad : Entry → Bool} (op : Entry → List Nat → Nat)
    (hi : exec i s = runSingle (fun x s => patM h d (os x) (bad x) (op x) x s) r f s) :
    let x := s.capture r f
    let ss := opndGrps x.vl (os x)
    Runs s.hart x h.pm [x.grp d x.fmt.fd] ss (s.reads h.pm ss) → x.fmt.scl = 0 → bad x = false →
    overlap137 s.hart x.cfg [x.grp d x.fmt.fd] ss = false →
    Puts s (exec i s) x h.pm d fun e => op x ((os x).map fun o => o.readsIn s.hart x.cfg e) := by
  intro x ss hruns hscl hbad hover
  have hfits (g : Grp) (hg : g ∈ x.grp d x.fmt.fd :: ss) : g.bad05 s.hart x.cfg = false := (hruns.fits g hg).1
  have hrun : elems (patElem h.pm d x (os x) (op x)) s 0 x.vl = .ok ((List.range x.vl).foldl (fun u e => if s.hart.active h.pm e then
      u.modHart (fun k => k.setElem x.cfg d.toNat (contWidth x.fmt.fd) e (op x ((os x).map fun o => o.readsIn s.hart x.cfg e))) else u) s) :=
    elems_setElem (d := x.grp d x.fmt.fd) hruns.legal.cpr_pos hfits (fun g hg => grp_width hg) hover
      (fun e l => ⟨l, _, rfl, rfl, rfl⟩) fun e he u hu => patElem_ahead hu he fun hact g hg =>
        hruns.clean e he g (by rw [State.reads, if_pos hact]; exact hg)
  rw [Puts, hi]
  refine runSingle_done rfl hruns.on (patM_passes hruns hscl hbad hover) rfl rfl rfl ?_ ?_ hrun ?_
  · exact Grp.n_lt hruns.legal (hfits _ List.mem_cons_self) (contWidth_mem _)
  · exact fun e he => markAt_predicated (List.append_nil _).symm rfl (by simp [patM, pmReads]) fun _ => hruns.free e he
  · intro hz
    rw [show x.vl = 0 from hz]
    exact .inr rfl

end

end Sys2Proof.Machine

/-! SUPPORT. Raw words and shifts (06_varith R143, R144): the arithmetic shift of a pattern, and each form as a word on patterns. -/

namespace Sys2Proof.Machine

/-- The top bit of a pattern tells whether it stands for a negative integer. -/
theorem testBit_top {w p : Nat} (hw : 0 < w) (hp : p < 2 ^ w) : p.testBit (w - 1) = decide (2 ^ (w - 1) ≤ p) := by
  have h2 := Nat.two_pow_pred_mul_two hw
  have hdiv : p / 2 ^ (w - 1) ≤ 1 := by
    rw [← Nat.lt_succ_iff, Nat.div_lt_iff_lt_mul (by positivity)]
    omega
  have hone : p / 2 ^ (w - 1) = 1 ↔ 2 ^ (w - 1) ≤ p := by
    rw [Nat.div_eq_iff (by positivity)]
    omega
  rw [Nat.testBit_eq_decide_div_mod_eq, decide_eq_decide, ← hone, Nat.mod_eq_of_lt (by omega)]

theorem sintOf_eq {w p : Nat} (hw : 0 < w) (hp : p < 2 ^ w) : sintOf w p = p - if p.testBit (w - 1) then 2 ^ w else 0 := by
  rw [testBit_top hw hp]
  simp only [sintOf, Nat.mod_eq_of_lt hp, decide_eq_true_eq]
  split_ifs <;> omega

/-- The arithmetic shift puts copies of the top bit above what is left. -/
theorem sintOf_shift {w p n : Nat} (hp : p < 2 ^ w) (hn : n < w) : (sintOf w p / 2 ^ n % 2 ^ w).toNat
    = p / 2 ^ n + if p.testBit (w - 1) then 2 ^ w - 2 ^ (w - n) else 0 := by
  have hw : 2 ^ w = 2 ^ n * 2 ^ (w - n) := by rw [← pow_add, Nat.add_sub_cancel' hn.le]
  have hq : p / 2 ^ n < 2 ^ (w - n) := by
    rw [Nat.div_lt_iff_lt_mul (by positivity), Nat.mul_comm, ← hw]
    exact hp
  have hle : 2 ^ (w - n) ≤ 2 ^ w := Nat.pow_le_pow_right (by norm_num) (Nat.sub_le _ _)
  have hcast : ((2 ^ w : Nat) : ℤ) = 2 ^ w := by norm_cast
  rw [sintOf_eq (by omega) hp]
  split
  case isTrue =>
    have hdiv : ((p : ℤ) - 2 ^ w) / 2 ^ n = (p / 2 ^ n : Nat) - (2 ^ (w - n) : Nat) := by
      rw [← hcast, hw]
      push_cast
      rw [Int.sub_mul_ediv_left _ _ (by positivity)]
    have hwrap : ((p / 2 ^ n : Nat) : ℤ) - (2 ^ (w - n) : Nat) = (p / 2 ^ n + (2 ^ w - 2 ^ (w - n)) : Nat) + 2 ^ w * (-1) := by
      rw [← hcast]
      push_cast [Nat.cast_sub hle]
      ring
    rw [hdiv, hwrap, Int.add_mul_emod_self_left, ← hcast, ← Int.natCast_mod, Int.toNat_natCast, Nat.mod_eq_of_lt (by omega)]
  case isFalse =>
    rw [sub_zero, ← hcast, show ((2 : ℤ) ^ n) = (2 ^ n : Nat) by norm_cast, ← Int.natCast_div, ← Int.natCast_mod, Int.toNat_natCast,
      Nat.mod_eq_of_lt (by omega), Nat.add_zero]

theorem Puts.congr {s : State} {o : Out} {x : Entry} {pm : Option (BitVec 3)} {d : BitVec 5} {p q : Nat → Nat}
    (h : Puts s o x pm d p) (hpq : ∀ e, p e = q e) : Puts s o x pm d q := funext hpq ▸ h

section
variable {s : State} {h : VHdr} {d a r f : BitVec 5} {b : VSrc} {i : Instr}

/-- A raw word where the containers agree. -/
theorem rawM_puts (os : Entry → List Opnd) (op : Entry → List Nat → Nat)
    (hi : exec i s = runSingle (fun x s => rawM h d (os x) (op x) x s) r f s) :
    let x := s.capture r f
    let ss := opndGrps x.vl (os x)
    Runs s.hart x h.pm [x.grp d x.fmt.fd] ss (s.reads h.pm ss) → x.fmt.scl = 0 →
    overlap137 s.hart x.cfg [x.grp d x.fmt.fd] ss = false → (∀ o ∈ os x, contWidth o.fmt = contWidth x.fmt.fd) →
    Puts s (exec i s) x h.pm d fun e => rawFix x.fmt.fd (op x ((os x).map fun o => o.readsIn s.hart x.cfg e)) := by
  intro x ss hruns hscl hover hw
  have hputs := patM_puts (bad := fun x => (os x).any fun o => contWidth o.fmt != contWidth x.fmt.fd) os
    (fun x vs => rawFix x.fmt.fd (op x vs)) hi
  refine hputs hruns hscl ?_ hover
  simpa using hw

/-- The two operands of a bitwise instruction or a shift. -/
def pairOpnds (a : BitVec 5) (b : VSrc) (x : Entry) : List Opnd := [.vec a.toNat x.fmt.fa, bOpnd b x x.fmt.fb]

theorem bitM_puts {op : Nat → Nat → Nat} (hi : exec i s = runSingle (bitM h d a b op) (srcReg b) f s) :
    let x := s.capture (srcReg b) f
    let ss := opndGrps x.vl (pairOpnds a b x)
    Runs s.hart x h.pm [x.grp d x.fmt.fd] ss (s.reads h.pm ss) → x.fmt.scl = 0 →
    overlap137 s.hart x.cfg [x.grp d x.fmt.fd] ss = false → (∀ o ∈ pairOpnds a b x, contWidth o.fmt = contWidth x.fmt.fd) →
    Puts s (exec i s) x h.pm d fun e => rawFix x.fmt.fd
      (op ((Opnd.vec a.toNat x.fmt.fa).readsIn s.hart x.cfg e) ((bOpnd b x x.fmt.fb).readsIn s.hart x.cfg e)) :=
  fun hruns hscl hover hw => (rawM_puts (pairOpnds a b) _ hi hruns hscl hover hw).congr fun _ => congrArg (rawFix _) rfl

theorem shiftM_puts {op op' : Nat → Nat → Int → Nat} (hi : exec i s = runSingle (shiftM h d a b op) (srcReg b) f s)
    (hop : ∀ w p n, p < 2 ^ w → op w p n = op' w p n) :
    let x := s.capture (srcReg b) f
    let ss := opndGrps x.vl (pairOpnds a b x)
    let w := memWidth x.fmt.fa
    Runs s.hart x h.pm [x.grp d x.fmt.fd] ss (s.reads h.pm ss) → x.fmt.scl = 0 →
    overlap137 s.hart x.cfg [x.grp d x.fmt.fd] ss = false → isInt x.fmt.fa = true → isInt x.fmt.fb = true → isInt x.fmt.fd = true →
    memWidth x.fmt.fd = w → Puts s (exec i s) x h.pm d fun e =>
      op' w ((Opnd.vec a.toNat x.fmt.fa).readsIn s.hart x.cfg e % 2 ^ w) (intValue x.fmt.fb ((bOpnd b x x.fmt.fb).readsIn s.hart x.cfg e)) := by
  intro x ss w hruns hscl hover hfa hfb hfd hw
  have hputs := patM_puts (bad := fun x => !isInt x.fmt.fa || !isInt x.fmt.fb || !isInt x.fmt.fd || memWidth x.fmt.fd != memWidth x.fmt.fa)
    (pairOpnds a b) _ hi
  refine (hputs hruns hscl ?_ hover).congr fun _ => hop _ _ _ (Nat.mod_lt _ (Nat.two_pow_pos _))
  simp only [Bool.or_eq_false_iff, Bool.not_eq_false', bne_eq_false_iff_eq]
  exact ⟨⟨⟨hfa, hfb⟩, hfd⟩, hw⟩

end

end Sys2Proof.Machine

/-! The family 06_varith: O35. Raw words and shifts write patterns. -/

namespace Sys2Proof

open Machine

/-- Settles O35: each word is one on patterns, and each shift is the one of its operation on numbers. -/
theorem rawAndShiftResults : Obligations.RawAndShiftResults := by
  intro s h d a f sr b run raw bit shift
  have shifts (i : Instr) {op : Nat → Nat → Int → Nat} (op' : Nat → Nat → Int → Nat)
      (hi : exec i s = runSingle (shiftM h d a b op) (srcReg b) f s) (hop : ∀ w p n, p < 2 ^ w → op w p n = op' w p n) : shift i op' :=
    fun ⟨hruns, hscl, hover⟩ => shiftM_puts hi hop hruns hscl hover
  refine ⟨?_, ?_, ?_, ?_, ?_, ?_, ?_, ?_⟩
  · exact fun ⟨hruns, hscl, hover⟩ hw => bitM_puts rfl hruns hscl hover hw
  · exact fun ⟨hruns, hscl, hover⟩ hw => bitM_puts rfl hruns hscl hover hw
  · exact fun ⟨hruns, hscl, hover⟩ hw => bitM_puts rfl hruns hscl hover hw
  · have hi : exec (.vmov h d a f) s = runSingle (fun x s => rawM h d [.vec a.toNat x.fmt.fa] (fun vs => vs.headD 0) x s) 0 f s := rfl
    exact fun ⟨hruns, hscl, hover⟩ hw =>
      (rawM_puts (fun x => [.vec a.toNat x.fmt.fa]) (fun _ vs => vs.headD 0) hi hruns hscl hover hw).congr fun _ => congrArg (rawFix _) rfl
  · have hi : exec (.vsplat h d sr f) s = runSingle (fun x s => rawM h d [] (fun _ => x.sval.toNat) x s) sr f s := rfl
    exact fun ⟨hruns, hscl, hover⟩ hw => rawM_puts (fun _ => []) (fun x _ => x.sval.toNat) hi hruns hscl hover hw
  · refine shifts (.vshl h d a b f) (fun w p n => if 0 ≤ n ∧ n < w then p * 2 ^ n.toNat % 2 ^ w else 0) rfl fun w p n _ => ?_
    simp only [Nat.shiftLeft_eq]
  · refine shifts (.vshr h d a b f) (fun w p n => if 0 ≤ n ∧ n < w then p / 2 ^ n.toNat else 0) rfl fun w p n _ => ?_
    simp only [Nat.shiftRight_eq_div_pow]
  · refine shifts (.vshrA h d a b f) (fun w p n =>
      let sign := p.testBit (w - 1)
      if 0 ≤ n ∧ n < w then p / 2 ^ n.toNat + (if sign then 2 ^ w - 2 ^ (w - n.toNat) else 0)
      else if sign then 2 ^ w - 1 else 0) rfl fun w p n hp => ?_
    dsimp only
    split
    case isTrue hn => exact sintOf_shift hp (by omega)
    case isFalse => rfl

end Sys2Proof

/-! SUPPORT. The exact arithmetic of values as that of rational numbers (06_varith R132, R133, R140, R147). -/

namespace Sys2Proof.Machine

/-! ### Reals as rational numbers -/

/-- An exact real: its sign, its number and its power of two. -/
def realOf (z : Bool × Nat × Int) : Val := .num z.1 z.2.1 z.2.2 false

theorem shl_eq (n : Nat) (k : Int) : shl n k = n * 2 ^ k.toNat := Nat.shiftLeft_eq _ _

/-- The units of a real at a power of two that is not above its own. -/
theorem units_mul {s : Bool} {n : Nat} {e e0 : Int} (st : Bool) (h : e0 ≤ e) :
    ((Val.num s n e st).units e0 : ℚ) * 2 ^ e0 = (Val.num s n e st).rat := by
  have hexp : (2 : ℚ) ^ e = 2 ^ (e - e0).toNat * 2 ^ e0 := by
    rw [← zpow_natCast, ← zpow_add₀ (by norm_num), Int.toNat_of_nonneg (by omega), sub_add_cancel]
  simp only [Val.units, Val.rat, shl_eq, hexp]
  cases s <;> push_cast <;> simp <;> ring

theorem rat_of_int {t e : Int} : (Val.num (decide (t < 0)) t.natAbs e false).rat = t * 2 ^ e := by
  have hsign : (if decide (t < 0) = true then (-1 : ℚ) else 1) * (t.natAbs : ℚ) = t := by
    by_cases ht : t < 0
    · have habs : (t.natAbs : ℤ) = -t := by omega
      rw [← Int.cast_natCast, habs]
      simp [ht]
    · have habs : (t.natAbs : ℤ) = t := by omega
      rw [← Int.cast_natCast, habs]
      simp [ht]
  rw [Val.rat, hsign]

@[simp] theorem rat_zero (s : Bool) : (Val.zero s).rat = 0 := by simp [Val.zero, Val.rat]

theorem isZero_num {s : Bool} {n : Nat} {e : Int} : (Val.num s n e false).isZero = decide (n = 0) := by
  cases n <;> rfl

/-! ### The least exponent -/

theorem leastExp_real (l : List (Bool × Nat × Int)) : leastExp (l.map realOf) = l.foldl (fun e z => min e z.2.2) 0 := by
  rw [leastExp, List.foldl_map]
  rfl
theorem leastExp_le {l : List (Bool × Nat × Int)} : ∀ z ∈ l, leastExp (l.map realOf) ≤ z.2.2 := by
  have fold (l : List (Bool × Nat × Int)) : ∀ e0 : Int, l.foldl (fun e z => min e z.2.2) e0 ≤ e0
      ∧ ∀ z ∈ l, l.foldl (fun e z => min e z.2.2) e0 ≤ z.2.2 := by
    induction l with
    | nil => simp
    | cons y l ih =>
      intro e0
      obtain ⟨hle, hall⟩ := ih (min e0 y.2.2)
      refine ⟨hle.trans (min_le_left _ _), fun z hz => ?_⟩
      rcases List.mem_cons.mp hz with rfl | hz
      · exact hle.trans (min_le_right _ _)
      · exact hall z hz
  rw [leastExp_real]
  exact (fold l 0).2

/-! ### Sums (R132, R133) -/

theorem sum_units {l : List (Bool × Nat × Int)} {e0 : Int} (h : ∀ z ∈ l, e0 ≤ z.2.2) :
    (((l.map realOf).foldl (fun a v => a + v.units e0) 0 : Int) : ℚ) * 2 ^ e0 = ((l.map realOf).map Val.rat).sum := by
  have fold (l : List (Bool × Nat × Int)) (h : ∀ z ∈ l, e0 ≤ z.2.2) (a : Int) :
      (((l.map realOf).foldl (fun a v => a + v.units e0) a : Int) : ℚ) * 2 ^ e0 = a * 2 ^ e0 + ((l.map realOf).map Val.rat).sum := by
    induction l generalizing a with
    | nil => simp
    | cons y l ih =>
      have hy : ((realOf y).units e0 : ℚ) * 2 ^ e0 = (realOf y).rat := units_mul false (h y List.mem_cons_self)
      rw [List.map_cons, List.foldl_cons, ih (fun z hz => h z (List.mem_cons_of_mem _ hz)), List.map_cons, List.sum_cons, ← hy]
      push_cast
      ring
  simpa using fold l h 0

theorem any_real {p : Val → Bool} (l : List (Bool × Nat × Int)) (h : ∀ z, p (realOf z) = false) : (l.map realOf).any p = false := by
  simp [h]

/-- The exact sum of reals, with the sign of a zero sum. -/
theorem sumV_real (rdn : Bool) (l : List (Bool × Nat × Int)) : ∃ i k g, sumV rdn (l.map realOf) = .num i k g false
    ∧ (sumV rdn (l.map realOf)).rat = ((l.map realOf).map Val.rat).sum
    ∧ (k = 0 → i = if l.all (fun z => z.2.1 == 0) then (!l.isEmpty && l.all (·.1)) || (rdn && l.any (·.1)) else rdn) := by
  have hzeros : (l.map realOf).all Val.isZero = l.all fun z => z.2.1 == 0 := by
    rw [List.all_map]
    congr 1
    funext z
    exact isZero_num
  have hneg : (l.map realOf).all Val.neg = l.all (·.1) := by rw [List.all_map]; rfl
  have hanyneg : (l.map realOf).any Val.neg = l.any (·.1) := by rw [List.any_map]; rfl
  have hempty : (l.map realOf).isEmpty = l.isEmpty := by cases l <;> rfl
  have hsum := sum_units (leastExp_le (l := l))
  unfold sumV
  rw [any_real l fun _ => rfl, any_real l fun _ => rfl, any_real l fun _ => rfl, hzeros, hneg, hanyneg, hempty]
  simp only [Bool.false_eq_true, false_and, if_false]
  by_cases hz : (l.all fun z => z.2.1 == 0) = true
  · have hnull : ((l.map realOf).map Val.rat).sum = 0 := by
      refine List.sum_eq_zero fun x hx => ?_
      simp only [List.map_map, List.mem_map, Function.comp] at hx
      obtain ⟨z, hmem, rfl⟩ := hx
      have h0 : z.2.1 = 0 := by simpa using List.all_eq_true.mp hz z hmem
      simp [realOf, Val.rat, h0]
    rw [if_pos hz, if_pos hz, hnull]
    refine ⟨_, 0, 0, rfl, rat_zero _, fun _ => ?_⟩
    cases l <;> simp
  · rw [if_neg hz, if_neg hz]
    split
    case isTrue ht =>
      rw [ht] at hsum
      exact ⟨rdn, 0, 0, rfl, by rw [rat_zero, ← hsum]; simp, fun _ => rfl⟩
    case isFalse ht => exact ⟨_, _, _, rfl, by rw [rat_of_int, hsum], fun h0 => absurd (Int.natAbs_eq_zero.mp h0) ht⟩

/-- NaN, or infinities of both signs, make a sum NaN; an infinity of one sign alone is the sum. -/
theorem sumV_special (rdn : Bool) (vs : List Val) : (.nan ∈ vs ∨ (.inf false ∈ vs ∧ .inf true ∈ vs) → sumV rdn vs = .nan)
    ∧ ∀ i, .nan ∉ vs → .inf i ∈ vs → .inf (!i) ∉ vs → sumV rdn vs = .inf i := by
  have hany (v : Val) : (vs.any fun u => u == v) = decide (v ∈ vs) := by
    rw [Bool.eq_iff_iff]
    simp
  unfold sumV
  simp only [hany, decide_eq_true_eq]
  refine ⟨fun h => ?_, fun i hn hi hj => ?_⟩
  · by_cases hn : Val.nan ∈ vs
    · rw [if_pos hn]
    · rw [if_neg hn, if_pos (h.resolve_left hn)]
  · cases i
    · rw [if_neg hn, if_neg fun h => hj h.2, if_pos hi]
    · rw [Bool.not_true] at hj
      rw [if_neg hn, if_neg fun h => hj h.1, if_neg hj, if_pos hi]

/-! ### Products and quotients (R132) -/

theorem mul_real (s : Bool) (n : Nat) (e : Int) (t : Bool) (m : Nat) (f : Int) :
    ((Val.num s n e false).mul (.num t m f false)).rat = (Val.num s n e false).rat * (Val.num t m f false).rat := by
  have hsign : (if (s != t) = true then (-1 : ℚ) else 1) = (if s = true then -1 else 1) * (if t = true then -1 else 1) := by
    cases s <;> cases t <;> norm_num
  simp only [Val.mul, Val.rat, hsign, zpow_add₀ (two_ne_zero' ℚ), Nat.cast_mul]
  ring

theorem abs_rat (s : Bool) (n : Nat) (e : Int) (st : Bool) : |(Val.num s n e st).rat| = n * 2 ^ e := by
  have hsign : |(if s = true then (-1 : ℚ) else 1)| = 1 := by cases s <;> norm_num
  rw [Val.rat, mul_assoc, abs_mul, hsign, one_mul, abs_of_nonneg (by positivity)]

theorem lt_two_pow_bitLen (n : Nat) : n < 2 ^ bitLen n := by
  unfold bitLen
  split
  · simp [*]
  · exact Nat.lt_log2_self

/-- A quotient of numbers and the next one enclose the fraction. -/
theorem div_encloses (a : Nat) {m : Nat} (hm : m ≠ 0) :
    if a % m ≠ 0 then ((a / m : Nat) : ℚ) < a / m ∧ (a : ℚ) / m < (a / m : Nat) + 1 else ((a : ℚ) / m) = (a / m : Nat) := by
  have hm' : (0 : ℚ) < m := by exact_mod_cast Nat.pos_of_ne_zero hm
  have hdiv : (a : ℚ) = m * (a / m : Nat) + (a % m : Nat) := by exact_mod_cast (Nat.div_add_mod a m).symm
  have hmod : ((a % m : Nat) : ℚ) < m := by exact_mod_cast Nat.mod_lt a (Nat.pos_of_ne_zero hm)
  split
  case isTrue h =>
    have hpos : (0 : ℚ) < (a % m : Nat) := by exact_mod_cast Nat.pos_of_ne_zero h
    constructor
    · rw [lt_div_iff₀ hm']
      linarith
    · rw [div_lt_iff₀ hm']
      linarith
  case isFalse h =>
    rw [not_not] at h
    rw [div_eq_iff hm'.ne', hdiv, h]
    push_cast
    ring

/-- The quotient of two reals, exactly or to 400 bits and more. -/
theorem div_real (s : Bool) (n : Nat) (e : Int) (t : Bool) {m : Nat} (f : Int) (hm : m ≠ 0) (hef : e - f ≤ 300) :
    ∃ k g st, (Val.num s n e false).div (.num t m f false) = .num (s != t) k g st
      ∧ Stands k g st |(Val.num s n e false).rat / (Val.num t m f false).rat| := by
  rw [abs_div, abs_rat, abs_rat]
  by_cases hn : n = 0
  · exact ⟨0, 0, false, by simp [Val.div, hm, hn, Val.zero], by simp [Stands, hn]⟩
  refine ⟨(n <<< (400 + bitLen m)) / m, e - f - (400 + bitLen m : Nat), decide ((n <<< (400 + bitLen m)) % m ≠ 0), ?_, ?_⟩
  · rw [Val.div, if_neg hm, if_neg hn]
  generalize hk : 400 + bitLen m = k
  have hquot : (n : ℚ) * 2 ^ e / (m * 2 ^ f) = ((n <<< k : Nat) : ℚ) / m * 2 ^ (e - f - k) := by
    rw [Nat.shiftLeft_eq, zpow_sub₀ (two_ne_zero' ℚ), zpow_sub₀ (two_ne_zero' ℚ), zpow_natCast]
    push_cast
    field_simp
  have hlarge : 2 ^ 64 ≤ (n <<< k) / m := by
    rw [Nat.le_div_iff_mul_le (Nat.pos_of_ne_zero hm), Nat.shiftLeft_eq]
    calc 2 ^ 64 * m ≤ 2 ^ 64 * 2 ^ bitLen m := Nat.mul_le_mul_left _ (lt_two_pow_bitLen m).le
      _ = 2 ^ (64 + bitLen m) := (pow_add 2 64 _).symm
      _ ≤ 2 ^ k := Nat.pow_le_pow_right (by norm_num) (by omega)
      _ ≤ n * 2 ^ k := Nat.le_mul_of_pos_left _ (Nat.pos_of_ne_zero hn)
  have hpow : (0 : ℚ) < 2 ^ (e - f - k) := by positivity
  have hcast : ((m : ℕ) : ℚ) ≠ 0 := by exact_mod_cast hm
  have hbounds := div_encloses (n <<< k) hm
  rw [hquot]
  unfold Stands
  by_cases hrem : (n <<< k) % m ≠ 0
  · rw [if_pos hrem] at hbounds
    rw [if_pos (decide_eq_true hrem)]
    exact ⟨hlarge, by omega, mul_lt_mul_of_pos_right hbounds.1 hpow, mul_lt_mul_of_pos_right hbounds.2 hpow⟩
  · rw [if_neg hrem] at hbounds
    rw [if_neg (by simpa using hrem), hbounds]

/-! ### The order of reals (R140, R147) -/

theorem compare_mul_pos (p q : Int) {c : ℚ} (hc : 0 < c) : compare p q = compare ((p : ℚ) * c) (q * c) := by
  rcases lt_trichotomy p q with h | h | h
  · rw [compare_lt_iff_lt.mpr h, eq_comm, compare_lt_iff_lt]
    exact mul_lt_mul_of_pos_right (by exact_mod_cast h) hc
  · rw [compare_eq_iff_eq.mpr h, eq_comm, compare_eq_iff_eq, h]
  · rw [compare_gt_iff_gt.mpr h, eq_comm, compare_gt_iff_gt]
    exact mul_lt_mul_of_pos_right (by exact_mod_cast h) hc

/-- Reals compare as the rational numbers do. -/
theorem cmpV_real (y z : Bool × Nat × Int) : cmpV (realOf y) (realOf z) = some (compare (realOf y).rat (realOf z).rat) := by
  have hle := leastExp_le (l := [y, z])
  have hy : ((realOf y).units (leastExp ([y, z].map realOf)) : ℚ) * _ = (realOf y).rat := units_mul false (hle y (by simp))
  have hz : ((realOf z).units (leastExp ([y, z].map realOf)) : ℚ) * _ = (realOf z).rat := units_mul false (hle z (by simp))
  rw [← hy, ← hz, ← compare_mul_pos _ _ (by positivity)]
  rfl

theorem rat_eq_zero {s : Bool} {n : Nat} {e : Int} {st : Bool} : (Val.num s n e st).rat = 0 ↔ n = 0 := by
  have hpow : (2 : ℚ) ^ e ≠ 0 := by positivity
  rw [← abs_eq_zero, abs_rat, mul_eq_zero, or_iff_left hpow, Nat.cast_eq_zero]

/-- The lesser and the greater of two reals are those of the rational numbers; of two zeros they have the signs of R140. -/
theorem extremes_real (s : Bool) (n : Nat) (e : Int) (t : Bool) (m : Nat) (f : Int) :
    let u := Val.num s n e false; let v := Val.num t m f false
    ∃ i k g j l o, minV u v = .num i k g false ∧ maxV u v = .num j l o false
      ∧ (minV u v).rat = min u.rat v.rat ∧ (maxV u v).rat = max u.rat v.rat ∧ (n = 0 → m = 0 → i = (s || t) ∧ j = (s && t)) := by
  intro u v
  have hcmp : cmpV u v = some (compare u.rat v.rat) := cmpV_real (s, n, e) (t, m, f)
  have hzeros (hn : n = 0) (hm : m = 0) : u.rat = v.rat := by rw [rat_eq_zero.mpr hn, rat_eq_zero.mpr hm]
  unfold minV maxV
  rw [hcmp]
  rcases lt_trichotomy u.rat v.rat with h | h | h
  · rw [compare_lt_iff_lt.mpr h]
    exact ⟨s, n, e, t, m, f, rfl, rfl, (min_eq_left h.le).symm, (max_eq_right h.le).symm, fun hn hm => absurd (hzeros hn hm) h.ne⟩
  · rw [compare_eq_iff_eq.mpr h]
    by_cases hn : n = 0
    · have hm : m = 0 := rat_eq_zero.mp (h.symm.trans (rat_eq_zero.mpr hn))
      have hboth : (u.isZero && v.isZero) = true := by simp [u, v, isZero_num, hn, hm]
      simp only [hboth, if_true, rat_zero, h, min_self, max_self]
      exact ⟨_, _, _, _, _, _, rfl, rfl, (rat_eq_zero.mpr hm).symm, (rat_eq_zero.mpr hm).symm, fun _ _ => ⟨rfl, rfl⟩⟩
    · have hboth : (u.isZero && v.isZero) = false := by simp [u, isZero_num, hn]
      simp only [hboth, Bool.false_eq_true, if_false, h, min_self, max_self]
      exact ⟨s, n, e, s, n, e, rfl, rfl, trivial, trivial, fun h0 => absurd h0 hn⟩
  · rw [compare_gt_iff_gt.mpr h]
    exact ⟨t, m, f, s, n, e, rfl, rfl, (min_eq_right h.le).symm, (max_eq_left h.le).symm, fun hn hm => absurd (hzeros hn hm) h.ne'⟩

/-- The exact results of the value class. -/
theorem exactResults : ExactResults where
  sum rdn s n e t m f := by
    obtain ⟨i, k, g, hnum, hrat, hsign⟩ := sumV_real rdn [(s, n, e), (t, m, f)]
    refine ⟨i, k, g, hnum, ?_, fun hk => (hsign hk).trans ?_⟩
    · exact hrat.trans (by simp [realOf])
    · simp
  product s n e t m f := ⟨n * m, e + f, rfl, mul_real s n e t m f⟩
  quotient s n e t m f := div_real s n e t f
  extremes := extremes_real
  nan v rdn := by
    have hadd (u w : Val) (h : u = .nan ∨ w = .nan) : u.add rdn w = .nan := (sumV_special rdn [u, w]).1 (.inl (by rcases h with rfl | rfl <;> simp))
    refine ⟨hadd _ _ (.inl rfl), hadd _ _ (.inr rfl), rfl, ?_, rfl, ?_, rfl, ?_, rfl, ?_⟩ <;> cases v <;> rfl
  inf i j rdn s n e := by
    refine ⟨?_, ?_, ?_, rfl, ?_, ?_, rfl, rfl, rfl⟩
    · cases i <;> cases j <;> rfl
    · cases i <;> rfl
    · cases i <;> rfl
    · simp [Val.mul, isZero_num, Val.neg]
    · rw [bne_comm]
      simp [Val.mul, isZero_num, Val.neg]
  byZero s n e t f := rfl

end Sys2Proof.Machine

/-! SUPPORT. The forms of the value and the function class with their operands named (06_varith R139, R142). -/

namespace Sys2Proof.Machine

section
variable {s : State} {h : VHdr} {d a y f : BitVec 5} {b : VSrc} {i : Instr}

theorem Rounds.congr {o : Out} {x : Entry} {pm : Option (BitVec 3)} {v w : Nat → Val} (h : Rounds s o x pm d v) (hvw : ∀ e, v e = w e) :
    Rounds s o x pm d w := funext hvw ▸ h

theorem binM_rounds {slot : Slot} {op : Bool → Val → Val → Val} (hi : exec i s = runSingle (binM h slot d a b op) (srcReg b) f s)
    (hslot : slot ≠ .x) :
    let x := s.capture (srcReg b) f
    let os := pairOpnds a b x
    let ss := opndGrps x.vl os
    Runs s.hart x h.pm [x.grp d x.fmt.fd] ss (s.reads h.pm ss) → x.fmt.scl = 0 → isValue x.fmt.fd = true →
    (∀ o ∈ os, isValue o.fmt = true) → overlap137 s.hart x.cfg [x.grp d x.fmt.fd] ss = false →
    Rounds s (exec i s) x h.pm d fun e =>
      op (x.fmt.rm == 2) (s.valOf x (.vec a.toNat x.fmt.fa) e) (s.valOf x (bOpnd b x x.fmt.fb) e) :=
  fun hruns hscl hfd hos hover => (valueM_rounds (pairOpnds a b) _ hi hslot hruns hscl hfd hos hover).congr fun _ => rfl

/-- The operands of a fused instruction. -/
def fusedOpnds (a : BitVec 5) (b : VSrc) (y : BitVec 5) (x : Entry) : List Opnd :=
  [.vec a.toNat x.fmt.fa, bOpnd b x x.fmt.fb, .vec y.toNat x.fmt.fc]

theorem fmaM_rounds {op : Bool → Val → Val → Val → Val} (hi : exec i s = runSingle (fmaM h d a b y op) (srcReg b) f s) :
    let x := s.capture (srcReg b) f
    let os := fusedOpnds a b y x
    let ss := opndGrps x.vl os
    Runs s.hart x h.pm [x.grp d x.fmt.fd] ss (s.reads h.pm ss) → x.fmt.scl = 0 → isValue x.fmt.fd = true →
    (∀ o ∈ os, isValue o.fmt = true) → overlap137 s.hart x.cfg [x.grp d x.fmt.fd] ss = false →
    Rounds s (exec i s) x h.pm d fun e =>
      op (x.fmt.rm == 2) (s.valOf x (.vec a.toNat x.fmt.fa) e) (s.valOf x (bOpnd b x x.fmt.fb) e) (s.valOf x (.vec y.toNat x.fmt.fc) e) :=
  fun hruns hscl hfd hos hover => (valueM_rounds (fusedOpnds a b y) _ hi (by decide) hruns hscl hfd hos hover).congr fun _ => rfl

theorem unM_rounds {slot : Slot} {ok : Nat → Bool} {op : Val → Val} (hi : exec i s = runSingle (unM h slot d a ok op) 0 f s)
    (hslot : slot ≠ .x) :
    let x := s.capture 0 f
    let os := [Opnd.vec a.toNat x.fmt.fa]
    let ss := opndGrps x.vl os
    Runs s.hart x h.pm [x.grp d x.fmt.fd] ss (s.reads h.pm ss) → x.fmt.scl = 0 → ok x.fmt.fd = true →
    (∀ o ∈ os, ok o.fmt = true) → overlap137 s.hart x.cfg [x.grp d x.fmt.fd] ss = false →
    Rounds s (exec i s) x h.pm d fun e => op (s.valOf x (.vec a.toNat x.fmt.fa) e) :=
  fun hruns hscl hfd hos hover =>
    (valueM_rounds (fun x => [.vec a.toNat x.fmt.fa]) _ hi hslot hruns hscl hfd hos hover).congr fun _ => rfl

end

end Sys2Proof.Machine

/-! The family 06_varith: O32. Each word of the value class rounds its operation on the operands' values. -/

namespace Sys2Proof

open Machine

/-- Settles O32: exact arithmetic on values is that of the rational numbers, and each word rounds its operation element by element. -/
theorem valueClassResults : Obligations.ValueClassResults := by
  refine ⟨exactResults, ?_⟩
  intro s h d a y f b z m sr one two three un
  have clampRounds : one (.vclamp h d a z f) (clampReg z) (fun x => .vec a.toNat x.fmt.fa :: clampOpnds z x)
      (fun _ vs _ => minV (maxV (vs.getD 0 .nan) (vs.getD 1 .nan)) (vs.getD 2 .nan)) := by
    have hi : exec (.vclamp h d a z f) s = runSingle (mVclamp h d a z) (clampReg z) f s := rfl
    refine fun hruns hscl hfd hos hover => (valueM_rounds (fun x => .vec a.toNat x.fmt.fa :: clampOpnds z x) _ hi (by decide)
      hruns hscl hfd hos hover).congr fun _ => ?_
    cases z <;> rfl
  have indexRounds : one (.vindex h d sr f) sr (fun _ => []) (fun x _ e => Val.add (x.fmt.rm == 2) (.ofInt x.sval.toInt) (.ofInt e)) :=
    fun hruns hscl hfd hos hover =>
    valueM_rounds (fun _ => []) (fun x rdn e _ => Val.add rdn (.ofInt x.sval.toInt) (.ofInt e)) rfl (by decide) hruns hscl hfd hos hover
  have twos (i : Instr) {slot : Slot} (op : Bool → Val → Val → Val) (hi : exec i s = runSingle (binM h slot d a b op) (srcReg b) f s)
      (hslot : slot ≠ .x) : two i op := binM_rounds hi hslot
  have threes (i : Instr) (op : Bool → Val → Val → Val → Val) (hi : exec i s = runSingle (fmaM h d a b y op) (srcReg b) f s) :
      three i op := fmaM_rounds hi
  refine ⟨?_, ?_, ?_, ?_, ?_, ?_, ?_, ?_, ?_, unM_rounds rfl (by decide), unM_rounds rfl (by decide), clampRounds, indexRounds, vsel_rounds⟩
  · exact twos (.vadd h d a b f) (fun rdn u v => u.add rdn v) rfl (by decide)
  · exact twos (.vsub h d a b f) (fun rdn u v => u.add rdn v.negate) rfl (by decide)
  · exact twos (.vmul h d a b f) (fun _ u v => u.mul v) rfl (by decide)
  · exact twos (.vdiv h d a b f) (fun _ u v => u.div v) rfl (by decide)
  · exact twos (.vmin h d a b f) (fun _ u v => minV u v) rfl (by decide)
  · exact twos (.vmax h d a b f) (fun _ u v => maxV u v) rfl (by decide)
  · exact threes (.vfma h d a b y f) (fun rdn u v w => (u.mul v).add rdn w) rfl
  · exact threes (.vfms h d a b y f) (fun rdn u v w => (u.mul v).add rdn w.negate) rfl
  · exact threes (.vfnma h d a b y f) (fun rdn u v w => w.add rdn (u.mul v).negate) rfl

end Sys2Proof

/-! SUPPORT. The functions of 06_varith R142: the integer square root, square roots of reals, and where 2^x and log2 x are exact. -/

namespace Sys2Proof.Machine

/-! ### The integer square root -/

theorem isqrtFrom_spec {n : Nat} (b : Nat) : ∀ r, r * r ≤ n → n < (r + 2 ^ (b + 1)) * (r + 2 ^ (b + 1)) →
    isqrtFrom n b r * isqrtFrom n b r ≤ n ∧ n < (isqrtFrom n b r + 1) * (isqrtFrom n b r + 1) := by
  induction b with
  | zero =>
    intro r hle hlt
    unfold isqrtFrom
    split
    · exact ⟨‹_›, hlt⟩
    · exact ⟨hle, by omega⟩
  | succ b ih =>
    intro r hle hlt
    unfold isqrtFrom
    dsimp only
    split
    · refine ih _ ‹_› ?_
      rwa [show r + 2 ^ (b + 1) + 2 ^ (b + 1) = r + 2 ^ (b + 1 + 1) by rw [pow_succ 2 (b + 1)]; omega]
    · exact ih _ hle (by omega)

theorem isqrt_eq_sqrt (n : Nat) : isqrt n = Nat.sqrt n := by
  refine Nat.eq_sqrt.mpr (isqrtFrom_spec (bitLen n / 2) 0 (Nat.zero_le n) ?_)
  calc n < 2 ^ bitLen n := lt_two_pow_bitLen n
    _ ≤ 2 ^ (2 * (bitLen n / 2 + 1)) := Nat.pow_le_pow_right (by norm_num) (by omega)
    _ = _ := by rw [Nat.zero_add, Nat.two_mul, pow_add]

/-! ### Square roots (R142) -/

theorem sq_mul_zpow (c : ℚ) {g i : Int} (h : 2 * g = i) : (c * 2 ^ g) ^ 2 = c ^ 2 * 2 ^ i := by
  rw [mul_pow, ← h, ← zpow_natCast ((2 : ℚ) ^ g), ← zpow_mul, mul_comm g]
  rfl

theorem sqrt_real {n : Nat} (e : Int) (hn : n ≠ 0) : ∃ k g st, (Val.num false n e false).sqrt = .num false k g st ∧ 2 ^ 64 ≤ k
    ∧ let a : ℚ := n * 2 ^ e
      if st then ((k : ℚ) * 2 ^ g) ^ 2 < a ∧ a < (((k : ℚ) + 1) * 2 ^ g) ^ 2 else a = ((k : ℚ) * 2 ^ g) ^ 2 := by
  generalize hk : 600 + (e % 2).toNat = k
  generalize hx : n <<< k = x
  have hnum : (Val.num false n e false).sqrt = .num false x.sqrt ((e - k) / 2) (decide (x.sqrt * x.sqrt ≠ x)) := by
    rw [Val.sqrt, if_neg hn, if_neg Bool.false_ne_true]
    simp only [hk, hx, isqrt_eq_sqrt]
  have heven : 2 * ((e - k) / 2) = e - k := by omega
  have ha : (n : ℚ) * 2 ^ e = x * 2 ^ (e - k) := by
    rw [← hx, Nat.shiftLeft_eq, zpow_sub₀ (two_ne_zero' ℚ), zpow_natCast]
    push_cast
    field_simp
  have hlarge : 2 ^ 64 ≤ x.sqrt := by
    rw [Nat.le_sqrt, ← hx, Nat.shiftLeft_eq, ← pow_add]
    exact (Nat.pow_le_pow_right (by norm_num) (by omega)).trans (Nat.le_mul_of_pos_left _ (Nat.pos_of_ne_zero hn))
  have hpow : (0 : ℚ) < 2 ^ (e - k) := by positivity
  refine ⟨_, _, _, hnum, hlarge, ?_⟩
  dsimp only
  rw [sq_mul_zpow _ heven, sq_mul_zpow _ heven, ha]
  split
  case isTrue hst =>
    have hlt : x.sqrt ^ 2 < x := lt_of_le_of_ne (Nat.sqrt_le' x) (by rw [sq]; exact of_decide_eq_true hst)
    exact ⟨mul_lt_mul_of_pos_right (by exact_mod_cast hlt) hpow, mul_lt_mul_of_pos_right (by exact_mod_cast Nat.lt_succ_sqrt' x) hpow⟩
  case isFalse hst =>
    have heq : x.sqrt ^ 2 = x := by simpa [sq] using hst
    congr 1
    exact_mod_cast heq.symm

theorem rsqrt_real {n : Nat} (e : Int) (hn : n ≠ 0) : ∃ k g st, (Val.num false n e false).rsqrt = .num false k g st ∧ 2 ^ 64 ≤ k
    ∧ let a : ℚ := n * 2 ^ e
      if st then a * ((k : ℚ) * 2 ^ g) ^ 2 < 1 ∧ 1 < a * (((k : ℚ) + 1) * 2 ^ g) ^ 2 else a * ((k : ℚ) * 2 ^ g) ^ 2 = 1 := by
  generalize hk : 800 + bitLen n + ((e + (800 + bitLen n : Nat)) % 2).toNat = k
  generalize hq : Nat.sqrt (2 ^ k / n) = q
  have hnum : (Val.num false n e false).rsqrt = .num false q ((-e - k) / 2) (decide (q * q * n ≠ 2 ^ k)) := by
    rw [Val.rsqrt, if_neg hn, if_neg Bool.false_ne_true]
    simp only [hk, hq, isqrt_eq_sqrt]
  have heven : 2 * ((-e - k) / 2) = -e - k := by omega
  have ha (c : ℚ) : (n : ℚ) * 2 ^ e * (c * 2 ^ ((-e - k) / 2)) ^ 2 = c ^ 2 * n / 2 ^ k := by
    rw [sq_mul_zpow _ heven, zpow_sub₀ (two_ne_zero' ℚ), zpow_neg, zpow_natCast]
    field_simp
  have hlarge : 2 ^ 64 ≤ q := by
    rw [← hq, Nat.le_sqrt, Nat.le_div_iff_mul_le (Nat.pos_of_ne_zero hn), ← pow_add]
    calc 2 ^ (64 + 64) * n ≤ 2 ^ (64 + 64) * 2 ^ bitLen n := Nat.mul_le_mul_left _ (lt_two_pow_bitLen n).le
      _ = 2 ^ (64 + 64 + bitLen n) := (pow_add 2 _ _).symm
      _ ≤ 2 ^ k := Nat.pow_le_pow_right (by norm_num) (by omega)
  have hle : q ^ 2 * n ≤ 2 ^ k := by
    rw [← Nat.le_div_iff_mul_le (Nat.pos_of_ne_zero hn), ← hq]
    exact Nat.sqrt_le' _
  have hlt : 2 ^ k < (q + 1) ^ 2 * n := by
    rw [← Nat.div_lt_iff_lt_mul (Nat.pos_of_ne_zero hn), ← hq]
    exact Nat.lt_succ_sqrt' _
  have hpow : (0 : ℚ) < 2 ^ k := by positivity
  refine ⟨_, _, _, hnum, hlarge, ?_⟩
  dsimp only
  rw [ha, ha]
  split
  case isTrue hst =>
    have hne : q ^ 2 * n < 2 ^ k := lt_of_le_of_ne hle (by rw [sq]; exact of_decide_eq_true hst)
    rw [div_lt_one hpow, one_lt_div hpow]
    exact ⟨by exact_mod_cast hne, by exact_mod_cast hlt⟩
  case isFalse hst =>
    have heq : q ^ 2 * n = 2 ^ k := by simpa [sq] using hst
    rw [div_eq_one_iff_eq hpow.ne']
    exact_mod_cast heq

/-! ### Powers and logarithms (R142) -/

/-- The magnitude of a real that is an integer, with its sign. -/
theorem signed_magnitude {s : Bool} {n m : Nat} {e i : Int} (hm : (m : ℚ) = n * 2 ^ e) (hi : (Val.num s n e false).rat = i) :
    (if s then -(m : Int) else m) = i := by
  have hcast : ((if s then -(m : Int) else m : Int) : ℚ) = i := by
    rw [← hi, Val.rat, mul_assoc, ← hm]
    cases s <;> simp
  exact_mod_cast hcast

/-- A number times a power of two that is a natural number. -/
theorem mul_zpow_eq_natCast {n m : Nat} {e : Int} (h : (n : ℚ) * 2 ^ e = m) :
    if 0 ≤ e then n * 2 ^ e.toNat = m else n = m * 2 ^ (-e).toNat := by
  split
  case isTrue he =>
    rw [← Int.toNat_of_nonneg he, zpow_natCast] at h
    exact_mod_cast h
  case isFalse he =>
    have hexp : (2 : ℚ) ^ e = (2 ^ (-e).toNat)⁻¹ := by
      rw [← zpow_natCast, Int.toNat_of_nonneg (by omega), zpow_neg, inv_inv]
    rw [hexp, mul_inv_eq_iff_eq_mul₀ (by positivity)] at h
    exact_mod_cast h

/-- 2^x of an integer is the power of two. -/
theorem exp2_integer {s : Bool} {n : Nat} {e i : Int} (hle : |i| ≤ 1000) (hi : (Val.num s n e false).rat = i) :
    (Val.num s n e false).exp2 = .num false 1 i false := by
  obtain ⟨hlo, hhi⟩ := abs_le.mp hle
  by_cases hn : n = 0
  · have h0 : i = 0 := by
      rw [rat_eq_zero.mpr hn] at hi
      exact_mod_cast hi.symm
    rw [Val.exp2, if_pos hn, h0]
  have hmag : (n : ℚ) * 2 ^ e = i.natAbs := by
    rw [← abs_rat s n e false, hi, Nat.cast_natAbs, Int.cast_abs]
  have hmul := mul_zpow_eq_natCast hmag
  have hint : (0 ≤ e ∨ n % 2 ^ (-e).toNat = 0) ∧ (if 0 ≤ e then (shl n (min e 2000) : Int) else (n >>> (-e).toNat : Nat)) = i.natAbs := by
    by_cases he : 0 ≤ e
    · rw [if_pos he] at hmul
      have hsmall : 2 ^ e.toNat < 2 ^ 10 :=
        calc 2 ^ e.toNat ≤ n * 2 ^ e.toNat := Nat.le_mul_of_pos_left _ (Nat.pos_of_ne_zero hn)
          _ < 2 ^ 10 := by omega
      have hexp := (Nat.pow_lt_pow_iff_right (by norm_num)).mp hsmall
      rw [if_pos he, min_eq_left (by omega), shl_eq, hmul]
      exact ⟨.inl he, rfl⟩
    · rw [if_neg he] at hmul
      rw [if_neg he, Nat.shiftRight_eq_div_pow, hmul, Nat.mul_div_cancel _ (Nat.two_pow_pos _)]
      exact ⟨.inr (Nat.mul_mod_left _ _), rfl⟩
  obtain ⟨hwhole, hint⟩ := hint
  have hsign := signed_magnitude hmag.symm hi
  rw [Val.exp2, if_neg hn, if_pos hwhole]
  simp only [hint, hsign]
  rw [if_neg (by omega), if_neg (by omega)]

theorem log2_two_pow (b : Nat) (e : Int) : (Val.num false (2 ^ b) e false).log2 = .ofInt (e + b) := by
  have hn : 2 ^ b ≠ 0 := (Nat.two_pow_pos b).ne'
  have hb : bitLen (2 ^ b) - 1 = b := by rw [bitLen, if_neg hn, Nat.log2_two_pow, Nat.add_sub_cancel]
  rw [Val.log2, if_neg hn, if_neg Bool.false_ne_true]
  simp only [hb, if_true]

theorem exactFunctions : ExactFunctions where
  root n e hn := sqrt_real e hn
  recip v := rfl
  rroot n e hn := rsqrt_real e hn
  power s n e i := exp2_integer
  log := log2_two_pow
  zero s e := ⟨rfl, by cases s <;> rfl, rfl, rfl, rfl⟩
  less n e hn := ⟨if_neg hn, if_neg hn, if_neg hn⟩
  nan := ⟨rfl, rfl, rfl, rfl, rfl⟩
  up := ⟨rfl, rfl, rfl, rfl, rfl⟩
  down := ⟨rfl, rfl, rfl, rfl, rfl⟩

end Sys2Proof.Machine

/-! The family 06_varith: O33. Each word of the function class rounds its function of the operand's value, and VCVT the value. -/

namespace Sys2Proof

open Machine

/-- Settles O33, from the square root of integers and the exact powers and logarithms. -/
theorem functionAndConversionResults : Obligations.FunctionAndConversionResults := by
  refine ⟨exactFunctions, ?_⟩
  intro s h d a f x o ds ss hruns hscl hover
  have hcodes : x.fmt.fa ≤ 0x14 ∧ x.fmt.fd ≤ 0x14 := by
    have hdescr := hruns.descr
    simp only [descrReserved, Bool.or_eq_false_iff, decide_eq_false_iff_not, not_lt, gt_iff_lt] at hdescr
    exact ⟨hdescr.1.1.1.2, hdescr.2⟩
  have uns {i : Instr} {slot : Slot} {ok : Nat → Bool} {op : Val → Val} (hi : exec i s = runSingle (unM h slot d a ok op) 0 f s)
      (hslot : slot ≠ .x) (hfa : ok x.fmt.fa = true) (hfd : ok x.fmt.fd = true) :
      Rounds s (exec i s) x h.pm d fun e => op (s.valOf x o e) :=
    unM_rounds hi hslot hruns hscl hfd (fun p hp => by rw [List.mem_singleton.mp hp]; exact hfa) hover
  refine ⟨uns (op := id) rfl (by decide) (decide_eq_true hcodes.1) (decide_eq_true hcodes.2), fun hfa hfd => ?_⟩
  have hfa : isFunc x.fmt.fa = true := decide_eq_true hfa
  have hfd : isFunc x.fmt.fd = true := decide_eq_true hfd
  exact ⟨uns rfl (by decide) hfa hfd, uns rfl (by decide) hfa hfd, uns rfl (by decide) hfa hfd, uns rfl (by decide) hfa hfd,
    uns rfl (by decide) hfa hfd⟩

end Sys2Proof

/-! SUPPORT. What reductions are made of (06_varith R132, R140, R150, R152): extremes of many values, the bounds of a format, and a
pattern as a scalar. -/

namespace Sys2Proof.Machine

/-! ### Extremes of many values -/

/-- A fold of an operation that answers reals for reals. -/
theorem foldl_real {F : Val → Val → Val} {R : ℚ → ℚ → ℚ}
    (hF : ∀ y z, ∃ w, F (realOf y) (realOf z) = realOf w ∧ (realOf w).rat = R (realOf y).rat (realOf z).rat)
    (l : List (Bool × Nat × Int)) : ∀ z, ∃ w, (l.map realOf).foldl F (realOf z) = realOf w
      ∧ (realOf w).rat = ((l.map realOf).map Val.rat).foldl R (realOf z).rat := by
  induction l with
  | nil => exact fun z => ⟨z, rfl, rfl⟩
  | cons y l ih =>
    intro z
    obtain ⟨w, hw, hrat⟩ := hF z y
    obtain ⟨v, hv, hvrat⟩ := ih w
    refine ⟨v, ?_, ?_⟩
    · rw [List.map_cons, List.foldl_cons, hw, hv]
    · rw [List.map_cons, List.map_cons, List.foldl_cons, ← hrat, hvrat]

theorem maxV_real (y z : Bool × Nat × Int) : ∃ w, maxV (realOf y) (realOf z) = realOf w
    ∧ (realOf w).rat = max (realOf y).rat (realOf z).rat := by
  obtain ⟨-, -, -, j, l, o, -, hmax, -, hrat, -⟩ := extremes_real y.1 y.2.1 y.2.2 z.1 z.2.1 z.2.2
  rw [hmax] at hrat
  exact ⟨(j, l, o), hmax, hrat⟩
theorem minV_real (y z : Bool × Nat × Int) : ∃ w, minV (realOf y) (realOf z) = realOf w
    ∧ (realOf w).rat = min (realOf y).rat (realOf z).rat := by
  obtain ⟨i, k, g, -, -, -, hmin, -, hrat, -, -⟩ := extremes_real y.1 y.2.1 y.2.2 z.1 z.2.1 z.2.2
  rw [hmin] at hrat
  exact ⟨(i, k, g), hmin, hrat⟩

/-- A value that absorbs every value of a kind that the operation keeps absorbs those of a list. -/
theorem foldl_absorbs {F : Val → Val → Val} {P : Val → Prop} {c : Val} (hP : ∀ u v, P u → P v → P (F u v)) (hl : ∀ v, P v → F c v = c)
    (hr : ∀ v, P v → F v c = c) (vs : List Val) : ∀ u, (∀ v ∈ u :: vs, P v) → c ∈ u :: vs → vs.foldl F u = c := by
  induction vs with
  | nil => exact fun u _ hc => (List.mem_singleton.mp hc).symm
  | cons v vs ih =>
    intro u hall hc
    have hu := hall u List.mem_cons_self
    have hv := hall v (by simp)
    refine ih (F u v) (fun w hw => ?_) ?_
    · rcases List.mem_cons.mp hw with rfl | hw
      · exact hP u v hu hv
      · exact hall w (by simp [hw])
    · rcases List.mem_cons.mp hc with rfl | hc
      · rw [hl v hv]
        exact List.mem_cons_self
      · rcases List.mem_cons.mp hc with rfl | hc
        · rw [hr u hu]
          exact List.mem_cons_self
        · exact List.mem_cons_of_mem _ hc

theorem cmpV_isSome {u v : Val} (hu : u ≠ .nan) (hv : v ≠ .nan) : ∃ o, cmpV u v = some o := by
  cases u with
  | nan => exact absurd rfl hu
  | inf s => cases v with
    | nan => exact absurd rfl hv
    | inf t => exact ⟨_, rfl⟩
    | num t m f st => exact ⟨_, rfl⟩
  | num s n e st => cases v with
    | nan => exact absurd rfl hv
    | inf t => exact ⟨_, rfl⟩
    | num t m f st' => exact ⟨_, rfl⟩

/-- An extreme is one of the two values, or a zero. -/
theorem extremes_cases {u v : Val} (hu : u ≠ .nan) (hv : v ≠ .nan) :
    (maxV u v = u ∨ maxV u v = v ∨ ∃ s, maxV u v = .zero s) ∧ (minV u v = u ∨ minV u v = v ∨ ∃ s, minV u v = .zero s) := by
  obtain ⟨o, ho⟩ := cmpV_isSome hu hv
  unfold maxV minV
  rw [ho]
  cases o with
  | lt => exact ⟨.inr (.inl rfl), .inl rfl⟩
  | gt => exact ⟨.inl rfl, .inr (.inl rfl)⟩
  | eq =>
    dsimp only
    split
    · exact ⟨.inr (.inr ⟨_, rfl⟩), .inr (.inr ⟨_, rfl⟩)⟩
    · exact ⟨.inl rfl, .inl rfl⟩

theorem maxV_ne_nan (u v : Val) (hu : u ≠ .nan) (hv : v ≠ .nan) : maxV u v ≠ .nan := by
  obtain ⟨h | h | ⟨s, h⟩, -⟩ := extremes_cases hu hv <;> rw [h]
  · exact hu
  · exact hv
  · exact Val.noConfusion
theorem minV_ne_nan (u v : Val) (hu : u ≠ .nan) (hv : v ≠ .nan) : minV u v ≠ .nan := by
  obtain ⟨-, h | h | ⟨s, h⟩⟩ := extremes_cases hu hv <;> rw [h]
  · exact hu
  · exact hv
  · exact Val.noConfusion

/-- +infinity is above every other value, and -infinity below. -/
theorem maxV_inf {v : Val} (hv : v ≠ .nan) : maxV (.inf false) v = .inf false ∧ maxV v (.inf false) = .inf false := by
  cases v with
  | nan => exact absurd rfl hv
  | inf s => cases s <;> exact ⟨rfl, rfl⟩
  | num s n e st => exact ⟨rfl, rfl⟩
theorem minV_inf {v : Val} (hv : v ≠ .nan) : minV (.inf true) v = .inf true ∧ minV v (.inf true) = .inf true := by
  cases v with
  | nan => exact absurd rfl hv
  | inf s => cases s <;> exact ⟨rfl, rfl⟩
  | num s n e st => exact ⟨rfl, rfl⟩
theorem extremes_nan (v : Val) : maxV .nan v = .nan ∧ maxV v .nan = .nan ∧ minV .nan v = .nan ∧ minV v .nan = .nan := by
  cases v <;> exact ⟨rfl, rfl, rfl, rfl⟩

/-- NaN and infinities in the extremes of many values. -/
theorem extremes_bounds (u : Val) (vs : List Val) : (.nan ∈ u :: vs → vs.foldl maxV u = .nan ∧ vs.foldl minV u = .nan)
    ∧ (.nan ∉ u :: vs → .inf false ∈ u :: vs → vs.foldl maxV u = .inf false)
    ∧ (.nan ∉ u :: vs → .inf true ∈ u :: vs → vs.foldl minV u = .inf true) := by
  have hne (hn : Val.nan ∉ u :: vs) (v : Val) (hv : v ∈ u :: vs) : v ≠ .nan := fun h => hn (h ▸ hv)
  refine ⟨fun hn => ⟨?_, ?_⟩, fun hn hi => ?_, fun hn hi => ?_⟩
  · exact foldl_absorbs (P := fun _ => True) (fun _ _ _ _ => trivial) (fun v _ => (extremes_nan v).1) (fun v _ => (extremes_nan v).2.1)
      vs u (fun _ _ => trivial) hn
  · exact foldl_absorbs (P := fun _ => True) (fun _ _ _ _ => trivial) (fun v _ => (extremes_nan v).2.2.1)
      (fun v _ => (extremes_nan v).2.2.2) vs u (fun _ _ => trivial) hn
  · exact foldl_absorbs (P := (· ≠ .nan)) maxV_ne_nan (fun _ hv => (maxV_inf hv).1) (fun _ hv => (maxV_inf hv).2) vs u (hne hn) hi
  · exact foldl_absorbs (P := (· ≠ .nan)) minV_ne_nan (fun _ hv => (minV_inf hv).1) (fun _ hv => (minV_inf hv).2) vs u (hne hn) hi

/-! ### The bounds of a format without infinities (R150) -/

/-- A value is an exact real. -/
def Val.isReal : Val → Bool
  | .num _ _ _ false => true
  | _ => false

theorem Val.exists_real {v : Val} (h : v.isReal = true) : ∃ z, v = realOf z := by
  cases v with
  | nan => cases h
  | inf s => cases h
  | num s n e st => cases st with
    | true => cases h
    | false => exact ⟨(s, n, e), rfl⟩

/-- Two values are reals, the first not above the second. -/
def Val.notAbove (u v : Val) : Bool := u.isReal && v.isReal && cmpV u v != some .gt

theorem Val.rat_le_of_notAbove {u v : Val} (h : u.notAbove v = true) : u.rat ≤ v.rat := by
  simp only [Val.notAbove, Bool.and_eq_true, bne_iff_ne] at h
  obtain ⟨⟨hu, hv⟩, hcmp⟩ := h
  obtain ⟨y, rfl⟩ := Val.exists_real hu
  obtain ⟨z, rfl⟩ := Val.exists_real hv
  rw [cmpV_real] at hcmp
  by_contra hlt
  exact hcmp (congrArg some (compare_gt_iff_gt.mpr (not_le.mp hlt)))

/-- The small formats without infinities, pattern by pattern: the floating ones, TERN and BIN1. -/
theorem small_bounds : ∀ f ∈ [5, 6, 7, 8, 0x0E, 0x0F], ∀ p < 2 ^ memWidth f, value f p ≠ .nan →
    (value f (extreme f true)).notAbove (value f p) = true ∧ (value f p).notAbove (value f (extreme f false)) = true := by
  decide +kernel

theorem rat_ofInt (i : Int) : (Val.ofInt i).rat = i := by
  rw [Val.ofInt, rat_of_int, zpow_zero, mul_one]

/-- The least and the greatest integer of a width. -/
def intLeast (w : Nat) (sg : Bool) : Int := if sg then -2 ^ (w - 1) else 0
def intMost (w : Nat) (sg : Bool) : Int := if sg then 2 ^ (w - 1) - 1 else 2 ^ w - 1

theorem int_extremes : ∀ z ∈ intShapes, 0 < z.2.1 ∧ value z.1 (extreme z.1 true) = .ofInt (intLeast z.2.1 z.2.2)
    ∧ value z.1 (extreme z.1 false) = .ofInt (intMost z.2.1 z.2.2) := by
  decide +kernel

theorem value_int (z : Nat × Nat × Bool) (hz : z ∈ intShapes) (p : Nat) :
    value z.1 p = .ofInt (if z.2.2 then sintOf z.2.1 p else (p % 2 ^ z.2.1 : Nat)) := by
  obtain ⟨f, w, sg⟩ := z
  obtain ⟨hfloat, hint⟩ := intFmt_of_mem _ hz
  unfold value
  rw [hfloat, hint]
  cases sg <;> rfl

theorem int_bounds {w : Nat} (hw : 0 < w) (sg : Bool) (p : Nat) :
    intLeast w sg ≤ (if sg then sintOf w p else (p % 2 ^ w : Nat)) ∧ (if sg then sintOf w p else (p % 2 ^ w : Nat)) ≤ intMost w sg := by
  have hp : p % 2 ^ w < 2 ^ w := Nat.mod_lt _ (by positivity)
  have h2 := Nat.two_pow_pred_mul_two hw
  have hcast : (2 : ℤ) ^ w = (2 ^ w : Nat) := by norm_cast
  have hcast' : (2 : ℤ) ^ (w - 1) = (2 ^ (w - 1) : Nat) := by norm_cast
  cases sg
  · simp only [intLeast, intMost, Bool.false_eq_true, if_false, hcast]
    omega
  · simp only [intLeast, intMost, if_true, sintOf, hcast, hcast']
    split <;> omega

/-- The formats without infinities are the small ones and the integers. -/
theorem formats_without_inf : ∀ f ≤ 0x13, 5 ≤ f → f ∈ [5, 6, 7, 8, 0x0E, 0x0F] ∨ ∃ z ∈ intShapes, z.1 = f := by decide

theorem extreme_bounds {f : Nat} (h5 : 5 ≤ f) (hf : f ≤ 0x13) {p : Nat} (hp : p < 2 ^ memWidth f) (hnan : value f p ≠ .nan) :
    (value f (extreme f true)).rat ≤ (value f p).rat ∧ (value f p).rat ≤ (value f (extreme f false)).rat := by
  rcases formats_without_inf f hf h5 with hsmall | ⟨z, hz, rfl⟩
  · obtain ⟨hlo, hhi⟩ := small_bounds f hsmall p hp hnan
    exact ⟨Val.rat_le_of_notAbove hlo, Val.rat_le_of_notAbove hhi⟩
  · obtain ⟨hw, hleast, hmost⟩ := int_extremes z hz
    obtain ⟨hlo, hhi⟩ := int_bounds hw z.2.2 p
    rw [hleast, hmost, value_int z hz, rat_ofInt, rat_ofInt, rat_ofInt]
    exact ⟨by exact_mod_cast hlo, by exact_mod_cast hhi⟩

/-! ### A pattern as a scalar (R152) -/

/-- The signed formats of R65 are the model's, with their widths. -/
theorem signedFormats_lookup : ∀ f ≤ 0x13, (signedFormats.lookup f).map (·, true) = (intFmt f).filter (·.2)
    ∧ ∀ w ∈ signedFormats.lookup f, memWidth f = w := by
  decide

theorem redScalar_eq {f : Nat} (hf : f ≤ 0x13) {p : Nat} (hp : p < 2 ^ memWidth f) : redScalar f p = match signedFormats.lookup f with
    | some w => BitVec.ofInt 64 (if p < 2 ^ (w - 1) then (p : Int) else p - 2 ^ w)
    | none => BitVec.ofNat 64 p := by
  obtain ⟨hfilter, hwidth⟩ := signedFormats_lookup f hf
  cases hlookup : signedFormats.lookup f with
  | some w =>
    rw [hlookup, Option.map_some, eq_comm, Option.filter_eq_some_iff] at hfilter
    rw [hwidth w hlookup] at hp
    simp only [redScalar, hfilter.1, sintOf, Nat.mod_eq_of_lt hp]
  | none =>
    rw [hlookup, Option.map_none, eq_comm, Option.filter_eq_none_iff] at hfilter
    unfold redScalar
    split
    · next hint => exact absurd rfl (hfilter _ hint)
    · rfl

theorem reductionParts : ReductionParts where
  sum rdn l := sumV_real rdn l
  special := sumV_special
  greatest z l := by
    obtain ⟨v, hv, hvrat⟩ := foldl_real maxV_real l z
    obtain ⟨w, hw, hwrat⟩ := foldl_real minV_real l z
    exact ⟨v.1, v.2.1, v.2.2, w.1, w.2.1, w.2.2, hv, hw, hv ▸ hvrat, hw ▸ hwrat⟩
  bounds u vs := by
    obtain ⟨hnan, hup, hdown⟩ := extremes_bounds u vs
    exact ⟨hnan, hup, hdown, fun _ _ _ => ⟨rfl, rfl, rfl, rfl⟩⟩
  infinite := by decide
  finite f h5 hf p := extreme_bounds h5 hf
  scalar f hf p := redScalar_eq hf

end Sys2Proof.Machine

/-! SUPPORT. Reductions (06_varith R150 to R152): the fixed tree of pairs, and the scalar that a reduction writes. -/

namespace Sys2Proof.Machine

/-! ### The fixed tree (R151) -/

section
variable (q : Descr)

/-- The tree over a list whose places beyond its end are empty. -/
def treeOf (l : List (Option Val)) (k : Nat) : Option Val := treeNode (addRound q) (fun i => l.getD i none) k 0

/-- The lowest level of a tree is one pass over its leaves. -/
theorem treeNode_succ (add : Val → Val → Val) (leaf : Nat → Option Val) (k : Nat) :
    ∀ i, treeNode add leaf (k + 1) i = treeNode add (treeNode add leaf 1) k i := by
  induction k with
  | zero => exact fun _ => rfl
  | succ k ih =>
    intro i
    rw [treeNode, ih, ih]
    rfl

theorem sumPair_none (u : Option Val) : sumPair q u none = u := by cases u <;> rfl

theorem getD_sumLevel : ∀ (l : List (Option Val)) (i : Nat),
    (sumLevel q l).getD i none = sumPair q (l.getD (2 * i) none) (l.getD (2 * i + 1) none)
  | [], i => rfl
  | [u], 0 => (sumPair_none q u).symm
  | [u], i + 1 => rfl
  | u :: v :: l, 0 => rfl
  | u :: v :: l, i + 1 => by
    simpa [sumLevel, Nat.mul_add] using getD_sumLevel l i

theorem length_sumLevel : ∀ l : List (Option Val), (sumLevel q l).length = (l.length + 1) / 2
  | [] => rfl
  | [u] => by simp [sumLevel]
  | u :: v :: l => by
    have h := length_sumLevel l
    simp only [sumLevel, List.length_cons, h]
    omega

theorem treeOf_succ (l : List (Option Val)) (k : Nat) : treeOf q l (k + 1) = treeOf q (sumLevel q l) k := by
  have hlevel : treeNode (addRound q) (fun i => l.getD i none) 1 = fun i => (sumLevel q l).getD i none := by
    funext i
    rw [getD_sumLevel]
    rfl
  rw [treeOf, treeNode_succ, hlevel]
  rfl

/-- A tree of one leaf is the leaf. -/
theorem treeOf_short {l : List (Option Val)} (h : l.length ≤ 1) (k : Nat) : treeOf q l k = l.headD none := by
  have hlevel : sumLevel q l = l := by
    match l, h with
    | [], _ => rfl
    | [u], _ => rfl
  induction k with
  | zero => cases l <;> rfl
  | succ k ih => rw [treeOf_succ, hlevel, ih]

/-- The tree by passes is the tree of pairs, whatever levels stand above its top. -/
theorem sumTree_eq (n : Nat) : ∀ (l : List (Option Val)) (k : Nat), l.length ≤ n → l.length ≤ 2 ^ k → sumTree q n l = treeOf q l k := by
  induction n with
  | zero => exact fun l k hn _ => (treeOf_short q (hn.trans (Nat.zero_le 1)) k).symm
  | succ n ih =>
    intro l k hn hk
    match l, hn, hk with
    | [], _, _ => exact (treeOf_short q (l := []) (Nat.zero_le 1) k).symm
    | [u], _, _ => exact (treeOf_short q (l := [u]) le_rfl k).symm
    | u :: v :: l, hn, hk =>
      have hlen := length_sumLevel q (u :: v :: l)
      simp only [List.length_cons] at hn hk hlen
      cases k with
      | zero => omega
      | succ k =>
        rw [pow_succ] at hk
        rw [treeOf_succ]
        exact ih _ k (by omega) (by omega)

/-- .SUMO adds in order. -/
theorem sumOrder_eq (i : Option Val) (vs : List Val) : sumOrder q i vs = match i.toList ++ vs with
    | [] => none
    | u :: r => some (r.foldl (addRound q) u) := by
  have hsome (vs : List Val) : ∀ u, sumOrder q (some u) vs = some (vs.foldl (addRound q) u) := by
    induction vs with
    | nil => exact fun _ => rfl
    | cons v vs ih => exact fun u => ih (addRound q u v)
  cases i with
  | some u => exact hsome vs u
  | none => cases vs with
    | nil => rfl
    | cons v vs => exact hsome vs v

end

/-! ### What a reduction reads and writes -/

section
variable {s : State} {h : VHdr} {d a f : BitVec 5} {ini : Option (BitVec 5)} {i : Instr}

/-- The patterns that a reduction takes, none at the inactive elements. -/
def redPats (s : State) (x : Entry) (pm : Option (BitVec 3)) (a : BitVec 5) : List (Option Nat) :=
  (List.range x.vl).map fun e => if s.hart.active pm e then some ((Opnd.vec a.toNat x.fmt.fa).readsIn s.hart x.cfg e) else none

/-- Those of the active elements, in order. -/
theorem filterMap_redPats (s : State) (x : Entry) (pm : Option (BitVec 3)) (a : BitVec 5) : (redPats s x pm a).filterMap id
    = ((List.range x.vl).filter fun e => s.hart.active pm e).map fun e => (Opnd.vec a.toNat x.fmt.fa).readsIn s.hart x.cfg e := by
  rw [redPats, List.filterMap_map, ← List.filterMap_eq_map, List.filterMap_filter]
  rfl

theorem redM_passes {x : Entry} {bad : Descr → Bool} {res : Descr → Option Nat → List (Option Nat) → Nat} (hc : h.c = false)
    {read : Nat → List Grp} (hruns : Runs s.hart x h.pm [] [x.grp a x.fmt.fa] read) (hscl : x.fmt.scl = 0) (hrm : x.fmt.rm ≠ 5)
    (hbad : bad x.fmt = false) : (redM h d a ini bad res x s).Passes s.hart x where
  slots := List.nodup_singleton _
  alone _ := hc
  ring := rfl
  bad02 := rfl
  early := rfl
  fits g hg := hruns.fits g (by simpa [VMeaning.grps, redM] using hg)
  bad05 := by simp [redM, hruns.descr, hscl, hrm, hbad]
  typed := hruns.typed
  bad04 := rfl
  free := by simp [redM]
  late := rfl

/-- A reduction without marks writes what it makes of its initial value and its active elements. -/
theorem redM_gives {bad : Descr → Bool} {res : Descr → Option Nat → List (Option Nat) → Nat}
    (hi : exec i s = runSingle (redM h d a ini bad res) (ini.getD 0) f s) (hc : h.c = false) :
    let x := s.capture (ini.getD 0) f
    let ss := [x.grp a x.fmt.fa]
    Runs s.hart x h.pm [] ss (s.reads h.pm ss) → x.fmt.scl = 0 → x.fmt.rm ≠ 5 → bad x.fmt = false →
    Gives s (exec i s) d
      (redScalar x.fmt.fd (res x.fmt (ini.map fun _ => x.sval.toNat % 2 ^ contWidth x.fmt.fb) (redPats s x h.pm a))) := by
  intro x ss hruns hscl hrm hbad
  have hclean (e : Nat) (he : e < x.vl) (hact : s.hart.active h.pm e = true) :
      s.hart.elemMarked x.cfg a.toNat (contWidth x.fmt.fa) e = false :=
    hruns.clean e he (x.grp a x.fmt.fa) (by rw [State.reads, if_pos hact]; exact List.mem_singleton_self _)
  have hfind : ((List.range x.vl).filter fun e => s.hart.active h.pm e).find?
      (fun e => s.hart.elemMarked x.cfg a.toNat (contWidth x.fmt.fa) e) = none := by
    simpa using hclean
  have hpats : ((List.range x.vl).map fun e => if s.hart.active h.pm e then (Opnd.vec a.toNat x.fmt.fa).pat s.hart x.cfg e else none)
      = redPats s x h.pm a := by
    refine List.map_congr_left fun e he => ?_
    split
    case isTrue hact =>
      refine Opnd.pat_ahead (Hart.Ahead.refl s.hart x.cfg ss e) (List.mem_range.mp he) (fun g hg => hg) fun g hg => ?_
      rw [List.mem_singleton.mp hg]
      exact hclean e (List.mem_range.mp he) hact
    case isFalse => rfl
  have hexec : exec i s = .next (s.wr d
      (redScalar x.fmt.fd (res x.fmt (ini.map fun _ => x.sval.toNat % 2 ^ contWidth x.fmt.fb) (redPats s x h.pm a)))) := by
    rw [hi]
    refine runSingle_done rfl hruns.on (redM_passes hc hruns hscl hrm hbad) rfl rfl rfl ?_ ?_ ?_ fun _ => .inl rfl
    · exact Grp.n_lt (g := x.grp a x.fmt.fa) hruns.legal (hruns.fits _ List.mem_cons_self).1 (contWidth_mem _)
    · exact fun e he => markAt_predicated (List.append_nil _).symm rfl (by simp [redM, pmReads]) fun _ => hruns.free e he
    · change (match ((List.range x.vl).filter fun e => s.hart.active h.pm e).find?
          (fun e => s.hart.elemMarked x.cfg a.toNat (contWidth x.fmt.fa) e) with
        | some e => VRes.fault e 0x19 (Config.freeWord s.tick) s
        | none => _) = _
      rw [hfind, ← hpats]
  rw [hexec]
  exact gives_wr s d _

end

end Sys2Proof.Machine

/-! SUPPORT. What each reduction makes of its values (06_varith R150, R151). -/

namespace Sys2Proof.Machine

/-! ### Reductions of values -/

section
variable {q : Descr}

/-- What a reduction of the value class writes before it is a scalar: its result rounded, or its identity. -/
def roundOr (q : Descr) (ident : Nat) : Option Val → Nat
  | none => ident
  | some v => round q.fd q.rm q.sat 0 v

/-- +0 is pattern 0 in every format of the value class. -/
theorem round_zero_of_isValue : ∀ f ≤ 0x13, round f 0 false 0 (.zero false) = 0 := by decide

theorem redSumo_eq (q : Descr) (i : Option Val) (vs : List (Option Val)) (ident : Nat) :
    roundOr q ident (redSumo q i vs) = match i.toList ++ vs.filterMap id with
      | [] => ident
      | u :: r => round q.fd q.rm q.sat 0 (if q.fd ≤ 8 then r.foldl (addRound q) u else sumV (q.rm == 2) (u :: r)) := by
  unfold redSumo
  by_cases hf : q.fd ≤ 8
  · simp only [isFloat, hf, decide_true, if_true, sumOrder_eq]
    generalize i.toList ++ vs.filterMap id = l
    cases l <;> rfl
  · simp only [isFloat, hf, decide_false, Bool.false_eq_true, if_false]
    generalize i.toList ++ vs.filterMap id = l
    cases l <;> rfl

theorem redSump_eq (q : Descr) (i : Option Val) (vs : List (Option Val)) (ident : Nat) {k : Nat} (hk : vs.length ≤ 2 ^ k) :
    roundOr q ident (redSump q i vs) = if q.fd ≤ 8 then
        match i, treeOf q vs k with
        | none, none => ident
        | some u, none | none, some u => round q.fd q.rm q.sat 0 u
        | some u, some v => round q.fd q.rm q.sat 0 (addRound q u v)
      else match i.toList ++ vs.filterMap id with
        | [] => ident
        | u :: r => round q.fd q.rm q.sat 0 (sumV (q.rm == 2) (u :: r)) := by
  unfold redSump
  by_cases hf : q.fd ≤ 8
  · simp only [isFloat, hf, decide_true, if_true, sumTree_eq q _ vs k le_rfl hk]
    cases i <;> cases treeOf q vs k <;> rfl
  · simp only [isFloat, hf, decide_false, Bool.false_eq_true, if_false]
    generalize i.toList ++ vs.filterMap id = l
    cases l <;> rfl

theorem redExt_eq (q : Descr) (F : Val → Val → Val) (i : Option Val) (vs : List (Option Val)) (ident : Nat) :
    roundOr q ident (redExt F q i vs) = match i.toList ++ vs.filterMap id with
      | [] => ident
      | u :: r => round q.fd q.rm q.sat 0 (r.foldl F u) := by
  unfold redExt
  generalize i.toList ++ vs.filterMap id = l
  cases l <;> rfl

end

section
variable {s : State} {h : VHdr} {d a f : BitVec 5} {ini : Option (BitVec 5)} {i : Instr}

/-- The initial value of a reduction. -/
def redFirst (x : Entry) (ini : Option (BitVec 5)) : Option Val := ini.map fun _ => value x.fmt.fb (x.sval.toNat % 2 ^ contWidth x.fmt.fb)
/-- The values that a reduction takes, none at the inactive elements. -/
def redVals (s : State) (x : Entry) (pm : Option (BitVec 3)) (a : BitVec 5) : List (Option Val) :=
  (redPats s x pm a).map fun p => p.map (value x.fmt.fa)

theorem filterMap_redVals (s : State) (x : Entry) (pm : Option (BitVec 3)) (a : BitVec 5) : (redVals s x pm a).filterMap id
    = ((List.range x.vl).filter fun e => s.hart.active pm e).map fun e =>
      value x.fmt.fa ((Opnd.vec a.toNat x.fmt.fa).readsIn s.hart x.cfg e) := by
  have hpats := congrArg (List.map (value x.fmt.fa)) (filterMap_redPats s x pm a)
  rw [List.map_filterMap, List.map_map] at hpats
  rw [redVals, List.filterMap_map]
  exact hpats

theorem length_redVals (s : State) (x : Entry) (pm : Option (BitVec 3)) (a : BitVec 5) : (redVals s x pm a).length = x.vl := by
  simp [redVals, redPats]
/-- The leaves of the fixed tree. -/
theorem getD_redVals (s : State) (x : Entry) (pm : Option (BitVec 3)) (a : BitVec 5) (e : Nat) : (redVals s x pm a).getD e none
    = if e < x.vl ∧ s.hart.active pm e = true then some (value x.fmt.fa ((Opnd.vec a.toNat x.fmt.fa).readsIn s.hart x.cfg e)) else none := by
  rw [redVals, redPats, List.map_map, List.getD_eq_getElem?_getD, List.getElem?_map]
  by_cases he : e < x.vl
  · rw [List.getElem?_range he]
    by_cases ha : s.hart.active pm e = true <;> simp [he, ha]
  · rw [List.getElem?_eq_none (by simpa using he)]
    simp [he]

theorem redVal_gives {ident : Nat → Nat} {op : RedOp} (hi : exec i s = runSingle (redVal h d a ini ident op) (ini.getD 0) f s)
    (hc : h.c = false) :
    let x := s.capture (ini.getD 0) f
    let ss := [x.grp a x.fmt.fa]
    Runs s.hart x h.pm [] ss (s.reads h.pm ss) → x.fmt.scl = 0 → x.fmt.rm ≠ 5 → isValue x.fmt.fa = true → isValue x.fmt.fd = true →
    (ini.isSome = true → isValue x.fmt.fb = true) →
    Gives s (exec i s) d (redScalar x.fmt.fd
      (roundOr x.fmt (ident x.fmt.fd) (op x.fmt (redFirst x ini) (redVals s x h.pm a)))) := by
  intro x ss hruns hscl hrm hfa hfd hfb
  have hbad : (!isValue x.fmt.fa || !isValue x.fmt.fd || (ini.isSome && !isValue x.fmt.fb)) = false := by
    simp only [Bool.or_eq_false_iff, Bool.not_eq_false', Bool.and_eq_false_imp]
    exact ⟨⟨hfa, hfd⟩, hfb⟩
  have hfirst : (ini.map fun _ => x.sval.toNat % 2 ^ contWidth x.fmt.fb).map (value x.fmt.fb) = redFirst x ini := by
    rw [redFirst, Option.map_map]
    rfl
  have hgives := redM_gives hi hc hruns hscl hrm hbad
  rw [hfirst] at hgives
  exact hgives

theorem rawFix_zero (fd : Nat) : rawFix fd 0 = 0 := by simp [rawFix]
/-- From the identity 0 on no pattern gives the identity. -/
theorem rawFix_foldl {fd : Nat} (op : Nat → Nat → Nat) (hop : ∀ p, op 0 p = p) (l : List Nat) : (match l with
      | [] => 0
      | u :: r => rawFix fd (r.foldl op u)) = rawFix fd (l.foldl op 0) := by
  cases l with
  | nil => exact (rawFix_zero fd).symm
  | cons u r => rw [List.foldl_cons, hop]

theorem redRaw_gives {ident : Nat → Nat} {op : Nat → Nat → Nat} (hi : exec i s = runSingle (redRaw h d a ini ident op) (ini.getD 0) f s)
    (hc : h.c = false) :
    let x := s.capture (ini.getD 0) f
    let q := x.fmt
    let ss := [x.grp a q.fa]
    let pats := ((ini.toList.map fun _ => x.sval.toNat % 2 ^ contWidth q.fb)
      ++ ((List.range x.vl).filter fun e => s.hart.active h.pm e).map fun e => (Opnd.vec a.toNat q.fa).readsIn s.hart x.cfg e).map
        (· % 2 ^ memWidth q.fd)
    Runs s.hart x h.pm [] ss (s.reads h.pm ss) → q.scl = 0 → q.rm ≠ 5 → contWidth q.fa = contWidth q.fd →
    (ini.isSome = true → contWidth q.fb = contWidth q.fd) →
    Gives s (exec i s) d (redScalar q.fd (match pats with
      | [] => ident q.fd
      | u :: r => rawFix q.fd (r.foldl op u))) := by
  intro x q ss pats hruns hscl hrm hfa hfb
  have hbad : (contWidth q.fa != contWidth q.fd || (ini.isSome && contWidth q.fb != contWidth q.fd)) = false := by
    simp only [Bool.or_eq_false_iff, bne_eq_false_iff_eq, Bool.and_eq_false_imp]
    exact ⟨hfa, hfb⟩
  have hpats : (((ini.map fun _ => x.sval.toNat % 2 ^ contWidth q.fb).toList ++ (redPats s x h.pm a).filterMap id).map
      (· % 2 ^ memWidth q.fd)) = pats := by
    rw [filterMap_redPats]
    cases ini <;> rfl
  have hgives := redM_gives hi hc hruns hscl hrm hbad
  dsimp only at hgives
  rw [hpats] at hgives
  exact hgives

end

end Sys2Proof.Machine

/-! The family 06_varith: O39. Each reduction writes the scalar of what it makes of its initial value and its active elements. -/

namespace Sys2Proof

open Machine

/-- Settles O39, from the sums and extremes of reals, the tree of pairs level by level, and what each reduction takes. -/
theorem reductionResults : Obligations.ReductionResults := by
  refine ⟨reductionParts, ?_⟩
  intro s h d a f ini x q ss fl es pat first vals pats rnd add give hc hruns hscl hrm
  refine ⟨fun hfa hfd hfb => ?_, fun hfa hfb => ?_⟩
  · have gives {i : Instr} {ident : Nat → Nat} {op : RedOp} (p : Nat) (hi : exec i s = runSingle (redVal h d a ini ident op) (ini.getD 0) f s)
        (hp : roundOr q (ident q.fd) (op q (redFirst x ini) (redVals s x h.pm a)) = p) : give i p :=
      hp ▸ redVal_gives hi hc hruns hscl hrm hfa hfd hfb
    have hvals : (redFirst x ini).toList ++ (redVals s x h.pm a).filterMap id = vals := by
      rw [filterMap_redVals]
      cases ini <;> rfl
    have hzero : round q.fd 0 false 0 (.zero false) = 0 := round_zero_of_isValue q.fd (of_decide_eq_true hfd)
    refine ⟨gives _ rfl ?_, fun levels hlevels => gives _ rfl ?_, gives _ rfl ?_, gives _ rfl ?_⟩
    · rw [redSumo_eq, hvals, hzero]
      generalize vals = l
      cases l with
      | nil => rfl
      | cons u r => simp only [fl, decide_eq_true_eq]; rfl
    · rw [redSump_eq q _ _ _ ((length_redVals s x h.pm a).trans_le hlevels), hvals, hzero]
      have hfirst : (first.map (value q.fb)).head? = redFirst x ini := by
        cases ini <;> rfl
      have htree : treeNode add (fun e => if e < x.vl ∧ s.hart.active h.pm e = true then some (value q.fa (pat e)) else none) levels 0
          = treeOf q (redVals s x h.pm a) levels :=
        congrArg (treeNode add · levels 0) (funext fun e => (getD_redVals s x h.pm a e).symm)
      rw [hfirst, htree]
      by_cases hfloat : q.fd ≤ 8
      · rw [if_pos hfloat, if_pos (decide_eq_true hfloat)]
        cases redFirst x ini <;> cases treeOf q (redVals s x h.pm a) levels <;> rfl
      · rw [if_neg hfloat, if_neg (by simpa [fl] using hfloat)]
        generalize vals = l
        cases l <;> rfl
    · rw [redExt_eq, hvals] <;> rfl
    · rw [redExt_eq, hvals] <;> rfl
  · have gives {i : Instr} {ident : Nat → Nat} {op : Nat → Nat → Nat} (p : Nat)
        (hi : exec i s = runSingle (redRaw h d a ini ident op) (ini.getD 0) f s)
        (hp : (match pats with
          | [] => ident q.fd
          | u :: r => rawFix q.fd (r.foldl op u)) = p) : give i p :=
      hp ▸ redRaw_gives hi hc hruns hscl hrm hfa hfb
    refine ⟨gives _ rfl ?_, gives _ rfl ?_, gives _ rfl ?_⟩
    · rfl
    · exact rawFix_foldl _ Nat.zero_or pats
    · exact rawFix_foldl _ Nat.zero_xor pats

end Sys2Proof

/-! The family 06_varith: O38. A compare with more elements than a mask has bits. -/

namespace Sys2Proof

open Machine

/-- A hart with NREG 32 and VL 2^20 + 1, which Runs does not rule out, whose s1 is the descriptor of E2M1 operands and whose masks
hold one bit, bit 0 of m0. -/
def longCompare : State := State.reset.modHart fun k => { k with
  sregs := k.sregs.set 1 (8 + 32 * 8)
  cfg := { k.cfg with vl := 1048577 }
  vec := { k.vec with vs := 1 }
  store := { k.store with masks := [(0, 1)] } }
/-- Its VCMP.EQ of v0 with s0 into m1 under the predicate m0. -/
def longCompareHdr : VHdr := { c := false, pm := some 0 }
def longCompareEntry : Entry := longCompare.capture 0 1
def longCompareWord : VM := mVcmp longCompareHdr .eq 1 0 (.scal 0)

theorem longCompare_store : longCompare.hart.store.chunks = [] ∧ longCompare.hart.store.poison = []
    ∧ longCompare.hart.store.masks = [(0, 1)] ∧ longCompare.hart.store.binds = [] := by
  decide +kernel
theorem longCompare_vl : longCompareEntry.vl = 1048577 := by decide +kernel

/-- Only element 0 is active before the word. -/
theorem longCompare_active {e : Nat} : longCompare.hart.active (some 0) e = true ↔ e = 0 := by
  have hbit : longCompare.hart.active (some 0) e = (mget 0 [(0, (1 : Word))] (e / 64)).getLsbD (e % 64) := by
    simp only [Hart.active, Hart.maskBit, Hart.maskChunk, longCompare_store.2.2.1]
    simp [maskIndex]
  rw [hbit]
  by_cases h : e / 64 = 0
  · have hword : mget 0 [(0, (1 : Word))] (e / 64) = 1#64 := by rw [h]; rfl
    rw [hword, BitVec.getLsbD_one]
    simp only [Bool.and_eq_true, decide_eq_true_eq]
    omega
  · have hword : mget 0 [(0, (1 : Word))] (e / 64) = 0#64 := by simp [mget, h]
    rw [hword]
    simp only [BitVec.getLsbD_zero, Bool.false_eq_true, false_iff]
    omega

/-- Bit 2^20 of a mask lies where bit 0 of the next one does. -/
theorem maskBit_past_end (k : Hart) (m : Nat) : k.maskBit m 1048576 = k.maskBit (m + 1) 0 := by
  unfold Hart.maskBit Hart.maskChunk maskIndex
  rw [show m * 16384 + 1048576 / 64 = (m + 1) * 16384 + 0 / 64 by omega]

theorem maskBit_setMaskBit_same (k : Hart) (m e : Nat) (b : Bool) : (k.setMaskBit m e b).maskBit m e = b := by
  have hstore (x : Word) : (k.setMaskChunk m (e / 64) x).maskChunk m (e / 64) = x := mget_mput_same 0 k.store.masks _ x
  unfold Hart.maskBit Hart.setMaskBit
  rw [hstore, getLsbD_putBit _ (Nat.mod_lt _ (by norm_num)), if_pos rfl]

/-! ### What the statement says -/

/-- The elements that are active before the word leave bit 0 of m2. -/
theorem longCompare_stated (b : Nat → Bool) : ((List.range 1048577).foldl (fun u e => if longCompare.hart.active (some 0) e then
    u.modHart fun k => k.setMaskBit 1 e (b e) else u) longCompare).hart.maskBit 2 0 = false := by
  refine foldl_range_keeps (fun _ u => u.hart.maskBit 2 0 = false) (by decide +kernel) fun e _ u hu => ?_
  split
  case isTrue hact =>
    have he := longCompare_active.mp hact
    rw [State.hart_modHart, Hart.maskBit_setMaskBit _ _ _ _ (by omega) (by norm_num), if_neg (by omega)]
    exact hu
  case isFalse => exact hu

/-! ### What the word does -/

/-- The word's elements in order: each is active under the mask as it then stands, and finds 0 equal to 0. -/
def longCompareRun (n : Nat) : State := (List.range n).foldl (fun u e => if u.hart.active (some 0) e then
  u.modHart fun k => k.setMaskBit 1 e true else u) longCompare

theorem longCompareRun_succ (n : Nat) : longCompareRun (n + 1) = if (longCompareRun n).hart.active (some 0) n then
    (longCompareRun n).modHart fun k => k.setMaskBit 1 n true else longCompareRun n := by
  rw [longCompareRun, List.range_succ, List.foldl_append]
  rfl

/-- Element 0 sets bit 0 of m1, and the elements below 2^20 leave it. -/
theorem longCompareRun_first {n : Nat} (hn : n + 1 ≤ 2 ^ 20) : (longCompareRun (n + 1)).hart.maskBit 1 0 = true := by
  induction n with
  | zero =>
    rw [longCompareRun_succ, show longCompareRun 0 = longCompare from rfl, if_pos (longCompare_active.mpr rfl), State.hart_modHart]
    exact maskBit_setMaskBit_same _ 1 0 true
  | succ n ih =>
    rw [longCompareRun_succ]
    split
    · rw [State.hart_modHart, Hart.maskBit_setMaskBit _ _ _ _ (by omega) (by norm_num), if_neg (by omega)]
      exact ih (by omega)
    · exact ih (by omega)

/-- Element 2^20 finds that bit as its predicate, and sets its own, which is bit 0 of m2. -/
theorem longCompareRun_last : (longCompareRun 1048577).hart.maskBit 2 0 = true := by
  have hact : (longCompareRun 1048576).hart.active (some 0) 1048576 = true :=
    (maskBit_past_end _ 0).trans (longCompareRun_first (n := 1048575) (by norm_num))
  rw [longCompareRun_succ 1048576, if_pos hact, State.hart_modHart, ← maskBit_past_end _ 1]
  exact maskBit_setMaskBit_same _ 1 1048576 true

theorem longCompare_fits : ∀ g ∈ [longCompareEntry.grp 0 longCompareEntry.fmt.fa],
    g.bad05 longCompare.hart longCompareEntry.cfg = false ∧ g.bad06 longCompare.hart longCompareEntry.cfg = false := by
  decide +kernel

theorem longCompare_passes : (longCompareWord longCompareEntry longCompare).Passes longCompare.hart longCompareEntry where
  slots := List.nodup_singleton _
  alone := by simp [longCompareWord, mVcmp]
  ring := rfl
  bad02 := rfl
  early := rfl
  fits g hg := longCompare_fits g hg
  bad05 := by decide +kernel
  typed := by decide +kernel
  bad04 := rfl
  free := by decide +kernel
  late := rfl

def longCompareOpnds : List Opnd := [.vec 0 longCompareEntry.fmt.fa, bOpnd (.scal 0) longCompareEntry longCompareEntry.fmt.fb]

theorem longCompare_formats : longCompareEntry.fmt.fa = 8 ∧ longCompareEntry.fmt.fb = 8 ∧ longCompareEntry.sval = 0 := by decide +kernel

/-- The operands of an element, while no register has been written: both are the zero of pattern 0. -/
theorem longCompare_operands {k : Hart} (hc : k.store.chunks = []) (hp : k.store.poison = []) (e : Nat) :
    opndVals k longCompareEntry.cfg e longCompareOpnds = some [value 8 0, value 8 0] := by
  obtain ⟨hfa, hfb, hsval⟩ := longCompare_formats
  have helem (v w : Nat) : k.elem longCompareEntry.cfg v w e = 0 := by
    simp [Hart.elem_eq, Hart.chunk, hc, mget]
  have hmark (v w : Nat) : k.elemMarked longCompareEntry.cfg v w e = false := by
    simp [Hart.elemMarked, Hart.chunkMarked, hp, smem]
  simp [longCompareOpnds, opndVals, Opnd.val, Opnd.pat, Opnd.fmt, bOpnd, helem, hmark, hfa, hfb, hsval, readPat]

/-- Marks stand nowhere. -/
theorem longCompare_unmarked (v w m e : Nat) :
    longCompare.hart.elemMarked longCompareEntry.cfg v w e = false ∧ longCompare.hart.maskMarked m e = false := by
  simp [Hart.elemMarked, Hart.chunkMarked, Hart.maskMarked, longCompare_store.2.1, smem]

theorem longCompare_run (n : Nat) : (longCompareWord longCompareEntry longCompare).run longCompare 0 n = .ok (longCompareRun n) := by
  refine elems_eq_foldl (fun _ u => u.hart.store.chunks = [] ∧ u.hart.store.poison = []) ⟨longCompare_store.1, longCompare_store.2.1⟩
    fun e _ u hu => ⟨?_, ?_⟩
  · change (if u.hart.active (some 0) e = true then
      (match opndVals u.hart longCompareEntry.cfg e longCompareOpnds with
        | some [v, w] => Except.ok (u.modHart fun k => k.setMaskBit 1 e (condHolds .eq v w))
        | _ => Except.error (markMet u)) else Except.ok u) = _
    rw [longCompare_operands hu.1 hu.2]
    split <;> rfl
  · split
    · rw [State.hart_modHart]
      exact hu
    · exact hu

theorem longCompare_exec : exec (.vcmp longCompareHdr .eq 1 0 (.scal 0) 1) longCompare = .next (longCompareRun 1048577) := by
  have hi : exec (.vcmp longCompareHdr .eq 1 0 (.scal 0) 1) longCompare = runSingle longCompareWord 0 1 longCompare := rfl
  have hlen : (longCompareWord longCompareEntry longCompare).len = 1048577 := longCompare_vl
  rw [hi]
  refine runSingle_done (m := longCompareWord longCompareEntry longCompare) rfl (by decide +kernel) longCompare_passes rfl rfl rfl
    (by rw [hlen]; norm_num) ?_ ?_ fun h0 => absurd (hlen.symm.trans h0) (by norm_num)
  · exact fun e _ => markAt_predicated (List.append_nil _).symm rfl (fun r _ => (longCompare_unmarked 0 0 r _).2)
      fun _ r _ => (longCompare_unmarked 0 0 r _).2
  · rw [hlen]
    exact longCompare_run 1048577

theorem longCompare_runs : Runs longCompare.hart longCompareEntry (some 0) [] (opndGrps longCompareEntry.vl longCompareOpnds)
    (longCompare.reads (some 0) (opndGrps longCompareEntry.vl longCompareOpnds)) where
  on := by decide +kernel
  legal := ⟨.inr (.inr (by decide +kernel)), .inl (by decide +kernel)⟩
  typed := by decide +kernel
  descr := by decide +kernel
  fits := longCompare_fits
  clean e _ g _ := (longCompare_unmarked g.base g.w 0 e).1
  free e _ r _ := (longCompare_unmarked 0 0 r _).2

/-- Refutes O38: of every VL the statement says that the predicate is read as it stood before the word, but of a VL above the 2^20 bits
of a mask, which its hypotheses do not rule out, the model finds a bit past the end of m0 in m1, which the word has written. The
case is VCMP.EQ of zeros into m1 under m0 with VL 2^20 + 1: element 2^20 becomes active. -/
theorem not_compareResults : ¬ Obligations.CompareResults := by
  intro h
  obtain ⟨h, -⟩ := h longCompare longCompareHdr .eq 1 0 1 (.scal 0)
  have hputs := h longCompare_runs (by decide +kernel) (by decide +kernel) (by decide +kernel) (by decide +kernel)
  have hn : (longCompare.capture (srcReg (.scal 0)) 1).vl = 1048577 := longCompare_vl
  rw [PutsBits, longCompare_exec, hn] at hputs
  have hlast := longCompareRun_last
  rw [Host.Outcome.next.inj hputs] at hlast
  exact Bool.false_ne_true ((longCompare_stated _).symm.trans hlast)

end Sys2Proof

/-! SUPPORT. Elements written into one group while another that shares no register with it is read at any place (07_rearrange R154, R155). -/

namespace Sys2Proof.Machine

/-! ### The chunks of a group (03_formats R71) -/

/-- A chunk of the storage lies in the registers of a group. -/
def Grp.holds (k : Hart) (c : Cfg) (g : Grp) (i : Nat) : Prop := g.base * cpr k c ≤ i ∧ i < (g.base + g.size k c) * cpr k c

section
variable {k l : Hart} {c : Cfg} {g d : Grp}

theorem Grp.size_pos (k : Hart) (c : Cfg) (g : Grp) : 0 < g.size k c := by
  simp only [Grp.size]
  split_ifs <;> omega

theorem Grp.holds_chunk {i : Nat} (h : i < g.size k c * cpr k c) : g.holds k c (chunkIndex k c g.base i) := by
  unfold Grp.holds chunkIndex
  rw [Nat.add_mul]
  omega
/-- Every element of a group lies in its registers. -/
theorem Grp.holds_elem (h : g.bad05 k c = false) (hw : g.w ∈ [32, 16, 8, 6, 4]) (hc : 0 < cpr k c) {e : Nat} (he : e < g.n) :
    g.holds k c (chunkIndex k c g.base (e / perChunk g.w)) :=
  Grp.holds_chunk (Grp.chunk_lt h hw hc he)
/-- The base register of a group lies in it whole, also above the group's elements. -/
theorem Grp.holds_base (hw : g.w ∈ [32, 16, 8, 6, 4]) {e : Nat} (he : e < perReg k c g.w) :
    g.holds k c (chunkIndex k c g.base (e / perChunk g.w)) := by
  refine Grp.holds_chunk ?_
  calc e / perChunk g.w < cpr k c := (Nat.div_lt_iff_lt_mul (perChunk_pos hw)).mpr he
    _ ≤ g.size k c * cpr k c := Nat.le_mul_of_pos_left _ (Grp.size_pos k c g)
/-- Groups that do not meet hold no chunk in common. -/
theorem Grp.not_holds (hmeet : d.meets k c g = false) {i : Nat} (h : g.holds k c i) : ¬ d.holds k c i := by
  simp only [Grp.meets, Bool.and_eq_false_iff, decide_eq_false_iff_not, Nat.not_lt] at hmeet
  unfold Grp.holds at *
  rcases hmeet with hm | hm
  · have := Nat.mul_le_mul_right (cpr k c) hm
    omega
  · have := Nat.mul_le_mul_right (cpr k c) hm
    omega

/-- An element of one of eight registers lies in the group of the eight. -/
theorem eightRegs_holds {x : Entry} {r : BitVec 5} (h : (eightRegs k x r).bad05 k x.cfg = false) (hc : 0 < cpr k x.cfg) {q e : Nat}
    (hq : q < 8) (he : e < perReg k x.cfg (contWidth x.fmt.fa)) :
    (eightRegs k x r).holds k x.cfg (chunkIndex k x.cfg (r.toNat + q) (e / perChunk (contWidth x.fmt.fa))) := by
  have hw := contWidth_mem x.fmt.fa
  have hpos := perChunk_pos hw
  have hn : q * perReg k x.cfg (contWidth x.fmt.fa) + e < (eightRegs k x r).n :=
    calc q * perReg k x.cfg (contWidth x.fmt.fa) + e < (q + 1) * perReg k x.cfg (contWidth x.fmt.fa) := by rw [Nat.succ_mul]; omega
      _ ≤ 8 * perReg k x.cfg (contWidth x.fmt.fa) := Nat.mul_le_mul_right _ hq
  have hindex : chunkIndex k x.cfg (r.toNat + q) (e / perChunk (contWidth x.fmt.fa)) = chunkIndex k x.cfg (eightRegs k x r).base
      ((q * perReg k x.cfg (contWidth x.fmt.fa) + e) / perChunk (eightRegs k x r).w) := by
    simp only [chunkIndex, eightRegs, perReg]
    rw [← Nat.mul_assoc, Nat.add_comm (_ * perChunk _) e, Nat.add_mul_div_right _ _ hpos]
    ring
  rw [hindex]
  exact Grp.holds_elem h hw hc hn

/-! ### What the other registers keep -/

/-- What writes to elements of a group leave of a hart: masks, marks, the placement, and the chunks of all other registers. -/
structure Hart.SameOutside (k : Hart) (c : Cfg) (d : Grp) (l : Hart) : Prop where
  masks  : l.store.masks = k.store.masks
  poison : l.store.poison = k.store.poison
  place  : l.place = k.place
  chunks : ∀ i, ¬ d.holds k c i → mget 0 l.store.chunks i = mget 0 k.store.chunks i

theorem Hart.SameOutside.refl (k : Hart) (c : Cfg) (d : Grp) : k.SameOutside c d k := ⟨rfl, rfl, rfl, fun _ _ => rfl⟩

variable (h : k.SameOutside c d l)
include h

theorem Hart.SameOutside.setElem {v w e : Nat} (hin : d.holds k c (chunkIndex k c v (e / perChunk w))) (p : Nat) :
    k.SameOutside c d (l.setElem c v w e p) where
  masks := h.masks
  poison := h.poison
  place := h.place
  chunks i hi := by
    have hne : i ≠ chunkIndex l c v (e / perChunk w) := by
      rintro rfl
      rw [chunkIndex_congr h.place] at hi
      exact hi hin
    exact (mget_mput_ne 0 l.store.chunks _ _ _ hne).trans (h.chunks i hi)

theorem Hart.SameOutside.maskBit (m j : Nat) : l.maskBit m j = k.maskBit m j := by
  simp only [Hart.maskBit, Hart.maskChunk, h.masks]
theorem Hart.SameOutside.active (pm : Option (BitVec 3)) (j : Nat) : l.active pm j = k.active pm j :=
  Hart.active_congr (fun m => h.maskBit m.toNat j) pm
theorem Hart.SameOutside.elemMarked (v w j : Nat) : l.elemMarked c v w j = k.elemMarked c v w j := by
  simp only [Hart.elemMarked, Hart.chunkMarked, h.poison, chunkIndex_congr h.place]
theorem Hart.SameOutside.perReg (w : Nat) : perReg l c w = perReg k c w := by
  simp only [Machine.perReg, cpr_congr h.place]
/-- An element of another register reads as before. -/
theorem Hart.SameOutside.elem {v w j : Nat} (hout : ¬ d.holds k c (chunkIndex k c v (j / perChunk w))) :
    l.elem c v w j = k.elem c v w j := by
  simp only [Hart.elem_eq, Hart.chunk, chunkIndex_congr h.place, h.chunks _ hout]

end

end Sys2Proof.Machine

/-! SUPPORT. Rearrangement words (07_rearrange R153 to R155, R157): the checks of a word alone, also of one on the ring, an element
read by index, and words that copy one element after another. -/

namespace Sys2Proof.Machine

/-! ### A rearrangement alone (R156) -/

/-- The form of the seven meanings of this chapter: `moveM` with groups of its own, the checks of cause 0x05 that it makes of its
operands, and what it packs. -/
def moveForm (c : Bool) (pm : Option (BitVec 3)) (ring : Bool) (d a : BitVec 5) (step : Entry → Nat → State → Option State)
    (ds ss : List Grp) (bad : Bool) (pack : Option Pack) (x : Entry) (s : State) : VMeaning :=
  { moveM c pm ring d a step x s with
    srcs := ss, dsts := ds, bad05 := bad, bad04 := overlapAny s.hart x.cfg ds ss, pack := pack }

section
variable {s : State} {x : Entry} {c ring bad : Bool} {pm : Option (BitVec 3)} {d a : BitVec 5}
  {step : Entry → Nat → State → Option State} {ds ss : List Grp} {pack : Option Pack} {read : Nat → List Grp}

theorem moveM_eq_moveForm : moveM c pm ring d a step x s
    = moveForm c pm ring d a step [x.grp d x.fmt.fa] [x.grp a x.fmt.fa] (moveBad05 x.fval) none x s := rfl
/-- A selector mask is read as a predicate is (R162). -/
theorem moveM_selected_eq_moveForm (m : BitVec 3) : { moveM c none ring d a step x s with maskR := [m.toNat], pack := pack }
    = moveForm c (some m) ring d a step [x.grp d x.fmt.fa] [x.grp a x.fmt.fa] (moveBad05 x.fval) pack x s := rfl

/-- A rearrangement breaks no rule of convoys alone, on the ring or off it. -/
theorem moveForm_breaks03 : breaks03 s.hart [] (x, moveForm c pm ring d a step ds ss bad pack x s) = false := by
  have hslot : (moveForm c pm ring d a step ds ss bad pack x s).slots = [.x] := rfl
  have halone : (moveForm c pm ring d a step ds ss bad pack x s).alone = false := rfl
  generalize moveForm c pm ring d a step ds ss bad pack x s = m at *
  have hsteps : ([(x, m)].filter fun b : CWord => b.2.steps).length ≤ 1 := List.length_filter_le _ _
  simp only [breaks03, List.nil_append, decide_eq_false (Nat.not_lt.mpr hsteps)]
  simp [slotCount, hslot, halone]

/-- A rearrangement whose groups fit and do not overlap passes the checks of R55. -/
theorem moveForm_dispatchCheck (hruns : Runs s.hart x pm ds ss read) (hbad : bad = false)
    (hover : overlapAny s.hart x.cfg ds ss = false) :
    dispatchCheck s.hart [(x, moveForm c pm ring d a step ds ss bad pack x s)] = none := by
  have hfits (g : Grp) (hg : g ∈ ss ++ ds) := hruns.fits g (List.mem_append.mpr (List.mem_append.mp hg).symm)
  have h06 : (moveForm c pm ring d a step ds ss bad pack x s).is06 s.hart x.cfg = false :=
    List.any_eq_false.mpr fun g hg => Bool.eq_false_iff.mp (hfits g hg).2
  have hgroups : ((ss ++ ds).any fun g => g.bad05 s.hart x.cfg) = false :=
    List.any_eq_false.mpr fun g hg => Bool.eq_false_iff.mp (hfits g hg).1
  have h05 : (moveForm c pm ring d a step ds ss bad pack x s).is05 s.hart x = false := by
    have heq : (moveForm c pm ring d a step ds ss bad pack x s).is05 s.hart x
        = (bad || ((ss ++ ds).any fun g => g.bad05 s.hart x.cfg) || (x.ill && !false)) := rfl
    rw [heq, hbad, hgroups, hruns.typed]
    rfl
  have h04 : (moveForm c pm ring d a step ds ss bad pack x s).bad04 = false := hover
  simp only [dispatchCheck, convoyCheck, find03, List.find?_cons, List.find?_nil, moveForm_breaks03, h04, h05, h06]
  rfl

theorem moveBad05_false (hruns : Runs s.hart x pm ds ss read) (hscl : x.fmt.scl = 0) (hfd : contWidth x.fmt.fd = contWidth x.fmt.fa) :
    moveBad05 x.fval = false := by
  unfold Entry.fmt at hscl hfd
  simp [moveBad05, hruns.descr, hscl, hfd]

/-- A rearrangement whose elements all succeed, writing one group of registers, completes with the fold of what they do. -/
theorem moveForm_completes {vm : VM} {r f : BitVec 5} {g : State → Nat → State} {dg : Grp} (hx : x = s.capture r f)
    (hm : vm x s = moveForm c pm ring d a step ds ss bad pack x s) (hruns : Runs s.hart x pm ds ss read) (hbad : bad = false)
    (hover : overlapAny s.hart x.cfg ds ss = false) (hlen : x.vl ≤ 2 ^ 32)
    (hstep : ∀ e < x.vl, ∀ u, s.hart.SameOutside x.cfg dg u.hart →
      step x e u = some (g u e) ∧ s.hart.SameOutside x.cfg dg (g u e).hart) :
    runSingle vm r f s = .next ((List.range x.vl).foldl g s) := by
  subst hx
  have hrun : (moveForm c pm ring d a step ds ss bad pack (s.capture r f) s).run s 0 (s.capture r f).vl
      = .ok ((List.range (s.capture r f).vl).foldl g s) :=
    elems_eq_foldl (fun _ u => s.hart.SameOutside (s.capture r f).cfg dg u.hart) (Hart.SameOutside.refl _ _ _) fun e he u hu => by
      obtain ⟨hsome, hkeeps⟩ := hstep e he u hu
      exact ⟨by simp only [hsome], hkeeps⟩
  have hmark : maskMark (moveForm c pm ring d a step ds ss bad pack (s.capture r f) s) s.hart 0 (s.capture r f).vl = none :=
    maskMark_none fun e he => markAt_predicated (rs := pmReads pm) (List.append_nil _).symm rfl (by simp [moveForm, moveM, pmReads])
      fun _ => hruns.free e he
  have hconvoy : runConvoy s [(s.capture r f, moveForm c pm ring d a step ds ss bad pack (s.capture r f) s)] [] (2 ^ 32)
      = .done ((List.range (s.capture r f).vl).foldl g s) :=
    runConvoy_alone rfl rfl rfl hlen hmark hrun fun hz => .inr (by rw [show (s.capture r f).vl = 0 from hz]; rfl)
  unfold runSingle
  simp only [if_neg hruns.on, hm, moveForm_dispatchCheck hruns hbad hover, hconvoy]

/-! ### An element copied (R157) -/

theorem meets_of_overlapAny {k : Hart} {c : Cfg} {dg g : Grp} (hover : overlapAny k c [dg] ss = false) (hg : g ∈ ss) :
    dg.meets k c g = false := by
  simp only [overlapAny, List.any_cons, List.any_nil, Bool.or_false, List.any_eq_false] at hover
  simpa using hover g hg

/-- An element that is read without a mark is copied as it stood. -/
theorem moveElem_outside {dg : Grp} {u : State} {e : Nat} {i : Int} (hu : s.hart.SameOutside x.cfg dg u.hart) (hc : 0 < cpr s.hart x.cfg)
    (hfits : (x.grp a x.fmt.fa).bad05 s.hart x.cfg = false) (hmeet : dg.meets s.hart x.cfg (x.grp a x.fmt.fa) = false)
    (hmov : s.movable x a i) : moveElem x d a e i u
      = some (u.modHart fun k => k.setElem x.cfg d.toNat (contWidth x.fmt.fa) e (s.movedElem x a i)) := by
  have hread : moveRead x u.hart a i = some (s.movedElem x a i) := by
    simp only [moveRead, State.movedElem, hu.perReg, hu.elemMarked, ge_iff_le]
    split
    case isTrue => rfl
    case isFalse hin =>
      have hpos : 0 ≤ i := by omega
      have hlt : i.toNat < x.vl ∨ i.toNat < perReg s.hart x.cfg (contWidth x.fmt.fa) := by omega
      have hclean : s.hart.elemMarked x.cfg a.toNat (contWidth x.fmt.fa) i.toNat = false := hmov hpos (by omega)
      have hholds : (x.grp a x.fmt.fa).holds s.hart x.cfg (chunkIndex s.hart x.cfg a.toNat (i.toNat / perChunk (contWidth x.fmt.fa))) :=
        hlt.elim (Grp.holds_elem hfits (contWidth_mem _) hc) (Grp.holds_base (g := x.grp a x.fmt.fa) (contWidth_mem _))
      rw [hclean, if_neg Bool.false_ne_true, hu.elem (Grp.not_holds hmeet hholds)]
  rw [moveElem, hread]
  rfl

/-- A rearrangement that copies its selected elements one after another does so from the elements as they stood. -/
theorem moves_of_steps {i : Instr} {vm : VM} {r f : BitVec 5} {sel : Nat → Bool} {dst : Nat → Nat} {src : Nat → Int}
    (hx : x = s.capture r f) (hi : exec i s = runSingle vm r f s)
    (hm : vm x s = moveForm c pm ring d a step [x.grp d x.fmt.fa] ss bad pack x s)
    (hruns : Runs s.hart x pm [x.grp d x.fmt.fa] ss read) (hbad : bad = false)
    (hover : overlapAny s.hart x.cfg [x.grp d x.fmt.fa] ss = false) (ha : x.grp a x.fmt.fa ∈ ss)
    (hdst : ∀ e < x.vl, sel e = true → dst e < x.vl)
    (hstep : ∀ e < x.vl, ∀ u, s.hart.SameOutside x.cfg (x.grp d x.fmt.fa) u.hart →
      step x e u = if sel e then moveElem x d a (dst e) (src e) u else some u) :
    Moves s (exec i s) x d a sel dst src := by
  intro hmov
  have hc : 0 < cpr s.hart x.cfg := hx ▸ hruns.legal.cpr_pos
  have hd : (x.grp d x.fmt.fa).bad05 s.hart x.cfg = false := (hruns.fits _ (by simp)).1
  have hfits : (x.grp a x.fmt.fa).bad05 s.hart x.cfg = false := (hruns.fits _ (List.mem_append_right _ ha)).1
  have hlen : x.vl ≤ 2 ^ 32 := Grp.n_lt hruns.legal (g := x.grp d x.fmt.fa) (by rw [hx] at hd ⊢; exact hd) (contWidth_mem _)
  rw [hi]
  refine moveForm_completes (dg := x.grp d x.fmt.fa) hx hm hruns hbad hover hlen fun e he u hu => ?_
  rw [hstep e he u hu]
  split
  case isTrue hsel =>
    refine ⟨moveElem_outside hu hc hfits (meets_of_overlapAny hover ha) (hmov e he hsel), ?_⟩
    rw [State.hart_modHart]
    exact hu.setElem (Grp.holds_elem (g := x.grp d x.fmt.fa) hd (contWidth_mem _) hc (hdst e he hsel)) _
  case isFalse => exact ⟨rfl, hu⟩

end

/-! ### Indices of a gather (R161) -/

/-- The bits that no format reads are no part of an integer's value. -/
theorem intValue_readPat {f : Nat} (h : isInt f = true) (p : Nat) : intValue f (readPat f p) = intValue f p := by
  by_cases hf : f = 0x0D
  · subst hf
    have hmod : readPat 0x0D p % 4 = p % 4 := by
      simp only [readPat]
      split <;> omega
    simp only [intValue, intFmt, sintOf]
    norm_num [hmod]
  · have hne : f ≠ 0x0E ∧ f ≠ 0x0F := by
      constructor <;> rintro rfl <;> exact absurd h (by decide)
    rw [readPat_eq, if_neg hf, if_neg hne.1, if_neg hne.2]

/-- The index that an element of another group names is the one that stood there. -/
theorem Opnd.pat_outside {k l : Hart} {c : Cfg} {dg g : Grp} {f e : Nat} (h : k.SameOutside c dg l) (hc : 0 < cpr k c)
    (hfits : g.bad05 k c = false) (hw : g.w = contWidth f) (hmeet : dg.meets k c g = false) (he : e < g.n)
    (hclean : k.elemMarked c g.base g.w e = false) :
    (Opnd.vec g.base f).pat l c e = some (readPat f (k.elem c g.base (contWidth f) e)) := by
  have hholds := Grp.holds_elem hfits (hw ▸ contWidth_mem f) hc he
  rw [hw] at hclean hholds
  simp only [Opnd.pat, h.elemMarked, hclean, h.elem (Grp.not_holds hmeet hholds), Bool.false_eq_true, if_false]

/-! ### Elements selected (R162) -/

theorem selectedBelow_eq (k : Hart) (m : BitVec 3) (e : Nat) :
    selectedBelow k m e = (List.range e).countP fun i => k.maskBit m.toNat i := List.countP_eq_length_filter.symm
theorem Hart.SameOutside.selectedBelow {k l : Hart} {c : Cfg} {dg : Grp} (h : k.SameOutside c dg l) (m : BitVec 3) (e : Nat) :
    selectedBelow l m e = (List.range e).countP fun i => k.maskBit m.toNat i := by
  simp only [selectedBelow_eq, h.maskBit]

/-! ### Panels (R163) -/

section
variable {sh : Shape} {i j : Nat}

/-- A panel index holds the panel, the row and the place within the panel's row. -/
theorem panel_parts {p n : Nat} (hp : 0 < p) (hi : i < n) :
    let t := j / p * p * n + i * p + j % p
    t / (p * n) = j / p ∧ t % (p * n) / p = i ∧ t % (p * n) % p = j % p := by
  intro t
  have hj := Nat.mod_lt j hp
  have hlow : i * p + j % p < p * n :=
    calc i * p + j % p < (i + 1) * p := by rw [Nat.succ_mul]; omega
      _ ≤ n * p := Nat.mul_le_mul_right _ hi
      _ = p * n := Nat.mul_comm _ _
  have ht : t = i * p + j % p + j / p * (p * n) := by simp only [t]; ring
  have hmod : t % (p * n) = i * p + j % p := by rw [ht, Nat.add_mul_mod_self_right, Nat.mod_eq_of_lt hlow]
  refine ⟨?_, ?_, ?_⟩
  · rw [ht, Nat.add_mul_div_right _ _ (Nat.zero_lt_of_lt hlow), Nat.div_eq_of_lt hlow, Nat.zero_add]
  · rw [hmod, Nat.mul_comm, Nat.mul_add_div hp, Nat.div_eq_of_lt hj, Nat.add_zero]
  · rw [hmod, Nat.mul_comm, Nat.mul_add_mod, Nat.mod_mod]

theorem Shape.plainSrc_panel (hp : 0 < sh.p) (hi : i < sh.rw) :
    sh.plainSrc (j / sh.p * sh.p * sh.rw + i * sh.p + j % sh.p) = i * sh.cl + j := by
  obtain ⟨hpanel, hrow, hplace⟩ := panel_parts (j := j) hp hi
  rw [Shape.plainSrc, hpanel, hrow, hplace, Nat.mul_comm (j / sh.p), Nat.div_add_mod]
theorem Shape.transSrc_panel (hp : 0 < sh.p) (hj : j < sh.cl) :
    sh.transSrc (i / sh.p * sh.p * sh.cl + j * sh.p + i % sh.p) = i * sh.cl + j := by
  obtain ⟨hpanel, hrow, hplace⟩ := panel_parts (j := i) hp hj
  rw [Shape.transSrc, hpanel, hrow, hplace, Nat.mul_comm (i / sh.p), Nat.div_add_mod]
theorem Shape.invSrc_rowMajor (hj : j < sh.cl) :
    sh.invSrc (i * sh.cl + j) = j / sh.p * sh.p * sh.rw + i * sh.p + j % sh.p := by
  rw [Shape.invSrc, Nat.mul_comm, Nat.mul_add_div (Nat.zero_lt_of_lt hj), Nat.mul_add_mod, Nat.div_eq_of_lt hj, Nat.mod_eq_of_lt hj,
    Nat.add_zero, Shape.panel]

theorem shapeOf_pos {v : Word} (h : shapeOf v = some sh) : 0 < sh.p := by
  simp only [shapeOf] at h
  split at h
  · cases h
  · cases h
    rw [Nat.shiftLeft_eq]
    positivity

end

/-! ### The transpose of eight registers (R164) -/

/-- Steps that all succeed, in order, are the fold of what they do. -/
theorem foldlM_range_keeps {f : State → Nat → Option State} {g : State → Nat → State} (P : State → Prop) {s : State} {n : Nat}
    (h0 : P s) (hstep : ∀ r < n, ∀ u, P u → f u r = some (g u r) ∧ P (g u r)) :
    (List.range n).foldlM f s = some ((List.range n).foldl g s) ∧ P ((List.range n).foldl g s) := by
  induction n with
  | zero => exact ⟨rfl, h0⟩
  | succ n ih =>
    obtain ⟨hsome, hkeeps⟩ := ih fun r hr => hstep r (Nat.lt_succ_of_lt hr)
    obtain ⟨hlast, hlastKeeps⟩ := hstep n (Nat.lt_succ_self n) _ hkeeps
    rw [List.range_succ, List.foldlM_append, hsome, List.foldl_append]
    exact ⟨by simpa using hlast, hlastKeeps⟩

/-- What a row of a column of the block transpose is given. -/
def State.gtrElem (s : State) (x : Entry) (a : BitVec 5) (col row : Nat) : Nat :=
  let src := 8 * (col / 8) + row
  if src < x.vl then s.hart.elem x.cfg (a.toNat + col % 8) (contWidth x.fmt.fa) src else 0

section
variable {s u : State} {x : Entry} {d a : BitVec 5} {col row : Nat}

theorem gtrRow_outside (hu : s.hart.SameOutside x.cfg (eightRegs s.hart x d) u.hart) (hc : 0 < cpr s.hart x.cfg)
    (hd : (eightRegs s.hart x d).bad05 s.hart x.cfg = false) (ha : (eightRegs s.hart x a).bad05 s.hart x.cfg = false)
    (hmeet : (eightRegs s.hart x d).meets s.hart x.cfg (eightRegs s.hart x a) = false)
    (hvl : x.vl ≤ perReg s.hart x.cfg (contWidth x.fmt.fa)) (hcol : col < x.vl) (hrow : row < 8)
    (hclean : 8 * (col / 8) + row < x.vl →
      s.hart.elemMarked x.cfg (a.toNat + col % 8) (contWidth x.fmt.fa) (8 * (col / 8) + row) = false) :
    let v := u.modHart fun k => k.setElem x.cfg (d.toNat + row) (contWidth x.fmt.fa) col (s.gtrElem x a col row)
    gtrRow x d a col row u = some v ∧ s.hart.SameOutside x.cfg (eightRegs s.hart x d) v.hart := by
  intro v
  refine ⟨?_, ?_⟩
  · simp only [gtrRow, v, State.gtrElem, hu.elemMarked]
    by_cases hsrc : 8 * (col / 8) + row < x.vl
    · have hholds := eightRegs_holds ha hc (Nat.mod_lt col (by norm_num : 0 < 8)) (hsrc.trans_le hvl)
      rw [if_neg (Nat.not_le.mpr hsrc), if_pos hsrc, hclean hsrc, if_neg Bool.false_ne_true, hu.elem (Grp.not_holds hmeet hholds)]
    · rw [if_pos (Nat.not_lt.mp hsrc), if_neg hsrc]
  · rw [State.hart_modHart]
    exact hu.setElem (eightRegs_holds hd hc hrow (hcol.trans_le hvl)) _

end

end Sys2Proof.Machine

/-! SUPPORT. What each rearrangement copies (07_rearrange R160 to R164). -/

namespace Sys2Proof.Machine

section
variable {s : State} {x : Entry} {h : VHdr} {c : Bool} {d a b r f : BitVec 5} {m : BitVec 3} {ss : List Grp} {read : Nat → List Grp}
variable (hx : x = s.capture r f) (hscl : x.fmt.scl = 0) (hfd : contWidth x.fmt.fd = contWidth x.fmt.fa)
  (hover : overlapAny s.hart x.cfg [x.grp d x.fmt.fa] ss = false)
include hx hscl hfd hover

theorem vup_moves (hss : ss = [x.grp a x.fmt.fa]) (hruns : Runs s.hart x h.pm [x.grp d x.fmt.fa] ss read) :
    Moves s (exec (.vup h d a r f) s) x d a (fun e => s.hart.active h.pm e && decide (x.sval.toNat ≤ e)) id fun e => e - x.sval.toNat := by
  subst hss
  refine moves_of_steps (vm := mVup h d a) (pm := h.pm) hx rfl moveM_eq_moveForm hruns (moveBad05_false hruns hscl hfd) hover
    (List.mem_singleton_self _) (fun e he _ => he) fun e he u hu => ?_
  rw [hu.active]
  rfl

theorem vdn_moves (hss : ss = [x.grp a x.fmt.fa]) (hruns : Runs s.hart x h.pm [x.grp d x.fmt.fa] ss read) :
    Moves s (exec (.vdn h d a r f) s) x d a (s.hart.active h.pm) id fun e => e + x.sval.toNat := by
  subst hss
  refine moves_of_steps (vm := mVdn h d a) (pm := h.pm) hx rfl moveM_eq_moveForm hruns (moveBad05_false hruns hscl hfd) hover
    (List.mem_singleton_self _) (fun e he _ => he) fun e he u hu => ?_
  rw [hu.active]
  rfl

theorem vpack_moves (hr : r = 0) (hss : ss = [x.grp a x.fmt.fa]) (hruns : Runs s.hart x (some m) [x.grp d x.fmt.fa] ss read) :
    Moves s (exec (.vpack c d a m f) s) x d a (s.hart.maskBit m.toNat)
      (fun e => (List.range e).countP fun i => s.hart.maskBit m.toNat i) fun e => e := by
  subst hr hss
  refine moves_of_steps (vm := mVpack c d a m) (pm := some m) hx rfl (moveM_selected_eq_moveForm m) hruns
    (moveBad05_false hruns hscl hfd) hover (List.mem_singleton_self _) (fun e he _ => ?_) fun e he u hu => ?_
  · exact (List.countP_le_length.trans_eq List.length_range).trans_lt he
  · rw [hu.maskBit, hu.selectedBelow]

theorem vunpk_moves (hr : r = 0) (hss : ss = [x.grp a x.fmt.fa]) (hruns : Runs s.hart x (some m) [x.grp d x.fmt.fa] ss read) :
    Moves s (exec (.vunpk c d a m f) s) x d a (s.hart.maskBit m.toNat) id
      fun e => (List.range e).countP fun i => s.hart.maskBit m.toNat i := by
  subst hr hss
  refine moves_of_steps (vm := mVunpk c d a m) (pm := some m) hx rfl (moveM_selected_eq_moveForm m) hruns
    (moveBad05_false hruns hscl hfd) hover (List.mem_singleton_self _) (fun e he _ => he) fun e he u hu => ?_
  rw [hu.maskBit, hu.selectedBelow]
  rfl

theorem vgathr_moves (hr : r = 0) (hss : ss = [x.grp a x.fmt.fa, x.grp b x.fmt.fb]) (hint : isInt x.fmt.fb = true)
    (hruns : Runs s.hart x h.pm [x.grp d x.fmt.fa] ss (s.reads h.pm [x.grp b x.fmt.fb])) :
    Moves s (exec (.vgathr h d a b f) s) x d a (s.hart.active h.pm) id
      fun e => intValue x.fmt.fb (s.hart.elem x.cfg b.toNat (contWidth x.fmt.fb) e) := by
  subst hr hss
  have hc : 0 < cpr s.hart x.cfg := hx ▸ hruns.legal.cpr_pos
  have hbad : (moveBad05 x.fval || !isInt x.fmt.fb) = false := by
    rw [moveBad05_false hruns hscl hfd, hint]
    rfl
  have hb : x.grp b x.fmt.fb ∈ [x.grp a x.fmt.fa, x.grp b x.fmt.fb] := List.mem_cons_of_mem _ (List.mem_singleton_self _)
  refine moves_of_steps (vm := mVgathr h d a b) (pm := h.pm) hx rfl rfl hruns hbad hover List.mem_cons_self (fun e he _ => he)
    fun e he u hu => ?_
  rw [hu.active]
  split
  case isTrue hact =>
    have hclean := hruns.clean e he (x.grp b x.fmt.fb) (by rw [State.reads, if_pos hact]; exact List.mem_singleton_self _)
    have hpat : (Opnd.vec b.toNat x.fmt.fb).pat u.hart x.cfg e
        = some (readPat x.fmt.fb (s.hart.elem x.cfg b.toNat (contWidth x.fmt.fb) e)) :=
      Opnd.pat_outside (g := x.grp b x.fmt.fb) hu hc (hruns.fits _ (List.mem_append_right _ hb)).1 rfl (meets_of_overlapAny hover hb)
        he hclean
    rw [hpat]
    exact congrArg (moveElem x d a e · u) (intValue_readPat hint _)
  case isFalse => rfl

/-- A reshape of a legal shape copies by its source index. -/
theorem reshM_moves {i : Instr} {src : Shape → Nat → Nat} {dim : Shape → Nat} {sh : Shape} (hss : ss = [x.grp a x.fmt.fa])
    (hi : exec i s = runSingle (reshM c d a src dim) r f s) (hruns : Runs s.hart x none [x.grp d x.fmt.fa] ss read)
    (hsh : shapeOf x.sval = some sh) (hvl : sh.rw * sh.cl = x.vl) (hdim : dim sh % sh.p = 0) :
    Moves s (exec i s) x d a (fun _ => true) id fun e => src sh e := by
  subst hss
  refine moves_of_steps (vm := reshM c d a src dim) (pm := none) hx hi rfl hruns ?_ hover (List.mem_singleton_self _)
    (fun e he _ => he) fun e he u hu => ?_
  · simp only [hsh]
    simp [moveM, moveBad05_false hruns hscl hfd, hvl, hdim]
  · simp only [hsh]
    rfl

end

/-- VGTR completes, each column's rows given what the block transpose says. -/
theorem vgtr_transposes {s : State} {c : Bool} {d a f : BitVec 5} {read : Nat → List Grp} {x : Entry} (hx : x = s.capture 0 f)
    (hruns : Runs s.hart x none [eightRegs s.hart x d] [eightRegs s.hart x a] read) (hscl : x.fmt.scl = 0)
    (hfd : contWidth x.fmt.fd = contWidth x.fmt.fa)
    (hover : overlapAny s.hart x.cfg [eightRegs s.hart x d] [eightRegs s.hart x a] = false)
    (hvl : x.vl ≤ perReg s.hart x.cfg (contWidth x.fmt.fa))
    (hclean : ∀ e < x.vl, ∀ r < 8, 8 * (e / 8) + r < x.vl →
      s.hart.elemMarked x.cfg (a.toNat + e % 8) (contWidth x.fmt.fa) (8 * (e / 8) + r) = false) :
    exec (.vgtr c d a f) s = .next ((List.range x.vl).foldl (fun u e => (List.range 8).foldl (fun u r =>
      u.modHart fun k => k.setElem x.cfg (d.toNat + r) (contWidth x.fmt.fa) e (s.gtrElem x a e r)) u) s) := by
  have hc : 0 < cpr s.hart x.cfg := hx ▸ hruns.legal.cpr_pos
  have hd : (eightRegs s.hart x d).bad05 s.hart x.cfg = false := (hruns.fits _ List.mem_cons_self).1
  have ha : (eightRegs s.hart x a).bad05 s.hart x.cfg = false := (hruns.fits _ (List.mem_cons_of_mem _ (List.mem_singleton_self _))).1
  have hbad : (moveBad05 x.fval || decide (x.vl > perReg s.hart x.cfg (contWidth x.fmt.fa))) = false := by
    rw [moveBad05_false hruns hscl hfd, decide_eq_false (Nat.not_lt.mpr hvl)]
    rfl
  have hn : (eightRegs s.hart x d).n ≤ 2 ^ 32 :=
    Grp.n_lt hruns.legal (g := eightRegs s.hart x d) (by rw [hx] at hd ⊢; exact hd) (contWidth_mem _)
  have hlen : x.vl ≤ 2 ^ 32 := hvl.trans ((Nat.le_mul_of_pos_left _ (by norm_num)).trans hn)
  refine moveForm_completes (vm := mVgtr c d a) (pm := none) (dg := eightRegs s.hart x d) hx rfl hruns hbad hover hlen
    fun e he u hu => ?_
  exact foldlM_range_keeps (fun v => s.hart.SameOutside x.cfg (eightRegs s.hart x d) v.hart) hu fun r hr v hv =>
    gtrRow_outside hv hc hd ha (meets_of_overlapAny hover (List.mem_singleton_self _)) hvl he hr (hclean e he r hr)

end Sys2Proof.Machine

/-! The family 07_rearrange: O41. Each rearrangement copies its elements as they stood before the word. -/

namespace Sys2Proof

open Machine

/-- Settles O41, instruction by instruction: the sources share no register with the destination, so that each element copied is one
that stood there before the word, and each form's source index undoes the index of the panel. -/
theorem rearrangementResults : Obligations.RearrangementResults := by
  intro s h c d a b sr f m k ok x y n below idx
  refine ⟨?slides, ?gather, ?packing, ?reshape, ?transpose⟩
  case slides =>
    rintro ⟨hruns, hscl, hfd, hover⟩
    exact ⟨vup_moves rfl hscl hfd hover rfl hruns, vdn_moves rfl hscl hfd hover rfl hruns⟩
  case gather =>
    rintro hint ⟨hruns, hscl, hfd, hover⟩
    exact vgathr_moves rfl hscl hfd hover rfl rfl hint hruns
  case packing =>
    rintro ⟨hruns, hscl, hfd, hover⟩
    exact ⟨vpack_moves rfl hscl hfd hover rfl rfl hruns, vunpk_moves rfl hscl hfd hover rfl rfl hruns⟩
  case reshape =>
    rintro sh hsh hvl ⟨hruns, hscl, hfd, hover⟩
    have hp := shapeOf_pos hsh
    refine ⟨fun hcl => ⟨?_, ?_⟩, fun hrw => ?_, fun i hi j hj =>
      ⟨Shape.plainSrc_panel hp hi, Shape.transSrc_panel hp hj, Shape.invSrc_rowMajor hj⟩⟩
    · exact reshM_moves (dim := Shape.cl) rfl hscl hfd hover rfl rfl hruns hsh hvl hcl
    · exact reshM_moves (dim := Shape.cl) rfl hscl hfd hover rfl rfl hruns hsh hvl hcl
    · exact reshM_moves (dim := Shape.rw) rfl hscl hfd hover rfl rfl hruns hsh hvl hrw
  case transpose =>
    intro w ds ss hruns hscl hfd hover hvl hclean
    exact vgtr_transposes rfl hruns hscl hfd hover hvl hclean

end Sys2Proof
